-- ==== Sys2Proof/Word.lean ====
section
/-! DEFINITION. The machine's words and their plainest arithmetic (spec/00 R5, spec/02 R28). -/

namespace Sys2Proof

/-- One byte of memory. -/
abbrev Byte := BitVec 8

/-- A 64-bit word: a scalar register, a predicate register, an address, a count. -/
abbrev Word := BitVec 64

/-- One 32-bit instruction word (R28). -/
abbrev IWord := BitVec 32

/-- A vector register, 512 bits. -/
abbrev VWord := BitVec 512

/-- A 5-bit register field of an instruction (R34). -/
abbrev Reg := BitVec 5

/-- Bits hi down to lo of a natural number, as spec/00 writes x<hi:lo>. -/
def bits (x hi lo : Nat) : Nat := x / 2 ^ lo % 2 ^ (hi + 1 - lo)

end Sys2Proof
end

