-- ==== Sys2Proof/Config.lean ====
section
/-! DEFINITION. What the spec leaves to an implementation or leaves open: the free values. Each constant is opaque: no
proof can see what it is, and a statement about it holds whatever it is. -/

namespace Sys2Proof.Config

/-- Which of the two neighbours an inexact .f64 XFN result is (spec/05 R145): function code, operand, mode. -/
opaque xfnAway : Nat → Nat → Nat → Bool

/-- Which enabled action the machine takes next, by the counter of free values (log 2). -/
opaque choose : Nat → Nat

/-- Die clock cycles and reference ticks that pass when the environment names no turn (log 3). -/
opaque idle : Nat → Nat × Nat

/-- Whether the cycles in which a core with a waiting context issues nothing fall under K of 18 R377, else under M: by the counter
of free values and the core (log 3). -/
opaque cycleLocal : Nat → Nat → Bool

/-- Die-network hops between the router of a slice and the router of a hive, by slice number and hive index: the spec
does not place the slice routers (10 R246, 13 R292). -/
opaque hops : Nat → Nat → Nat

/-- The lantern's release delay (12 R277), by the counter of free values. -/
opaque lanternDelay : Nat → Nat

/-- Which of the 512 sets of its L2 slice a line falls in: the spec gives no set index (01 R26, 10 R244). -/
opaque sliceSet : Nat → Nat

/-- How many lines besides one the proxy entries of a set of an L2 slice cover: the spec gives proxy entries no capacity (10
R245). -/
opaque proxyWays : Nat

/-- The 256-byte record of a matrix context in an engine image, by what it holds: the spec names that and gives no layout
(17 Table 17.4). -/
opaque engineRecord : List Nat → Nat

/-- What an engine reads of a line that has come to lie in no enabled range after its command was accepted, by address (17 R360). -/
opaque unfilled : Nat → BitVec 128

/-- Which of the 256 sets of a hive's TLB a page falls in: the spec gives no index (17 R352). -/
opaque tlbSet : Nat → Nat

/-- How many fabric source addresses a partition's table holds (21 Table 21.4, FABRIC_ALLOW). -/
opaque fabricSlots : Nat

/-- Whether a firmware self-test passes: of a boot step (21 R403) or a fenced core (21 FENCE_CLEAR), by the counter. -/
opaque selfTest : Nat → Bool

/-- Firmware-made random keys (17 R360) and fresh key pairs (17 R362), by the counter. -/
opaque random : Nat → BitVec 512

/-- Whether the signature of a configuration block verifies (21 R402). -/
opaque signatureOk : List Byte → Bool

/-- Whether the sections of a configuration block have the form Nerdigar expects, which the spec does not lay out (21 R402). -/
opaque sectionsOk : List Byte → Bool

/-- The HREMAP and SREMAP entries of the repair map in a configuration block, by die: hive or slice number and the 16-bit
entry. The spec does not lay the section out (21 R402, 20 R386). -/
opaque hiveMap : List Byte → Nat → List (Nat × BitVec 16)
/-- See `hiveMap`. -/
opaque sliceMap : List Byte → Nat → List (Nat × BitVec 16)

/-- Whether a write to a host address faults (21 Table 21.4, ERRLOG_READ), by the counter of free values. -/
opaque hostFaults : Nat → Bool

/-- The encapsulation key of a key pair made by Open, and the shared secret a ciphertext decapsulates to (ML-KEM-1024, 17 R362). -/
opaque encapsKey : BitVec 512 → List Byte
/-- See `encapsKey`. -/
opaque decaps : BitVec 512 → List Byte → List Byte

/-- The module's unicast MAC address on the telemetry port (18 R364). -/
opaque macAddress : BitVec 48

/-- Whether a FINISH verifies for a session (17 R361): transcript hash and verify data. -/
opaque finishOk : BitVec 256 → BitVec 256 → Bool

/-- The bytes of an SPDM reply that the spec does not spell out: request code, and the data it covers. -/
opaque reply : Nat → List Byte → List Byte

/-- Copy A of the configuration block in flash, as the module was delivered (21 R402, log 1). -/
opaque flash : List Byte

/-- The public part of the identity key (21 R398, INFO), and the certificate chain that roots in it (17 R361, 21 R404). -/
opaque identityKey : List Byte
/-- See `identityKey`. -/
opaque certificates : List Byte

/-- The measured bytes of the ROM (21 R404, index 1). -/
opaque rom : List Byte

end Sys2Proof.Config
end

