-- ==== Sys2Proof/Syntax.lean ====
section
/-! DEFINITION. The instruction set as data: one constructor of `Instr` for each row of
spec/opcode_table.json. The 253 instructions hold the fields of their base format (spec/02 Tables 2.2 to
2.10); the events and commands hold what the chapters give them. -/

namespace Sys2Proof

/-- E1 of the base instructions (R38, Table 2.10), reserved bits left out (they must be 0). -/
structure E1 where
  sat : BitVec 1
  rm : BitVec 3
  pn : BitVec 1
  z : BitVec 1
  pred : BitVec 3
  c : Reg
  deriving DecidableEq, Repr

/-- What LEN adds to word 0 (R29, Table 2.1): nothing, a literal, E1 and E2, or all three. -/
inductive Form where
  | base
  | lit (l : Word)
  | ext (x : E1) (e2 : IWord)
  | extLit (x : E1) (e2 : IWord) (l : Word)
  deriving DecidableEq, Repr

/-- Format R (Table 2.2); the constructor stands for MAJOR and FN. -/
structure RForm where
  mod : BitVec 4
  b : Reg
  a : Reg
  d : Reg
  form : Form
  deriving DecidableEq, Repr

/-- Format I (Table 2.3). -/
structure IForm where
  imm : BitVec 10
  a : Reg
  d : Reg
  form : Form
  deriving DecidableEq, Repr

/-- Format M (Table 2.4). In the FENCE and cache major D holds the operation code FOP (R223). -/
structure MForm where
  off : BitVec 6
  scope : BitVec 3
  ord : BitVec 2
  sz : BitVec 3
  a : Reg
  d : Reg
  form : Form
  deriving DecidableEq, Repr

/-- Format B (Table 2.5). -/
structure BForm where
  disp : BitVec 10
  cond : BitVec 4
  a : Reg
  b : Reg
  form : Form
  deriving DecidableEq, Repr

/-- Format J (Table 2.6). -/
structure JForm where
  disp : BitVec 24
  form : Form
  deriving DecidableEq, Repr

/-- Format V (Table 2.7); the constructor stands for MAJOR and FN4. -/
structure VForm where
  ty : BitVec 3
  pg : BitVec 2
  b : Reg
  a : Reg
  d : Reg
  form : Form
  deriving DecidableEq, Repr

/-- The AMO major (R219): word 0 in format M with OP6 in place of OFF6, E1 of Table 9.4 with its reserved
bits left out, E2 the byte offset. -/
structure AForm where
  scope : BitVec 3
  ord : BitVec 2
  sz : BitVec 3
  a : Reg
  d : Reg
  n : Reg
  c : Reg
  e2 : IWord
  deriving DecidableEq, Repr

/-- START, WAIT and the majors MAT to MSG (R194, R170, R257, R282, R289): word 0 in format R, and E1 and E2
as the owning chapter lays them out. -/
structure XForm where
  mod : BitVec 4
  b : Reg
  a : Reg
  d : Reg
  e1 : IWord
  e2 : IWord
  deriving DecidableEq, Repr
/-! ## Names used by the events -/

/-- A little core by die, mesh row and column, or a big core by die, hive row and hive column (01 R16, Table 1.3). -/
structure CoreId where
  big : Bool
  die : Nat
  row : Nat
  col : Nat
  deriving DecidableEq, Repr

/-- A context of a core: 0 the control context, 1 to 10 the helpers (08 R191). -/
structure CtxId where
  core : CoreId
  num : Fin 11
  deriving DecidableEq, Repr

/-- A logical hive: die, hive row, hive column (01 R15, R16). -/
structure HiveId where
  die : Nat
  row : Nat
  col : Nat
  deriving DecidableEq, Repr

/-- A direction of the core mesh; codes 00 .n, 01 .e, 10 .s, 11 .w (12 R282). -/
inductive Dir where
  | n | e | s | w
  deriving DecidableEq, Repr

/-- A voltage segment: 16 consecutive little cores of a mesh row (18 R378); `seg` counts 0 to 11. -/
structure SegId where
  die : Nat
  row : Nat
  seg : Nat
  deriving DecidableEq, Repr

/-- Classes of detected errors (20 Table 20.1), in the order of CLASS (Table 20.4). -/
inductive ErrClass where
  | corrected | cleanCopy | consumed | latent | orphaned | moduleWide
  deriving DecidableEq, Repr

/-- Which doorbell page a DBPKT write reaches: PF 0 at page `part`, or virtual function `vf` (21 R395). -/
inductive DoorbellPage where
  | pf (part : Nat)
  | vf (vf : Nat)
  deriving DecidableEq, Repr

/-- The mailbox registers a host write can reach besides MBCP and MBEC (21 Table 21.1). -/
inductive MmioReg where
  | mbcq | mbcp | mbcc | mbeq | mbep | mbst
  deriving DecidableEq, Repr

/-- What every mailbox command entry carries (21 Table 21.2): TAG, PART, and whether a reserved bit is set. -/
structure Cmd where
  tag : BitVec 16
  part : Nat
  reserved : Bool
  deriving DecidableEq, Repr

/-- A frame at the telemetry port: destination, EtherType and 40-byte payload (18 R364). -/
structure EthFrame where
  dest : BitVec 48
  etherType : BitVec 16
  payload : BitVec 320
  deriving DecidableEq, Repr

/-- PART_CREATE's operands (21 Table 21.4). -/
structure PartArgs where
  ptroot : Nat
  nqbase : Nat
  nql : Nat
  sdport : Nat
  fpol : Bool
  pdump : Nat
  deriving DecidableEq, Repr

/-- PART_SET's operands: image bases by die, supervisor LID, lottery seed, and L2SPLIT values by die and slice.
The unused ones are `none` or empty (21 Table 21.4). -/
structure PartSetArgs where
  imgbase : List (Nat × Nat)
  supervisor : Option (BitVec 32)
  seed : Option Word
  l2split : List (Nat × Nat × Word)
  deriving DecidableEq, Repr

/-- The kind of unit PART_ASSIGN and PART_RELEASE name (21 Table 21.4). -/
inductive UnitKind where
  | hive | slice
  deriving DecidableEq, Repr

/-- The scope of a dump (20 Table 20.5): the module, or one partition. -/
inductive DumpScope where
  | module
  | partition (part : Nat)
  deriving DecidableEq, Repr

/-- A memory request of the host or a peer (21 R395): a read of `len` bytes or a write. -/
inductive HostAccess where
  | read (len : Nat)
  | write (data : List Byte)
  deriving DecidableEq, Repr

/-- What a read reply installs at a core (10 R250, 02 R32): an L1 line, an instruction-cache line, or nothing that
stays (local memory, scratch, an atomic). -/
inductive ReplyTo where
  | dataLine
  | codeLine
  | uncached
  deriving DecidableEq, Repr

/-- The operation that reaches a local-memory port from outside the core (08 R206, 11 R265). -/
inductive PortAccess where
  | read (len : Nat)
  | write (data : List Byte)
  deriving DecidableEq, Repr

/-- The instruction set: one constructor for each row of the table. The 253 instructions come first (a fixed encoding
with a base and an extended form, LEN 10 with E1 and E2 zero, has two constructors, the second named with a final X;
FENCESC has its two scopes so as well). The events and commands follow; an event names what it happens to by
coordinates, an index into a list of the state, or the operands its chapter gives it. -/
inductive Instr where
  | trap (x : RForm)
  | mfs (x : RForm)
  | mts (x : RForm)
  | time (x : RForm)
  | cycle (x : RForm)
  | add (x : RForm)
  | sub (x : RForm)
  | and (x : RForm)
  | or (x : RForm)
  | xor (x : RForm)
  | andn (x : RForm)
  | orn (x : RForm)
  | sll (x : RForm)
  | srl (x : RForm)
  | sra (x : RForm)
  | rol (x : RForm)
  | ror (x : RForm)
  | min (x : RForm)
  | max (x : RForm)
  | minn (x : RForm)
  | maxn (x : RForm)
  | slt (x : RForm)
  | sltn (x : RForm)
  | seq (x : RForm)
  | sne (x : RForm)
  | csel (x : RForm)
  | addi (x : IForm)
  | andi (x : IForm)
  | ori (x : IForm)
  | xori (x : IForm)
  | slli (x : IForm)
  | srli (x : IForm)
  | srai (x : IForm)
  | rori (x : IForm)
  | slti (x : IForm)
  | sltni (x : IForm)
  | seqi (x : IForm)
  | li (x : IForm)
  | mul (x : RForm)
  | mulh (x : RForm)
  | mulhn (x : RForm)
  | madd (x : RForm)
  | div (x : RForm)
  | divn (x : RForm)
  | rem (x : RForm)
  | remn (x : RForm)
  | clz (x : RForm)
  | ctz (x : RForm)
  | popc (x : RForm)
  | brev (x : RForm)
  | bswap (x : RForm)
  | bfx (x : RForm)
  | bfxn (x : RForm)
  | bfi (x : RForm)
  | sext (x : RForm)
  | zext (x : RForm)
  | lea (x : RForm)
  | gaddr (x : RForm)
  | caddr (x : RForm)
  | crel (x : RForm)
  | bcc (x : BForm)
  | bp (x : BForm)
  | call (x : BForm)
  | j (x : JForm)
  | ji (x : RForm)
  | calli (x : RForm)
  | start (x : XForm)
  | myid (x : RForm)
  | wait (x : XForm)
  | ld (x : MForm)
  | ldp (x : MForm)
  | st (x : MForm)
  | stp (x : MForm)
  | lds (x : MForm)
  | chkld (x : MForm)
  | amoSwap (x : AForm)
  | amoAdd (x : AForm)
  | amoAnd (x : AForm)
  | amoOr (x : AForm)
  | amoXor (x : AForm)
  | amoMin (x : AForm)
  | amoMax (x : AForm)
  | amoMinn (x : AForm)
  | amoMaxn (x : AForm)
  | cas (x : AForm)
  | amofAdd (x : AForm)
  | amofMin (x : AForm)
  | amofMax (x : AForm)
  | amo2Swap (x : AForm)
  | amo2Add (x : AForm)
  | amo2And (x : AForm)
  | amo2Or (x : AForm)
  | amo2Xor (x : AForm)
  | cas2 (x : AForm)
  | fence (x : MForm)
  | pref (x : MForm)
  | prefW (x : MForm)
  | cclean (x : MForm)
  | cflush (x : MForm)
  | cinv (x : MForm)
  | vld (x : MForm)
  | vst (x : MForm)
  | vlds (x : VForm)
  | vsts (x : VForm)
  | vldx (x : VForm)
  | vstx (x : VForm)
  | vldb (x : VForm)
  | vldbWeak (x : VForm)
  | vadd (x : VForm)
  | vsub (x : VForm)
  | vmul (x : VForm)
  | vmulh (x : VForm)
  | vmadd (x : VForm)
  | vand (x : VForm)
  | vor (x : VForm)
  | vxor (x : VForm)
  | vsll (x : VForm)
  | vsrl (x : VForm)
  | vsra (x : VForm)
  | vmin (x : VForm)
  | vmax (x : VForm)
  | vabs (x : VForm)
  | vcmp (x : VForm)
  | vsel (x : VForm)
  | vaddi (x : VForm)
  | vsubi (x : VForm)
  | vmuli (x : VForm)
  | vandi (x : VForm)
  | vori (x : VForm)
  | vxori (x : VForm)
  | vslli (x : VForm)
  | vsrli (x : VForm)
  | vsrai (x : VForm)
  | vmini (x : VForm)
  | vmaxi (x : VForm)
  | vcmpi (x : VForm)
  | vbcast (x : VForm)
  | vins (x : VForm)
  | vext (x : VForm)
  | vperm (x : VForm)
  | vslide (x : VForm)
  | vred (x : VForm)
  | vscan (x : VForm)
  | viota (x : VForm)
  | vcmprs (x : VForm)
  | vexpnd (x : VForm)
  | plog (x : VForm)
  | ppopc (x : VForm)
  | pfirst (x : VForm)
  | pset (x : VForm)
  | fpsFadd (x : VForm)
  | fpsFsub (x : VForm)
  | fpsFmul (x : VForm)
  | fpsFdiv (x : VForm)
  | fpsFsqrt (x : VForm)
  | fpsFmin (x : VForm)
  | fpsFmax (x : VForm)
  | fpsFminm (x : VForm)
  | fpsFmaxm (x : VForm)
  | fpsFabs (x : VForm)
  | fpsFneg (x : VForm)
  | fpsFsgnj (x : VForm)
  | fpsFcmp (x : VForm)
  | fpsFclass (x : VForm)
  | fpsFrnd (x : VForm)
  | fpvFadd (x : VForm)
  | fpvFsub (x : VForm)
  | fpvFmul (x : VForm)
  | fpvFdiv (x : VForm)
  | fpvFsqrt (x : VForm)
  | fpvFmin (x : VForm)
  | fpvFmax (x : VForm)
  | fpvFminm (x : VForm)
  | fpvFmaxm (x : VForm)
  | fpvFabs (x : VForm)
  | fpvFneg (x : VForm)
  | fpvFsgnj (x : VForm)
  | fpvFcmp (x : VForm)
  | fpvFclass (x : VForm)
  | fpvFrnd (x : VForm)
  | ffmaVector (x : VForm)
  | ffmsVector (x : VForm)
  | fnfmaVector (x : VForm)
  | fnfmsVector (x : VForm)
  | fdot2 (x : VForm)
  | freds (x : VForm)
  | ffmaScalar (x : VForm)
  | ffmsScalar (x : VForm)
  | fnfmaScalar (x : VForm)
  | fnfmsScalar (x : VForm)
  | fcvtVector (x : VForm)
  | fcvtScalar (x : VForm)
  | qdeq (x : VForm)
  | qquant (x : VForm)
  | scvt (x : VForm)
  | ilvp (x : VForm)
  | ilvu (x : VForm)
  | fexp2 (scalar : Bool) (x : VForm)
  | fexp (scalar : Bool) (x : VForm)
  | flog2 (scalar : Bool) (x : VForm)
  | fsin (scalar : Bool) (x : VForm)
  | fcos (scalar : Bool) (x : VForm)
  | ftanh (scalar : Bool) (x : VForm)
  | frsq (scalar : Bool) (x : VForm)
  | frcp (scalar : Bool) (x : VForm)
  | talloc (x : XForm)
  | tfree (x : XForm)
  | tzero (x : XForm)
  | tload (x : XForm)
  | tmma (x : XForm)
  | tmmaq (x : XForm)
  | tqdesc (x : XForm)
  | tdrain (x : XForm)
  | tstore (x : XForm)
  | tstat (x : XForm)
  | copy (x : XForm)
  | cseal (x : XForm)
  | cwait (x : XForm)
  | winset (x : XForm)
  | winadv (x : XForm)
  | winflush (x : XForm)
  | tlget (x : XForm)
  | bgset (x : XForm)
  | barr (x : XForm)
  | bwait (x : XForm)
  | phase (x : XForm)
  | xmit (x : XForm)
  | isel (x : XForm)
  | xrecv (x : XForm)
  | spawn (x : XForm)
  | spawnat (x : XForm)
  | taskget (x : XForm)
  | rgres (x : XForm)
  | rgpub (x : XForm)
  | rgtake (x : XForm)
  | rgdone (x : XForm)
  | send (x : XForm)
  | recv (x : XForm)
  | rank (x : XForm)
  | rankN (x : XForm)
  | rankOf (x : XForm)
  | coll (x : XForm)
  | grpjoin (x : XForm)
  | grpfree (x : XForm)
  | nop
  | nopX
  | eret
  | eretX
  | beat
  | beatX
  | ret
  | retX
  | retire
  | retireX
  | endK
  | endX
  | yieldK
  | yieldX
  | fencesc
  | fencescX
  | fencescSys
  | fencescSysX
  | taskend

  -- shipping and engines (06, 07, 11)
  | tileLoadDone (k : CoreId) (w : Fin 8)
  | shipPacketArrival (h : HiveId) (n : Nat)
  | guestIssue (h : HiveId) (n : Nat)
  | guestAgeingExpiry (h : HiveId) (n : Nat)
  | shipResultLanding (h : HiveId) (n : Nat)
  | shipRetransmit (h : HiveId) (n : Nat)
  | gshareUpdate (h : HiveId)
  | matCommandAccept (c : CtxId)
  | matStep (c : CtxId) (n : Nat)
  | matCommandComplete (c : CtxId)
  | matFault (c : CtxId) (n : Nat)
  | mcastWaitExpiry (c : CtxId) (n : Nat)
  | tdrainRowDispatch (c : CtxId)
  | helperAssign (k : CoreId)
  | copyAccept (c : CtxId)
  | copyChunk (c : CtxId) (n : Nat)
  | copyComplete (c : CtxId) (n : Nat)
  | copyFault (c : CtxId) (n : Nat)
  -- waits and barriers (08, 12)
  | waitEvaluate (c : CtxId)
  | waitTimeout (c : CtxId)
  | yieldExpiry (c : CtxId)
  | barrierTokenArrival (die n : Nat)
  | barrierReleaseArrival (die n : Nat)
  | phaseStart (k : CoreId) (bg : Fin 4)
  | bwaitTimeout (c : CtxId)
  | wireWordArrival (die n : Nat)
  -- tasks and messages (13)
  | stealProbe (k : CoreId)
  | stealResponse (k : CoreId)
  | spawnatDelivery (n : Nat)
  | spawnTimeout (c : CtxId)
  | taskgetTimeout (c : CtxId)
  | rgtakeTimeout (c : CtxId)
  | messageDelivery (k : CoreId) (n : Nat)
  | recvTimeout (c : CtxId)
  | collRoundComplete (launch group : Nat)
  | groupGenerationDrain (launch group : Nat)
  -- coherence (10); `line` is a physical line number, PA<56:7>
  | crossDieMessageApply (die n : Nat)
  | clockBeat (src dst : Nat)
  | fenceSequencerTicket (die : Nat)
  | directoryReadMiss (die line : Nat) (k : CoreId)
  | ownershipRequest (die line : Nat) (k : CoreId)
  | hiveInvalidation (die line : Nat) (h : HiveId)
  | invalidationAck (die line : Nat) (h : HiveId)
  | cleanEvictionNotice (die line : Nat) (k : CoreId)
  | dirtyWriteBack (die line : Nat) (k : CoreId)
  | replicaOffer (die line : Nat) (k : CoreId)
  | proxyWriteThrough (die line : Nat) (k : CoreId)
  -- launches (16, 21)
  | dbpkt (page : DoorbellPage) (addr : Word)
  | fabricSubmission (source head : Nat) (packet : BitVec 11264)
  | lotteryDraw (part : Nat)
  | forcedHeadRetry (part : Nat)
  | governorSample (launch : Nat)
  | groupMove (launch ring : Nat)
  | stageComplete (launch stage : Nat)
  -- pre-emption, moves and shootdown (17)
  | preemptionRequest (k : CoreId)
  | coreHalt (k : CoreId)
  | coreSave (k : CoreId)
  | contextMove (k k' : CoreId)
  | shootdownRequest (part : Nat)
  | shootdownComplete (part : Nat)
  -- faults of cores (20)
  | heartbeatMiss (k : CoreId)
  | fenceQuiescenceTimeout (k : CoreId)
  | fenceRehome (k k' : CoreId)
  -- power (18)
  | telemetryFrame (f : EthFrame)
  | telemetryLoss
  | activeCountRise
  | forcedShed (k : CoreId)
  | parkedSwitchOff (k : CoreId)
  | coreSwitchOn (k : CoreId)
  | dividerWindowEnd (k : CoreId)
  | segmentVoltageReached (g : SegId)
  | droopTrip (g : SegId)
  | droopRecovery (k : CoreId)
  -- errors, links, reset, host registers (20, 21)
  | errorDetected (die : Nat) (cls : ErrClass) (unit : Nat) (pos : Nat) (part : Option Nat)
  | thermalTrip (die : Nat)
  | managementWatchdog
  | linkLaneFailure (die : Nat) (d : Dir)
  | linkDown (die : Nat) (d : Dir)
  | replayDivergence (part launch : Nat)
  | moduleReset
  | mbec (v : BitVec 32)
  | mmioRegisterWrite (r : MmioReg) (v : Word)
  -- mailbox commands (21 Table 21.4)
  | info (c : Cmd)
  | partCreate (c : Cmd) (a : PartArgs)
  | partAssign (c : Cmd) (die : Nat) (kind : UnitKind) (units : List Nat)
  | partRelease (c : Cmd) (die : Nat) (kind : UnitKind) (units : List Nat)
  | partDestroy (c : Cmd)
  | partSet (c : Cmd) (a : PartSetArgs)
  | vfBind (c : Cmd) (vf : Nat) (bind : Bool)
  | fabricAllow (c : Cmd) (sources : List Nat)
  | krangeSet (c : Cmd) (die n : Nat) (v : BitVec 128)
  | keyZeroise (c : Cmd) (dies : List Nat) (slot : Nat)
  | preempt (c : Cmd) (cores : List CoreId) (save : Bool)
  | abort (c : Cmd) (lid : BitVec 32)
  | restore (c : Cmd) (cores : List CoreId)
  | pwrSet (c : Cmd) (cfg time dvcfg : Word) (ddctl : List (SegId × Word))
  | curveSet (c : Cmd) (curve : Vector Word 8)
  | pwrQuery (c : Cmd)
  | recSet (c : Cmd) (mode : BitVec 2) (base size dest : Nat)
  | recQuery (c : Cmd)
  | errlogRead (c : Cmd) (die : Nat) (dst : Nat)
  | repairHive (c : Cmd) (h : HiveId)
  | fenceClear (c : Cmd) (k : CoreId)
  | dumpRead (c : Cmd) (scope : DumpScope) (dst len : Nat)
  | dumpDiscard (c : Cmd) (scope : DumpScope)
  | configStage (c : Cmd) (block : List Byte)
  -- SPDM requests (17 R361, R362, 21 R404, R405)
  | getVersion
  | getCapabilities
  | negotiateAlgorithms
  | getDigests
  | getCertificate (offset len : Nat)
  | challenge (nonce : BitVec 256)
  | getMeasurements (index : Nat)
  | keyExchange (exchange : List Byte)
  | finish (session : Nat) (verify : BitVec 256)
  | heartbeat (session : Nat)
  | keyUpdate (session : Nat)
  | endSession (session : Nat)
  | keyOpen (session part : Nat) (dies : List Nat) (slot : Nat) (keyid : BitVec 32)
  | keyWrap (session : Nat) (cipher wrapped : List Byte)
  | keyLoad (session : Nat)
  | shelfKey (session : Nat) (cipher wrapped : List Byte)
  -- decode and fetch traps, replies and outside accesses (02, 10, 21, 20)
  | illegalEncoding (w : IWord) (len : BitVec 2)
  | instructionFetchFault (access : Bool) (addr : Word)
  | readReply (k : CoreId) (line : Nat) (dest : ReplyTo)
  | localMemoryPortAccess (k : CoreId) (off : Nat) (scratch : Bool) (a : PortAccess)
  | hostMemoryRequest (vf : Nat) (addr : Nat) (a : HostAccess)
  | replayInject (part : Nat)
  deriving DecidableEq, Repr

end Sys2Proof
end

