-- ==== Sys2Proof/Decode.lean ====
section
/-! DEFINITION. Decoding (spec/02 R28 to R46): the base formats, the extended form and the literal, the minor
maps, every encoding that raises ILLEGAL (R44), and the encoder written from the same tables. The decoder is
total and rejects by name. -/

namespace Sys2Proof

/-! ## Words and formats -/

/-- Why bytes are not an instruction (R44, R29). -/
inductive DecodeError where
  /-- Fewer words than LEN asks for. -/
  | truncated
  /-- MAJOR 0x20 to 0x3F (R43). -/
  | reservedMajor (major : Nat)
  /-- A minor code that the major's map does not assign, a form the major does not have, or a reserved bit of
  E1 (R38, R42, R43). -/
  | unassigned (major : Nat)
  /-- The minor code is assigned, but a field breaks the instruction's entry (R34 to R44). -/
  | illegalField (i : Instr)
  deriving DecidableEq, Repr

/-- The fields of an instruction by base format; `fn` is FN, FN4 or OP6 as a number. -/
inductive Payload where
  | r (major fn : Nat) (f : RForm)
  | i (major fn : Nat) (x : IForm)
  | m (major : Nat) (x : MForm)
  | b (x : BForm)
  | j (x : JForm)
  | v (major fn : Nat) (x : VForm)
  | a (op : Nat) (x : AForm)
  | own (major fn : Nat) (f : XForm)
  deriving DecidableEq, Repr

/-- Words of an instruction by LEN (R29, Table 2.1). -/
def lenWords (len : BitVec 2) : Nat :=
  match len.toNat with
  | 0 => 1
  | 1 => 3
  | 2 => 3
  | _ => 5

/-- E1 of Table 2.10 as a word. -/
def E1.pack (x : E1) : IWord := 0#18 ++ x.sat ++ x.rm ++ x.pn ++ x.z ++ x.pred ++ x.c

/-- E1 of Table 2.10 from a word; `none` when a reserved bit is set (R38). -/
def E1.unpack (w : IWord) : Option E1 :=
  if w.extractLsb' 14 18 = 0#18 then
    some { sat := w.extractLsb' 13 1, rm := w.extractLsb' 10 3, pn := w.extractLsb' 9 1, z := w.extractLsb' 8 1,
           pred := w.extractLsb' 5 3, c := w.extractLsb' 0 5 }
  else none

/-- The LEN field of a form. -/
def Form.len : Form → BitVec 2
  | .base => 0
  | .lit _ => 1
  | .ext _ _ => 2
  | .extLit _ _ _ => 3

/-- The low and the high word of a literal, low word first (R28). -/
def litWords (l : Word) : List IWord := [l.extractLsb' 0 32, l.extractLsb' 32 32]

/-- The words after word 0. -/
def Form.tail : Form → List IWord
  | .base => []
  | .lit l => litWords l
  | .ext x e2 => [x.pack, e2]
  | .extLit x e2 l => x.pack :: e2 :: litWords l

/-- The form from LEN and the words after word 0. -/
def Form.ofWords (len : BitVec 2) (ws : List IWord) : Option Form :=
  match len.toNat, ws with
  | 0, _ => some .base
  | 1, lo :: hi :: _ => some (.lit (hi ++ lo))
  | 2, e1 :: e2 :: _ => (E1.unpack e1).map fun x => .ext x e2
  | 3, e1 :: e2 :: lo :: hi :: _ => (E1.unpack e1).map fun x => .extLit x e2 (hi ++ lo)
  | _, _ => none

/-- MAJOR and LEN below the fields of a format: word 0 (R33). -/
def word0 (fields : BitVec 24) (major : Nat) (len : BitVec 2) : IWord :=
  fields ++ BitVec.ofNat 6 major ++ len

/-- Encode the fields: word 0 and the words after it (Tables 2.2 to 2.7, 9.4). -/
def Payload.encode : Payload → List IWord
  | .r mj fn x => word0 (x.mod ++ BitVec.ofNat 5 fn ++ x.b ++ x.a ++ x.d) mj x.form.len :: x.form.tail
  | .i mj fn x => word0 (x.imm ++ BitVec.ofNat 4 fn ++ x.a ++ x.d) mj x.form.len :: x.form.tail
  | .m mj x => word0 (x.off ++ x.scope ++ x.ord ++ x.sz ++ x.a ++ x.d) mj x.form.len :: x.form.tail
  | .b x => word0 (x.disp ++ x.cond ++ x.a ++ x.b) 6 x.form.len :: x.form.tail
  | .j x => word0 x.disp 7 x.form.len :: x.form.tail
  | .v mj fn x => word0 (x.ty ++ BitVec.ofNat 4 fn ++ x.pg ++ x.b ++ x.a ++ x.d) mj x.form.len :: x.form.tail
  | .a op x =>
    [word0 (BitVec.ofNat 6 op ++ x.scope ++ x.ord ++ x.sz ++ x.a ++ x.d) 13 2, 0#19 ++ x.n ++ 0#3 ++ x.c, x.e2]
  | .own mj fn x => [word0 (x.mod ++ BitVec.ofNat 5 fn ++ x.b ++ x.a ++ x.d) mj 2, x.e1, x.e2]

/-- The base format of a MAJOR (Table 2.8), as a letter; X and A are the majors with their own E1. -/
inductive MajorFormat where
  | r | i | m | b | j | v | a | x | ctx | reserved
  deriving DecidableEq, Repr

/-- Table 2.8. -/
def majorFormat (major : Nat) : MajorFormat :=
  if major = 2 then .i
  else if major ≤ 5 then .r
  else if major = 6 then .b
  else if major = 7 then .j
  else if major = 8 then .r
  else if major = 9 then .ctx
  else if major ≤ 12 then .m
  else if major = 13 then .a
  else if major ≤ 16 then .m
  else if major ≤ 26 then .v
  else if major ≤ 31 then .x
  else .reserved

/-- Word 0 in format R. -/
def unpackR (w : IWord) (f : Form) : RForm :=
  { mod := w.extractLsb' 28 4, b := w.extractLsb' 18 5, a := w.extractLsb' 13 5, d := w.extractLsb' 8 5, form := f }

/-- Word 0 in format R with its own E1 and E2. -/
def unpackX (w e1 e2 : IWord) : XForm :=
  { mod := w.extractLsb' 28 4, b := w.extractLsb' 18 5, a := w.extractLsb' 13 5, d := w.extractLsb' 8 5,
    e1 := e1, e2 := e2 }

/-- Word 0 in format M. -/
def unpackM (w : IWord) (f : Form) : MForm :=
  { off := w.extractLsb' 26 6, scope := w.extractLsb' 23 3, ord := w.extractLsb' 21 2, sz := w.extractLsb' 18 3,
    a := w.extractLsb' 13 5, d := w.extractLsb' 8 5, form := f }

/-- FN of word 0 in format R. -/
def fnR (w : IWord) : Nat := (w.extractLsb' 23 5).toNat

/-- Read the fields of an instruction from word 0 and the words after it; `none` where the major has no such
form (R42, R43) or a reserved bit of E1 is set. -/
def Payload.decode (w : IWord) (tail : List IWord) : Option Payload :=
  let major := (w.extractLsb' 2 6).toNat
  let len : BitVec 2 := w.extractLsb' 0 2
  let form := Form.ofWords len tail
  let own : Option Payload :=
    match len.toNat, tail with
    | 2, e1 :: e2 :: _ => some (.own major (fnR w) (unpackX w e1 e2))
    | _, _ => none
  match majorFormat major with
  | .r => form.map fun f => .r major (fnR w) (unpackR w f)
  | .i => form.map fun f =>
      .i major (w.extractLsb' 18 4).toNat
        { imm := w.extractLsb' 22 10, a := w.extractLsb' 13 5, d := w.extractLsb' 8 5, form := f }
  | .m => form.map fun f => .m major (unpackM w f)
  | .b => form.map fun f =>
      .b { disp := w.extractLsb' 22 10, cond := w.extractLsb' 18 4, a := w.extractLsb' 13 5, b := w.extractLsb' 8 5,
           form := f }
  | .j => form.map fun f => .j { disp := w.extractLsb' 8 24, form := f }
  | .v => form.map fun f =>
      .v major (w.extractLsb' 25 4).toNat
        { ty := w.extractLsb' 29 3, pg := w.extractLsb' 23 2, b := w.extractLsb' 18 5, a := w.extractLsb' 13 5,
          d := w.extractLsb' 8 5, form := f }
  | .a =>
    match len.toNat, tail with
    | 2, e1 :: e2 :: _ =>
      if e1.extractLsb' 13 19 = 0#19 ∧ e1.extractLsb' 5 3 = 0#3 then
        some (.a (w.extractLsb' 26 6).toNat
          { scope := w.extractLsb' 23 3, ord := w.extractLsb' 21 2, sz := w.extractLsb' 18 3,
            a := w.extractLsb' 13 5, d := w.extractLsb' 8 5, n := e1.extractLsb' 8 5, c := e1.extractLsb' 0 5,
            e2 := e2 })
      else none
    | _, _ => none
  | .x => own
  | .ctx =>
    if fnR w = 0 ∨ fnR w = 5 then own
    else form.map fun f => .r major (fnR w) (unpackR w f)
  | .reserved => none

/-- Format R with every field 0: the instructions without operands. -/
def bareR (f : Form) : RForm := { mod := 0, b := 0, a := 0, d := 0, form := f }

/-- The extended form with E1 and E2 all 0. -/
def bareExt : Form := .ext { sat := 0, rm := 0, pn := 0, z := 0, pred := 0, c := 0 } 0

/-- FENCESC's fields: FOP 00010, ORD 11, the scope; the rest 0 (R223, Table 9.7). -/
def fencescM (scope : BitVec 3) (f : Form) : MForm :=
  { off := 0, scope := scope, ord := 3, sz := 0, a := 0, d := 2, form := f }

/-- TASKEND's fields, all 0 (Table 13.4). -/
def bareX : XForm := { mod := 0, b := 0, a := 0, d := 0, e1 := 0, e2 := 0 }

/-! ## Minor maps -/

/-- The format, MAJOR, minor code and fields of an instruction; `none` for the events and commands, which
have no encoding (the rows of the table with no word). -/
def Instr.payload : Instr → Option Payload
  | .nop => some (.r 0 1 (bareR .base))
  | .nopX => some (.r 0 1 (bareR bareExt))
  | .trap x => some (.r 0 2 x)
  | .eret => some (.r 0 3 (bareR .base))
  | .eretX => some (.r 0 3 (bareR bareExt))
  | .mfs x => some (.r 0 4 x)
  | .mts x => some (.r 0 5 x)
  | .time x => some (.r 0 6 x)
  | .cycle x => some (.r 0 7 x)
  | .beat => some (.r 0 8 (bareR .base))
  | .beatX => some (.r 0 8 (bareR bareExt))
  | .add x => some (.r 1 0 x)
  | .sub x => some (.r 1 1 x)
  | .and x => some (.r 1 2 x)
  | .or x => some (.r 1 3 x)
  | .xor x => some (.r 1 4 x)
  | .andn x => some (.r 1 5 x)
  | .orn x => some (.r 1 6 x)
  | .sll x => some (.r 1 7 x)
  | .srl x => some (.r 1 8 x)
  | .sra x => some (.r 1 9 x)
  | .rol x => some (.r 1 10 x)
  | .ror x => some (.r 1 11 x)
  | .min x => some (.r 1 12 x)
  | .max x => some (.r 1 13 x)
  | .minn x => some (.r 1 14 x)
  | .maxn x => some (.r 1 15 x)
  | .slt x => some (.r 1 16 x)
  | .sltn x => some (.r 1 17 x)
  | .seq x => some (.r 1 18 x)
  | .sne x => some (.r 1 19 x)
  | .csel x => some (.r 1 20 x)
  | .addi x => some (.i 2 0 x)
  | .andi x => some (.i 2 1 x)
  | .ori x => some (.i 2 2 x)
  | .xori x => some (.i 2 3 x)
  | .slli x => some (.i 2 4 x)
  | .srli x => some (.i 2 5 x)
  | .srai x => some (.i 2 6 x)
  | .rori x => some (.i 2 7 x)
  | .slti x => some (.i 2 8 x)
  | .sltni x => some (.i 2 9 x)
  | .seqi x => some (.i 2 10 x)
  | .li x => some (.i 2 11 x)
  | .mul x => some (.r 3 0 x)
  | .mulh x => some (.r 3 1 x)
  | .mulhn x => some (.r 3 2 x)
  | .madd x => some (.r 3 3 x)
  | .div x => some (.r 3 4 x)
  | .divn x => some (.r 3 5 x)
  | .rem x => some (.r 3 6 x)
  | .remn x => some (.r 3 7 x)
  | .clz x => some (.r 4 0 x)
  | .ctz x => some (.r 4 1 x)
  | .popc x => some (.r 4 2 x)
  | .brev x => some (.r 4 3 x)
  | .bswap x => some (.r 4 4 x)
  | .bfx x => some (.r 4 5 x)
  | .bfxn x => some (.r 4 6 x)
  | .bfi x => some (.r 4 7 x)
  | .sext x => some (.r 4 8 x)
  | .zext x => some (.r 4 9 x)
  | .lea x => some (.r 5 0 x)
  | .gaddr x => some (.r 5 1 x)
  | .caddr x => some (.r 5 2 x)
  | .crel x => some (.r 5 3 x)
  | .bcc x => some (.b x)
  | .bp x => some (.b x)
  | .call x => some (.b x)
  | .j x => some (.j x)
  | .ji x => some (.r 8 0 x)
  | .calli x => some (.r 8 1 x)
  | .ret => some (.r 8 2 (bareR .base))
  | .retX => some (.r 8 2 (bareR bareExt))
  | .start x => some (.own 9 0 x)
  | .retire => some (.r 9 1 (bareR .base))
  | .retireX => some (.r 9 1 (bareR bareExt))
  | .endK => some (.r 9 2 (bareR .base))
  | .endX => some (.r 9 2 (bareR bareExt))
  | .yieldK => some (.r 9 3 (bareR .base))
  | .yieldX => some (.r 9 3 (bareR bareExt))
  | .myid x => some (.r 9 4 x)
  | .wait x => some (.own 9 5 x)
  | .ld x => some (.m 10 x)
  | .ldp x => some (.m 10 x)
  | .st x => some (.m 11 x)
  | .stp x => some (.m 11 x)
  | .lds x => some (.m 12 x)
  | .chkld x => some (.m 12 x)
  | .amoSwap x => some (.a 0 x)
  | .amoAdd x => some (.a 1 x)
  | .amoAnd x => some (.a 2 x)
  | .amoOr x => some (.a 3 x)
  | .amoXor x => some (.a 4 x)
  | .amoMin x => some (.a 5 x)
  | .amoMax x => some (.a 6 x)
  | .amoMinn x => some (.a 7 x)
  | .amoMaxn x => some (.a 8 x)
  | .cas x => some (.a 9 x)
  | .amofAdd x => some (.a 16 x)
  | .amofMin x => some (.a 17 x)
  | .amofMax x => some (.a 18 x)
  | .amo2Swap x => some (.a 32 x)
  | .amo2Add x => some (.a 33 x)
  | .amo2And x => some (.a 34 x)
  | .amo2Or x => some (.a 35 x)
  | .amo2Xor x => some (.a 36 x)
  | .cas2 x => some (.a 41 x)
  | .fence x => some (.m 14 x)
  | .fencesc => some (.m 14 (fencescM 3 .base))
  | .fencescX => some (.m 14 (fencescM 3 bareExt))
  | .fencescSys => some (.m 14 (fencescM 4 .base))
  | .fencescSysX => some (.m 14 (fencescM 4 bareExt))
  | .pref x => some (.m 14 x)
  | .prefW x => some (.m 14 x)
  | .cclean x => some (.m 14 x)
  | .cflush x => some (.m 14 x)
  | .cinv x => some (.m 14 x)
  | .vld x => some (.m 15 x)
  | .vst x => some (.m 16 x)
  | .vlds x => some (.v 17 0 x)
  | .vsts x => some (.v 17 1 x)
  | .vldx x => some (.v 17 2 x)
  | .vstx x => some (.v 17 3 x)
  | .vldb x => some (.v 17 4 x)
  | .vldbWeak x => some (.v 17 5 x)
  | .vadd x => some (.v 18 0 x)
  | .vsub x => some (.v 18 1 x)
  | .vmul x => some (.v 18 2 x)
  | .vmulh x => some (.v 18 3 x)
  | .vmadd x => some (.v 18 4 x)
  | .vand x => some (.v 18 5 x)
  | .vor x => some (.v 18 6 x)
  | .vxor x => some (.v 18 7 x)
  | .vsll x => some (.v 18 8 x)
  | .vsrl x => some (.v 18 9 x)
  | .vsra x => some (.v 18 10 x)
  | .vmin x => some (.v 18 11 x)
  | .vmax x => some (.v 18 12 x)
  | .vabs x => some (.v 18 13 x)
  | .vcmp x => some (.v 18 14 x)
  | .vsel x => some (.v 18 15 x)
  | .vaddi x => some (.v 19 0 x)
  | .vsubi x => some (.v 19 1 x)
  | .vmuli x => some (.v 19 2 x)
  | .vandi x => some (.v 19 5 x)
  | .vori x => some (.v 19 6 x)
  | .vxori x => some (.v 19 7 x)
  | .vslli x => some (.v 19 8 x)
  | .vsrli x => some (.v 19 9 x)
  | .vsrai x => some (.v 19 10 x)
  | .vmini x => some (.v 19 11 x)
  | .vmaxi x => some (.v 19 12 x)
  | .vcmpi x => some (.v 19 14 x)
  | .vbcast x => some (.v 20 0 x)
  | .vins x => some (.v 20 1 x)
  | .vext x => some (.v 20 2 x)
  | .vperm x => some (.v 20 3 x)
  | .vslide x => some (.v 20 4 x)
  | .vred x => some (.v 20 5 x)
  | .vscan x => some (.v 20 6 x)
  | .viota x => some (.v 20 7 x)
  | .vcmprs x => some (.v 20 8 x)
  | .vexpnd x => some (.v 20 9 x)
  | .plog x => some (.v 21 0 x)
  | .ppopc x => some (.v 21 1 x)
  | .pfirst x => some (.v 21 2 x)
  | .pset x => some (.v 21 3 x)
  | .fpsFadd x => some (.v 22 0 x)
  | .fpsFsub x => some (.v 22 1 x)
  | .fpsFmul x => some (.v 22 2 x)
  | .fpsFdiv x => some (.v 22 3 x)
  | .fpsFsqrt x => some (.v 22 4 x)
  | .fpsFmin x => some (.v 22 5 x)
  | .fpsFmax x => some (.v 22 6 x)
  | .fpsFminm x => some (.v 22 7 x)
  | .fpsFmaxm x => some (.v 22 8 x)
  | .fpsFabs x => some (.v 22 9 x)
  | .fpsFneg x => some (.v 22 10 x)
  | .fpsFsgnj x => some (.v 22 11 x)
  | .fpsFcmp x => some (.v 22 12 x)
  | .fpsFclass x => some (.v 22 13 x)
  | .fpsFrnd x => some (.v 22 14 x)
  | .fpvFadd x => some (.v 23 0 x)
  | .fpvFsub x => some (.v 23 1 x)
  | .fpvFmul x => some (.v 23 2 x)
  | .fpvFdiv x => some (.v 23 3 x)
  | .fpvFsqrt x => some (.v 23 4 x)
  | .fpvFmin x => some (.v 23 5 x)
  | .fpvFmax x => some (.v 23 6 x)
  | .fpvFminm x => some (.v 23 7 x)
  | .fpvFmaxm x => some (.v 23 8 x)
  | .fpvFabs x => some (.v 23 9 x)
  | .fpvFneg x => some (.v 23 10 x)
  | .fpvFsgnj x => some (.v 23 11 x)
  | .fpvFcmp x => some (.v 23 12 x)
  | .fpvFclass x => some (.v 23 13 x)
  | .fpvFrnd x => some (.v 23 14 x)
  | .ffmaVector x => some (.v 24 0 x)
  | .ffmsVector x => some (.v 24 1 x)
  | .fnfmaVector x => some (.v 24 2 x)
  | .fnfmsVector x => some (.v 24 3 x)
  | .fdot2 x => some (.v 24 4 x)
  | .freds x => some (.v 24 5 x)
  | .ffmaScalar x => some (.v 24 8 x)
  | .ffmsScalar x => some (.v 24 9 x)
  | .fnfmaScalar x => some (.v 24 10 x)
  | .fnfmsScalar x => some (.v 24 11 x)
  | .fcvtVector x => some (.v 25 0 x)
  | .fcvtScalar x => some (.v 25 1 x)
  | .qdeq x => some (.v 25 2 x)
  | .qquant x => some (.v 25 3 x)
  | .scvt x => some (.v 25 4 x)
  | .ilvp x => some (.v 25 5 x)
  | .ilvu x => some (.v 25 6 x)
  | .fexp2 scalar x => some (.v 26 (if scalar then 8 else 0) x)
  | .fexp scalar x => some (.v 26 (if scalar then 9 else 1) x)
  | .flog2 scalar x => some (.v 26 (if scalar then 10 else 2) x)
  | .fsin scalar x => some (.v 26 (if scalar then 11 else 3) x)
  | .fcos scalar x => some (.v 26 (if scalar then 12 else 4) x)
  | .ftanh scalar x => some (.v 26 (if scalar then 13 else 5) x)
  | .frsq scalar x => some (.v 26 (if scalar then 14 else 6) x)
  | .frcp scalar x => some (.v 26 (if scalar then 15 else 7) x)
  | .talloc x => some (.own 27 0 x)
  | .tfree x => some (.own 27 1 x)
  | .tzero x => some (.own 27 2 x)
  | .tload x => some (.own 27 3 x)
  | .tmma x => some (.own 27 4 x)
  | .tmmaq x => some (.own 27 5 x)
  | .tqdesc x => some (.own 27 6 x)
  | .tdrain x => some (.own 27 7 x)
  | .tstore x => some (.own 27 8 x)
  | .tstat x => some (.own 27 9 x)
  | .copy x => some (.own 28 0 x)
  | .cseal x => some (.own 28 1 x)
  | .cwait x => some (.own 28 2 x)
  | .winset x => some (.own 28 3 x)
  | .winadv x => some (.own 28 4 x)
  | .winflush x => some (.own 28 5 x)
  | .tlget x => some (.own 28 6 x)
  | .bgset x => some (.own 29 0 x)
  | .barr x => some (.own 29 1 x)
  | .bwait x => some (.own 29 2 x)
  | .phase x => some (.own 29 3 x)
  | .xmit x => some (.own 29 4 x)
  | .isel x => some (.own 29 5 x)
  | .xrecv x => some (.own 29 6 x)
  | .spawn x => some (.own 30 0 x)
  | .spawnat x => some (.own 30 1 x)
  | .taskget x => some (.own 30 2 x)
  | .taskend => some (.own 30 3 bareX)
  | .rgres x => some (.own 30 4 x)
  | .rgpub x => some (.own 30 5 x)
  | .rgtake x => some (.own 30 6 x)
  | .rgdone x => some (.own 30 7 x)
  | .send x => some (.own 31 0 x)
  | .recv x => some (.own 31 1 x)
  | .rank x => some (.own 31 2 x)
  | .rankN x => some (.own 31 2 x)
  | .rankOf x => some (.own 31 2 x)
  | .coll x => some (.own 31 3 x)
  | .grpjoin x => some (.own 31 4 x)
  | .grpfree x => some (.own 31 5 x)
  | _ => none

/-- MAJOR and FN of format R (Tables 4.2, 4.4 to 4.6, 4.11 and 8.2, R102). -/
def rTable : Nat → Nat → Option (RForm → Instr)
  | 0, 2 => some .trap
  | 0, 4 => some .mfs
  | 0, 5 => some .mts
  | 0, 6 => some .time
  | 0, 7 => some .cycle
  | 1, 0 => some .add
  | 1, 1 => some .sub
  | 1, 2 => some .and
  | 1, 3 => some .or
  | 1, 4 => some .xor
  | 1, 5 => some .andn
  | 1, 6 => some .orn
  | 1, 7 => some .sll
  | 1, 8 => some .srl
  | 1, 9 => some .sra
  | 1, 10 => some .rol
  | 1, 11 => some .ror
  | 1, 12 => some .min
  | 1, 13 => some .max
  | 1, 14 => some .minn
  | 1, 15 => some .maxn
  | 1, 16 => some .slt
  | 1, 17 => some .sltn
  | 1, 18 => some .seq
  | 1, 19 => some .sne
  | 1, 20 => some .csel
  | 3, 0 => some .mul
  | 3, 1 => some .mulh
  | 3, 2 => some .mulhn
  | 3, 3 => some .madd
  | 3, 4 => some .div
  | 3, 5 => some .divn
  | 3, 6 => some .rem
  | 3, 7 => some .remn
  | 4, 0 => some .clz
  | 4, 1 => some .ctz
  | 4, 2 => some .popc
  | 4, 3 => some .brev
  | 4, 4 => some .bswap
  | 4, 5 => some .bfx
  | 4, 6 => some .bfxn
  | 4, 7 => some .bfi
  | 4, 8 => some .sext
  | 4, 9 => some .zext
  | 5, 0 => some .lea
  | 5, 1 => some .gaddr
  | 5, 2 => some .caddr
  | 5, 3 => some .crel
  | 8, 0 => some .ji
  | 8, 1 => some .calli
  | 9, 4 => some .myid
  | _, _ => none

/-- FN4 of the ALUI major (Table 4.3). -/
def iTable : Nat → Option (IForm → Instr)
  | 0 => some .addi
  | 1 => some .andi
  | 2 => some .ori
  | 3 => some .xori
  | 4 => some .slli
  | 5 => some .srli
  | 6 => some .srai
  | 7 => some .rori
  | 8 => some .slti
  | 9 => some .sltni
  | 10 => some .seqi
  | 11 => some .li
  | _ => none

/-- OP6 of the AMO major (Table 9.5). -/
def aTable : Nat → Option (AForm → Instr)
  | 0 => some .amoSwap
  | 1 => some .amoAdd
  | 2 => some .amoAnd
  | 3 => some .amoOr
  | 4 => some .amoXor
  | 5 => some .amoMin
  | 6 => some .amoMax
  | 7 => some .amoMinn
  | 8 => some .amoMaxn
  | 9 => some .cas
  | 16 => some .amofAdd
  | 17 => some .amofMin
  | 18 => some .amofMax
  | 32 => some .amo2Swap
  | 33 => some .amo2Add
  | 34 => some .amo2And
  | 35 => some .amo2Or
  | 36 => some .amo2Xor
  | 41 => some .cas2
  | _ => none

/-- MAJOR and FN4 of format V (Tables 9.3, 5.2 to 5.7). -/
def vTable : Nat → Nat → Option (VForm → Instr)
  | 17, 0 => some .vlds
  | 17, 1 => some .vsts
  | 17, 2 => some .vldx
  | 17, 3 => some .vstx
  | 17, 4 => some .vldb
  | 17, 5 => some .vldbWeak
  | 18, 0 => some .vadd
  | 18, 1 => some .vsub
  | 18, 2 => some .vmul
  | 18, 3 => some .vmulh
  | 18, 4 => some .vmadd
  | 18, 5 => some .vand
  | 18, 6 => some .vor
  | 18, 7 => some .vxor
  | 18, 8 => some .vsll
  | 18, 9 => some .vsrl
  | 18, 10 => some .vsra
  | 18, 11 => some .vmin
  | 18, 12 => some .vmax
  | 18, 13 => some .vabs
  | 18, 14 => some .vcmp
  | 18, 15 => some .vsel
  | 19, 0 => some .vaddi
  | 19, 1 => some .vsubi
  | 19, 2 => some .vmuli
  | 19, 5 => some .vandi
  | 19, 6 => some .vori
  | 19, 7 => some .vxori
  | 19, 8 => some .vslli
  | 19, 9 => some .vsrli
  | 19, 10 => some .vsrai
  | 19, 11 => some .vmini
  | 19, 12 => some .vmaxi
  | 19, 14 => some .vcmpi
  | 20, 0 => some .vbcast
  | 20, 1 => some .vins
  | 20, 2 => some .vext
  | 20, 3 => some .vperm
  | 20, 4 => some .vslide
  | 20, 5 => some .vred
  | 20, 6 => some .vscan
  | 20, 7 => some .viota
  | 20, 8 => some .vcmprs
  | 20, 9 => some .vexpnd
  | 21, 0 => some .plog
  | 21, 1 => some .ppopc
  | 21, 2 => some .pfirst
  | 21, 3 => some .pset
  | 22, 0 => some .fpsFadd
  | 22, 1 => some .fpsFsub
  | 22, 2 => some .fpsFmul
  | 22, 3 => some .fpsFdiv
  | 22, 4 => some .fpsFsqrt
  | 22, 5 => some .fpsFmin
  | 22, 6 => some .fpsFmax
  | 22, 7 => some .fpsFminm
  | 22, 8 => some .fpsFmaxm
  | 22, 9 => some .fpsFabs
  | 22, 10 => some .fpsFneg
  | 22, 11 => some .fpsFsgnj
  | 22, 12 => some .fpsFcmp
  | 22, 13 => some .fpsFclass
  | 22, 14 => some .fpsFrnd
  | 23, 0 => some .fpvFadd
  | 23, 1 => some .fpvFsub
  | 23, 2 => some .fpvFmul
  | 23, 3 => some .fpvFdiv
  | 23, 4 => some .fpvFsqrt
  | 23, 5 => some .fpvFmin
  | 23, 6 => some .fpvFmax
  | 23, 7 => some .fpvFminm
  | 23, 8 => some .fpvFmaxm
  | 23, 9 => some .fpvFabs
  | 23, 10 => some .fpvFneg
  | 23, 11 => some .fpvFsgnj
  | 23, 12 => some .fpvFcmp
  | 23, 13 => some .fpvFclass
  | 23, 14 => some .fpvFrnd
  | 24, 0 => some .ffmaVector
  | 24, 1 => some .ffmsVector
  | 24, 2 => some .fnfmaVector
  | 24, 3 => some .fnfmsVector
  | 24, 4 => some .fdot2
  | 24, 5 => some .freds
  | 24, 8 => some .ffmaScalar
  | 24, 9 => some .ffmsScalar
  | 24, 10 => some .fnfmaScalar
  | 24, 11 => some .fnfmsScalar
  | 25, 0 => some .fcvtVector
  | 25, 1 => some .fcvtScalar
  | 25, 2 => some .qdeq
  | 25, 3 => some .qquant
  | 25, 4 => some .scvt
  | 25, 5 => some .ilvp
  | 25, 6 => some .ilvu
  | 26, 0 => some (.fexp2 false)
  | 26, 1 => some (.fexp false)
  | 26, 2 => some (.flog2 false)
  | 26, 3 => some (.fsin false)
  | 26, 4 => some (.fcos false)
  | 26, 5 => some (.ftanh false)
  | 26, 6 => some (.frsq false)
  | 26, 7 => some (.frcp false)
  | 26, 8 => some (.fexp2 true)
  | 26, 9 => some (.fexp true)
  | 26, 10 => some (.flog2 true)
  | 26, 11 => some (.fsin true)
  | 26, 12 => some (.fcos true)
  | 26, 13 => some (.ftanh true)
  | 26, 14 => some (.frsq true)
  | 26, 15 => some (.frcp true)
  | _, _ => none

/-- MAJOR and FN of the forms with their own E1 (Tables 8.2, 7.2, 11.4, 12.5 and 13.4); RANK is told apart by MOD below. -/
def xTable : Nat → Nat → Option (XForm → Instr)
  | 9, 0 => some .start
  | 9, 5 => some .wait
  | 27, 0 => some .talloc
  | 27, 1 => some .tfree
  | 27, 2 => some .tzero
  | 27, 3 => some .tload
  | 27, 4 => some .tmma
  | 27, 5 => some .tmmaq
  | 27, 6 => some .tqdesc
  | 27, 7 => some .tdrain
  | 27, 8 => some .tstore
  | 27, 9 => some .tstat
  | 28, 0 => some .copy
  | 28, 1 => some .cseal
  | 28, 2 => some .cwait
  | 28, 3 => some .winset
  | 28, 4 => some .winadv
  | 28, 5 => some .winflush
  | 28, 6 => some .tlget
  | 29, 0 => some .bgset
  | 29, 1 => some .barr
  | 29, 2 => some .bwait
  | 29, 3 => some .phase
  | 29, 4 => some .xmit
  | 29, 5 => some .isel
  | 29, 6 => some .xrecv
  | 30, 0 => some .spawn
  | 30, 1 => some .spawnat
  | 30, 2 => some .taskget
  | 30, 4 => some .rgres
  | 30, 5 => some .rgpub
  | 30, 6 => some .rgtake
  | 30, 7 => some .rgdone
  | 31, 0 => some .send
  | 31, 1 => some .recv
  | 31, 3 => some .coll
  | 31, 4 => some .grpjoin
  | 31, 5 => some .grpfree
  | _, _ => none

/-- The instructions without operands: base form and extended form, whose other fields are all 0. -/
def bareTable : Nat → Nat → Option (Instr × Instr)
  | 0, 1 => some (.nop, .nopX)
  | 0, 3 => some (.eret, .eretX)
  | 0, 8 => some (.beat, .beatX)
  | 8, 2 => some (.ret, .retX)
  | 9, 1 => some (.retire, .retireX)
  | 9, 2 => some (.endK, .endX)
  | 9, 3 => some (.yieldK, .yieldX)
  | _, _ => none

/-- FOP of the FENCE and cache major (Table 9.7). -/
def fTable : Nat → Option (MForm → Instr)
  | 1 => some .fence
  | 3 => some .pref
  | 4 => some .prefW
  | 5 => some .cclean
  | 6 => some .cflush
  | 7 => some .cinv
  | _ => none

/-- LD, ST and LDSPEC are told apart by SZ (Table 9.1, R106); VLD and VST have one form each. -/
def mTable (major : Nat) (x : MForm) : Option (MForm → Instr) :=
  match major with
  | 10 => if x.sz = 4 then some .ldp else some .ld
  | 11 => if x.sz = 4 then some .stp else some .st
  | 12 => if x.sz = 4 then some .chkld else some .lds
  | 14 => fTable x.d.toNat
  | 15 => some .vld
  | 16 => some .vst
  | _ => none

/-- COND of the BR major (Table 4.9). -/
def bTable (cond : BitVec 4) : Option (BForm → Instr) :=
  match cond.toNat with
  | 0 | 1 | 2 | 3 | 4 | 5 => some .bcc
  | 8 | 9 | 10 | 11 => some .bp
  | 14 => some .call
  | _ => none

/-- MOD of RANK (Table 13.4): RANK, RANK.n and RANK.of. -/
def rankTable (mod : BitVec 4) : Option (XForm → Instr) :=
  match mod.toNat with
  | 0 => some .rank
  | 1 => some .rankN
  | 2 => some .rankOf
  | _ => none

/-- The instruction that the fields name, by the minor maps; `none` for a code that no map assigns (R43). -/
def Payload.instr : Payload → Option Instr
  | .r mj fn x =>
    match bareTable mj fn with
    | some (short, long) => if x = bareR .base then some short else if x = bareR bareExt then some long else none
    | none => (rTable mj fn).map (· x)
  | .i _ fn x => (iTable fn).map (· x)
  | .m mj x =>
    if mj = 14 ∧ x.d = 2 then
      if x = fencescM 3 .base then some .fencesc
      else if x = fencescM 3 bareExt then some .fencescX
      else if x = fencescM 4 .base then some .fencescSys
      else if x = fencescM 4 bareExt then some .fencescSysX
      else none
    else (mTable mj x).map (· x)
  | .b x => (bTable x.cond).map (· x)
  | .j x => some (.j x)
  | .v mj fn x => (vTable mj fn).map (· x)
  | .a op x => (aTable op).map (· x)
  | .own mj fn x => 
    if mj = 31 ∧ fn = 2 then (rankTable x.mod).map (· x)
    else if mj = 30 ∧ fn = 3 then (if x = bareX then some .taskend else none)
    else (xTable mj fn).map (· x)

/-! ## The ILLEGAL table (R44) -/

/-- What the E1, E2 and literal of an instruction's entry accept (R38 to R42). -/
structure Accepts where
  lit : Bool := false
  extOnly : Bool := false
  pred : Bool := true
  z : Bool := true
  rm : Bool := false
  sat : Bool := false
  c : Bool := false
  e2 : IWord → Bool := fun e => e == 0
  e2Lit : IWord → Bool := fun e => e == 0

/-- The "must be zero when" column of Table 2.10, and RM = 111. -/
def E1.accepted (k : Accepts) (x : E1) : Bool :=
  (k.sat || x.sat == 0) && (if k.rm then x.rm != 7 else x.rm == 0) && (k.c || x.c == 0) &&
  (x.pn == 0 || x.pred != 0) && (x.z == 0 || (k.z && x.pred != 0)) && (k.pred || x.pred == 0)

/-- A form under an entry (R38, R40, R42, R43). -/
def Form.accepted (k : Accepts) : Form → Bool
  | .base => !k.extOnly
  | .lit _ => k.lit && !k.extOnly
  | .ext x e2 => x.accepted k && k.e2 e2
  | .extLit x e2 _ => k.lit && x.accepted k && k.e2Lit e2

/-- The literal of a form. -/
def Form.literal? : Form → Option Word
  | .lit l => some l
  | .extLit _ _ l => some l
  | _ => none

/-- E1 of a form. -/
def Form.e1? : Form → Option E1
  | .ext x _ => some x
  | .extLit x _ _ => some x
  | _ => none

/-- E2 of a form, 0 where there is none. -/
def Form.e2 : Form → IWord
  | .ext _ e => e
  | .extLit _ e _ => e
  | _ => 0

/-- Extended form: LEN 10 or 11. -/
def Form.isExt (f : Form) : Bool := f.e1?.isSome

/-- Register fields that are not used must be 0 (R34); `true` in the arguments means used. -/
def RForm.fieldsOk (mods : List Nat) (b a d : Bool) (x : RForm) : Bool :=
  mods.contains x.mod.toNat && (b || x.b == 0) && (a || x.a == 0) && (d || x.d == 0) &&
  (x.form.literal?.isNone || x.b == 0)

/-- An ALU entry: two sources and a destination, a literal for B (R85). -/
def RForm.aluOk (mods : List Nat) (k : Accepts) (x : RForm) : Bool :=
  x.fieldsOk mods true true true && x.form.accepted { k with lit := true }

/-- A BIT entry without B (R91). -/
def RForm.bitOk (mods : List Nat) (x : RForm) : Bool :=
  x.fieldsOk mods false true true && x.form.accepted {}

/-- E1 of the majors that take no predicate: SYS, CTX, BR, JMP, JIND (Table 2.10), FENCE and cache (R223),
unmasked vector forms (R119). -/
def noPred : Accepts := { pred := false, z := false }

/-- Widths of Table 4.1. -/
def allW : List Nat := [0, 1, 2, 3]
/-- Signed widths. -/
def signedW : List Nat := [0, 2]
/-- Unsigned widths. -/
def unsignedW : List Nat := [1, 3]

/-- The immediate of format I: IMM10, E2 or the literal (R35, R40, R42). -/
def IForm.value (x : IForm) : Word :=
  match x.form with
  | .base => x.imm.signExtend 64
  | .ext _ e2 => e2.signExtend 64
  | .lit l => l
  | .extLit _ _ l => l

/-- An ALUI entry (R87). -/
def IForm.ok (k : Accepts) (x : IForm) : Bool :=
  (x.form == .base || x.imm == 0) && x.form.accepted { k with lit := true, e2 := fun _ => true }

/-- An ALUI shift: the immediate lies in 0 to 63 (R87). -/
def IForm.shiftOk (x : IForm) : Bool := x.ok {} && decide (x.value.toNat ≤ 63)

/-- System register numbers (Table 4.12). -/
def sysRegs : List Nat :=
  [0x000, 0x001, 0x002, 0x008, 0x009, 0x00A, 0x00B, 0x00C, 0x010, 0x011, 0x018, 0x019, 0x01A, 0x020,
   0x028, 0x029, 0x02A, 0x02B, 0x02C, 0x02D, 0x02E, 0x02F, 0x030, 0x031, 0x032, 0x033, 0x038, 0x039, 0x03A, 0x03B]

/-- The register number MOD:B of MFS and MTS (R110). -/
def RForm.sysReg (x : RForm) : Nat := x.mod.toNat * 32 + x.b.toNat

/-- A SYS or CTX or JIND entry: no predicate, E2 as given (R110, R194, R102). -/
def RForm.sysOk (mods : List Nat) (b a d : Bool) (e2 : Bool) (x : RForm) : Bool :=
  x.fieldsOk mods b a d && x.form.accepted { noPred with e2 := fun e => e2 || e == 0 }

/-- All codes of a 4-bit MOD. -/
def anyMod : List Nat := [0, 1, 2, 3, 4, 5, 6, 7, 8, 9, 10, 11, 12, 13, 14, 15]

/-- A BR entry: DISP10 is 0 in extended form (R40), no literal, no predicate. -/
def BForm.ok (x : BForm) : Bool :=
  (!x.form.isExt || x.disp == 0) && x.form.accepted { noPred with e2 := fun _ => true }

/-- OFF6 is 0 in extended form (R40); E1 as given. -/
def MForm.formOk (k : Accepts) (x : MForm) : Bool :=
  (!x.form.isExt || x.off == 0) && x.form.accepted { k with e2 := fun _ => true }

/-- ORD and SCOPE of a load or a store (Table 9.1): plain at scope 000, or `ann` at 000 to 100. -/
def MForm.ordOk (ann : BitVec 2) (x : MForm) : Bool :=
  (x.ord == 0 && x.scope == 0) || (x.ord == ann && decide (x.scope.toNat ≤ 4))

/-- An even register field. -/
def evenReg (r : Reg) : Bool := r.toNat % 2 == 0

/-- FENCE and cache (R223, Table 9.7): SZ 000, FOP in D, every E1 field 0. -/
def MForm.fenceOk (fop : BitVec 5) (ords scopes : List Nat) (x : MForm) : Bool :=
  x.sz == 0 && x.d == fop && ords.contains x.ord.toNat && scopes.contains x.scope.toNat && x.formOk noPred

/-- FENCE and FENCESC: A, OFF6 and E2 are 0 (R223). -/
def MForm.pureFence (x : MForm) : Bool := x.a == 0 && x.off == 0 && x.form.e2 == 0

/-- An AMO entry (R219). -/
def AForm.ok (szs : List Nat) (cas : Bool) (x : AForm) : Bool :=
  szs.contains x.sz.toNat && decide (1 ≤ x.scope.toNat) && decide (x.scope.toNat ≤ 4) && (cas || x.n == 0) &&
  (x.sz != 4 || (evenReg x.d && evenReg x.c && evenReg x.n))

/-- A format V entry: TY3 codes, which register fields are used, PG2 under the extended form (R39, R42), and for
an unmasked entry PG2 = 0 (R119). -/
def VForm.ok (tys : List Nat) (b a : Bool) (k : Accepts) (x : VForm) : Bool :=
  tys.contains x.ty.toNat && (b || x.b == 0) && (a || x.a == 0) && (x.form.literal?.isNone || x.b == 0) &&
  (!x.form.isExt || x.pg == 0) && (k.pred || x.pg == 0) && x.form.accepted k

/-- Types of VINT and VINTI (R122). -/
def vintTys : List Nat := [0, 1, 2, 4, 5, 6]
/-- Types of VPERM and VGATH (R126, R216). -/
def permTys : List Nat := [0, 1, 2, 3, 4, 5, 6, 7]
/-- Types of FPS, FPV, FMA and XFN (R131), and the lane widths of R129 and R143. -/
def fpTys : List Nat := [0, 1, 2, 3]

/-- A condition code in E2<2:0>, the other bits 0, at most `top` (R124, R133). -/
def ccOk (top : Nat) (e : IWord) : Bool := decide (e.toNat ≤ top)

/-- A predicate register field (R34). -/
def predReg (r : Reg) : Bool := decide (r.toNat ≤ 7)

/-- The immediate of a VINTI instruction: B field, E2 or literal (R122); for VCMP never E2 (R124). -/
def VForm.imm (cmp : Bool) (x : VForm) : Word :=
  match x.form with
  | .base => x.b.signExtend 64
  | .ext _ e2 => if cmp then x.b.signExtend 64 else e2.signExtend 64
  | .lit l => l
  | .extLit _ _ l => l

/-- A VINTI entry (R122): B is 0 where E2 or a literal gives the immediate. -/
def VForm.immOk (k : Accepts) (x : VForm) : Bool :=
  x.ok vintTys true true { k with lit := true, e2 := fun _ => true } && (!x.form.isExt || x.b == 0)

/-- Element width of the VINT types. -/
def vintWidth (ty : BitVec 3) : Nat := 8 * 2 ^ (ty.toNat % 4)

/-- A VINTI shift: the whole immediate lies in 0 to w - 1 (R122). -/
def VForm.shiftOk (x : VForm) : Bool := x.immOk {} && decide ((x.imm false).toNat < vintWidth x.ty)

/-- Source and destination codes of FCVT in E2 (R139). -/
def fcvtOk (e : IWord) : Bool :=
  decide (bits e.toNat 12 8 ≤ 13) && decide (bits e.toNat 4 0 ≤ 13) && bits e.toNat 31 13 == 0 &&
  bits e.toNat 7 5 == 0

/-- Fields of the E1-owning majors: E1 and E2 as predicates. -/
def XForm.ok (mods : List Nat) (b a d : Bool) (e1 e2 : Nat → Bool) (x : XForm) : Bool :=
  mods.contains x.mod.toNat && (b || x.b == 0) && (a || x.a == 0) && (d || x.d == 0) && e1 x.e1.toNat &&
  e2 x.e2.toNat

/-- E1 or E2 all zero. -/
def isZero (n : Nat) : Bool := n == 0
/-- E1 with only C in bits 4:0. -/
def onlyC (n : Nat) : Bool := decide (n < 32)
/-- E1 of MAT with only ACC in bits 8:5 (Table 7.3). -/
def onlyAcc (n : Nat) : Bool := bits n 31 9 == 0 && bits n 4 0 == 0
/-- E1 of TDRAIN and TSTORE: ACC and SAT. -/
def accSat (n : Nat) : Bool := bits n 31 17 == 0 && bits n 15 9 == 0 && bits n 4 0 == 0
/-- E1 of TMMA and TMMAQ: MSEL is nonzero exactly when MCAST is (Table 7.3), no SAT. -/
def mmaE1 (n : Nat) : Bool := bits n 31 16 == 0 && ((bits n 15 14 == 0) == (bits n 13 10 == 0))
/-- K of TMMA and TMMAQ (R173): 16 to 1,024, a multiple of 8 in classical order, of 16 in recombined order. -/
def kOk (e1 e2 : Nat) : Bool :=
  let k := bits e2 10 0
  decide (16 ≤ k) && decide (k ≤ 1024) && (if bits e1 9 9 == 1 then k % 8 == 0 else k % 16 == 0)

/-- TMMA's type pair, order, K and zero point (R173, Table 7.4). -/
def tmmaOk (x : XForm) : Bool :=
  let zp := bits x.e2.toNat 18 11
  kOk x.e1.toNat x.e2.toNat && bits x.e2.toNat 31 19 == 0 &&
  (bits x.e1.toNat 9 9 == 1 || (x.mod != 6 && x.mod != 7)) &&
  (zp == 0 || x.mod == 9 || (x.mod == 11 && decide (zp ≤ 15)))

/-- KIND of condition i in E1 of WAIT (R200). -/
def waitKind (e1 i : Nat) : Nat := bits e1 (4 * i + 3) (4 * i)
/-- QUAL of condition i in E1 of WAIT (R200). -/
def waitQual (e1 i : Nat) : Nat := bits e1 (4 * i + 19) (4 * i + 16)

/-- One kind and qualifier of Table 8.3. -/
def waitCondOk (kind qual : Nat) : Bool :=
  match kind with
  | 1 => decide (qual ≤ 2)
  | 2 | 3 => qual / 2 % 2 == 0
  | 7 => decide (qual ≤ 3)
  | 0 | 4 | 5 | 6 => qual == 0
  | _ => false

/-- E1 of WAIT: at least one kind, and every pair as Table 8.3 says (R200). -/
def waitOk (e1 : Nat) : Bool :=
  [0, 1, 2, 3].all (fun i => waitCondOk (waitKind e1 i) (waitQual e1 i)) &&
  [0, 1, 2, 3].any (fun i => waitKind e1 i != 0)

/-- Route codes of ISEL in E1<11:0> (R282): 010 and 011 are ILLEGAL. -/
def iselOk (e1 : Nat) : Bool :=
  bits e1 31 12 == 0 &&
  [0, 1, 2, 3].all fun k => bits e1 (3 * k + 2) (3 * k) != 2 && bits e1 (3 * k + 2) (3 * k) != 3

/-- A transfer cycle in E2<19:0> (R280, R282). -/
def cycleOk (e2 : Nat) : Bool := decide (e2 < 2 ^ 20)

/-- RM accepted, SAT accepted. -/
def rmSat : Accepts := { rm := true, sat := true }

/-- An FPS or FPV entry with two sources. -/
def VForm.fp2 (k : Accepts) (x : VForm) : Bool := x.ok fpTys true true { k with lit := true }
/-- An FPS or FPV entry with one source: B is 0 and there is no literal (R131). -/
def VForm.fp1 (k : Accepts) (x : VForm) : Bool := x.ok fpTys false true k
/-- FCMP (R133). -/
def VForm.fcmp (x : VForm) : Bool :=
  x.ok fpTys true true { lit := true, extOnly := true, e2 := ccOk 7, e2Lit := ccOk 7 }
/-- An FMA entry with an addend (R135): C is free in extended form. -/
def VForm.fma (tys : List Nat) (x : VForm) : Bool := x.ok tys true true { rmSat with lit := true, c := true }

/-- Every check of R44 on a decoded instruction; `true` for the events and commands, which have no encoding. -/
def Instr.legal : Instr → Bool
  | .trap x => x.sysOk (if x.form.isExt then [0] else anyMod) (!x.form.isExt) false false true
  | .mfs x => x.sysOk anyMod true false true false && sysRegs.contains x.sysReg
  | .mts x => x.sysOk anyMod true true false false && sysRegs.contains x.sysReg && x.sysReg != 1 && x.sysReg != 2
  | .time x => x.sysOk [0] false false true false
  | .cycle x => x.sysOk [0] false false true false
  | .add x => x.aluOk allW { sat := true }
  | .sub x => x.aluOk allW { sat := true }
  | .and x => x.aluOk allW {}
  | .or x => x.aluOk allW {}
  | .xor x => x.aluOk allW {}
  | .andn x => x.aluOk allW {}
  | .orn x => x.aluOk allW {}
  | .sll x => x.aluOk allW {}
  | .srl x => x.aluOk allW {}
  | .sra x => x.aluOk allW {}
  | .rol x => x.aluOk allW {}
  | .ror x => x.aluOk allW {}
  | .min x => x.aluOk signedW {}
  | .max x => x.aluOk signedW {}
  | .minn x => x.aluOk unsignedW {}
  | .maxn x => x.aluOk unsignedW {}
  | .slt x => x.aluOk signedW {}
  | .sltn x => x.aluOk unsignedW {}
  | .seq x => x.aluOk allW {}
  | .sne x => x.aluOk allW {}
  | .csel x => x.aluOk allW { extOnly := true, c := true }
  | .addi x => x.ok { sat := true }
  | .andi x => x.ok {}
  | .ori x => x.ok {}
  | .xori x => x.ok {}
  | .slli x => x.shiftOk
  | .srli x => x.shiftOk
  | .srai x => x.shiftOk
  | .rori x => x.shiftOk
  | .slti x => x.ok {}
  | .sltni x => x.ok {}
  | .seqi x => x.ok {}
  | .li x => x.ok {} && x.a == 0
  | .mul x => x.aluOk allW { sat := true }
  | .mulh x => x.aluOk signedW {}
  | .mulhn x => x.aluOk unsignedW {}
  | .madd x => x.aluOk allW { sat := true, extOnly := true, c := true }
  | .div x => x.aluOk signedW { sat := true }
  | .divn x => x.aluOk unsignedW {}
  | .rem x => x.aluOk signedW {}
  | .remn x => x.aluOk unsignedW {}
  | .clz x => x.bitOk signedW
  | .ctz x => x.bitOk signedW
  | .popc x => x.bitOk signedW
  | .brev x => x.bitOk signedW
  | .bswap x => x.bitOk signedW
  | .bfx x => x.aluOk [0] {}
  | .bfxn x => x.aluOk [0] {}
  | .bfi x => x.aluOk [0] {}
  | .sext x => x.bitOk [0, 1, 2]
  | .zext x => x.bitOk [0, 1, 2]
  | .lea x => x.aluOk allW { e2 := fun _ => true, e2Lit := fun _ => true }
  | .gaddr x => x.aluOk allW {}
  | .caddr x => x.aluOk [0, 1] {}
  | .crel x => x.bitOk [0, 1]
  | .bcc x => x.ok && decide (x.cond.toNat ≤ 5)
  | .bp x => x.ok && decide (8 ≤ x.cond.toNat) && decide (x.cond.toNat ≤ 11) && predReg x.a && x.b == 0
  | .call x => x.ok && x.cond == 14 && x.a == 0 && x.b == 0
  | .j x => (!x.form.isExt || x.disp == 0) && x.form.accepted { noPred with e2 := fun _ => true }
  | .ji x => x.sysOk [0] false true false true
  | .calli x => x.sysOk [0] false true false true
  | .start x => x.ok [0, 1] true true true onlyC isZero
  | .myid x => x.sysOk [0, 1, 2, 3, 4, 5, 7, 8, 9, 10, 11, 12, 13] false false true false
  | .wait x => x.ok [0, 1] true true true waitOk isZero
  | .ld x => x.sz != 4 && x.ordOk 1 && x.formOk {}
  | .ldp x => x.sz == 4 && evenReg x.d && x.ordOk 1 && x.formOk {}
  | .st x => decide (x.sz.toNat ≤ 3) && x.ordOk 2 && x.formOk { z := false }
  | .stp x => x.sz == 4 && evenReg x.d && x.ordOk 2 && x.formOk { z := false }
  | .lds x => x.sz != 4 && x.ord == 0 && x.scope == 0 && x.formOk {}
  | .chkld x => x.sz == 4 && x.ord == 0 && x.scope == 0 && x.formOk {}
  | .amoSwap x => x.ok [2, 7, 3] false
  | .amoAdd x => x.ok [2, 7, 3] false
  | .amoAnd x => x.ok [2, 7, 3] false
  | .amoOr x => x.ok [2, 7, 3] false
  | .amoXor x => x.ok [2, 7, 3] false
  | .amoMin x => x.ok [2, 3] false
  | .amoMax x => x.ok [2, 3] false
  | .amoMinn x => x.ok [7, 3] false
  | .amoMaxn x => x.ok [7, 3] false
  | .cas x => x.ok [2, 7, 3] true
  | .amofAdd x => x.ok [2, 3] false
  | .amofMin x => x.ok [2, 3] false
  | .amofMax x => x.ok [2, 3] false
  | .amo2Swap x => x.ok [4] false
  | .amo2Add x => x.ok [4] false
  | .amo2And x => x.ok [4] false
  | .amo2Or x => x.ok [4] false
  | .amo2Xor x => x.ok [4] false
  | .cas2 x => x.ok [4] true
  | .fence x => x.fenceOk 1 [1, 2, 3] [0, 1, 2, 3, 4] && x.pureFence
  | .pref x => x.fenceOk 3 [0] [1, 2]
  | .prefW x => x.fenceOk 4 [0] [1, 2]
  | .cclean x => x.fenceOk 5 [0] [1, 2, 3, 4]
  | .cflush x => x.fenceOk 6 [0] [1, 2, 3, 4]
  | .cinv x => x.fenceOk 7 [0] [0]
  | .vld x => decide (x.sz.toNat ≤ 3) && x.ordOk 1 && x.formOk {}
  | .vst x => decide (x.sz.toNat ≤ 3) && x.ordOk 2 && x.formOk { z := false }
  | .vlds x => x.ok permTys true true { e2 := fun _ => true }
  | .vsts x => x.ok permTys true true { z := false, e2 := fun _ => true }
  | .vldx x => x.ok permTys true true { e2 := fun _ => true }
  | .vstx x => x.ok permTys true true { z := false, e2 := fun _ => true }
  | .vldb x => x.ok [0] false true { noPred with e2 := fun _ => true } && x.d.toNat % 4 == 0
  | .vldbWeak x => x.ok [0] false true { noPred with e2 := fun _ => true } && x.d.toNat % 4 == 0
  | .vadd x => x.ok vintTys true true { lit := true, sat := true }
  | .vsub x => x.ok vintTys true true { lit := true, sat := true }
  | .vmul x => x.ok vintTys true true { lit := true, sat := true }
  | .vmulh x => x.ok vintTys true true { lit := true }
  | .vmadd x => x.ok vintTys true true { lit := true, sat := true, c := true, extOnly := true }
  | .vand x => x.ok vintTys true true { lit := true }
  | .vor x => x.ok vintTys true true { lit := true }
  | .vxor x => x.ok vintTys true true { lit := true }
  | .vsll x => x.ok vintTys true true { lit := true }
  | .vsrl x => x.ok vintTys true true { lit := true }
  | .vsra x => x.ok vintTys true true { lit := true }
  | .vmin x => x.ok vintTys true true { lit := true }
  | .vmax x => x.ok vintTys true true { lit := true }
  | .vabs x => x.ok vintTys false true { sat := true }
  | .vcmp x =>
    x.ok vintTys true true { lit := true, extOnly := true, e2 := ccOk 5, e2Lit := ccOk 5 } && predReg x.d
  | .vsel x => x.ok vintTys true true { lit := true, z := false }
  | .vaddi x => x.immOk { sat := true }
  | .vsubi x => x.immOk { sat := true }
  | .vmuli x => x.immOk { sat := true }
  | .vandi x => x.immOk {}
  | .vori x => x.immOk {}
  | .vxori x => x.immOk {}
  | .vslli x => x.shiftOk
  | .vsrli x => x.shiftOk
  | .vsrai x => x.shiftOk
  | .vmini x => x.immOk {}
  | .vmaxi x => x.immOk {}
  | .vcmpi x =>
    x.ok vintTys true true { lit := true, extOnly := true, e2 := ccOk 5, e2Lit := ccOk 5 } && predReg x.d
  | .vbcast x => x.ok permTys true false {}
  | .vins x => x.ok permTys true true { noPred with lit := true }
  | .vext x => x.ok permTys true true { noPred with lit := true }
  | .vperm x => x.ok permTys true true {}
  | .vslide x => x.ok permTys true true { lit := true }
  | .vred x => x.ok permTys true true {} && decide (x.b.toNat ≤ 5)
  | .vscan x => x.ok permTys true true {} && decide (x.b.toNat ≤ 5)
  | .viota x => x.ok permTys false false {}
  | .vcmprs x => x.ok permTys false true { z := false }
  | .vexpnd x => x.ok permTys false true {}
  | .plog x => x.ok permTys true true {} && predReg x.d && predReg x.a && predReg x.b
  | .ppopc x => x.ok fpTys false true { z := false } && predReg x.a
  | .pfirst x => x.ok fpTys false true { z := false } && predReg x.d && predReg x.a
  | .pset x => x.ok fpTys true false { noPred with lit := true } && predReg x.d
  | .fpsFadd x => x.fp2 rmSat
  | .fpsFsub x => x.fp2 rmSat
  | .fpsFmul x => x.fp2 rmSat
  | .fpsFdiv x => x.fp2 rmSat
  | .fpsFsqrt x => x.fp1 rmSat
  | .fpsFmin x => x.fp2 {}
  | .fpsFmax x => x.fp2 {}
  | .fpsFminm x => x.fp2 {}
  | .fpsFmaxm x => x.fp2 {}
  | .fpsFabs x => x.fp1 {}
  | .fpsFneg x => x.fp1 {}
  | .fpsFsgnj x => x.fp2 {}
  | .fpsFcmp x => x.fcmp
  | .fpsFclass x => x.fp1 {}
  | .fpsFrnd x => x.fp1 rmSat
  | .fpvFadd x => x.fp2 rmSat
  | .fpvFsub x => x.fp2 rmSat
  | .fpvFmul x => x.fp2 rmSat
  | .fpvFdiv x => x.fp2 rmSat
  | .fpvFsqrt x => x.fp1 rmSat
  | .fpvFmin x => x.fp2 {}
  | .fpvFmax x => x.fp2 {}
  | .fpvFminm x => x.fp2 {}
  | .fpvFmaxm x => x.fp2 {}
  | .fpvFabs x => x.fp1 {}
  | .fpvFneg x => x.fp1 {}
  | .fpvFsgnj x => x.fp2 {}
  | .fpvFcmp x => x.fcmp && predReg x.d
  | .fpvFclass x => x.fp1 {}
  | .fpvFrnd x => x.fp1 rmSat
  | .ffmaVector x => x.fma fpTys
  | .ffmsVector x => x.fma fpTys
  | .fnfmaVector x => x.fma fpTys
  | .fnfmsVector x => x.fma fpTys
  | .fdot2 x => x.fma [0, 1]
  | .freds x => x.ok fpTys true true { rmSat with lit := true, z := false }
  | .ffmaScalar x => x.fma fpTys
  | .ffmsScalar x => x.fma fpTys
  | .fnfmaScalar x => x.fma fpTys
  | .fnfmsScalar x => x.fma fpTys
  | .fcvtVector x => x.ok [0] false true { rmSat with extOnly := true, e2 := fcvtOk }
  | .fcvtScalar x => x.ok [0] false true { rmSat with extOnly := true, e2 := fcvtOk }
  | .qdeq x => x.ok vintTys true true { rmSat with lit := true }
  | .qquant x => x.ok vintTys true true { lit := true, rm := true }
  | .scvt x => x.ok [0, 1] false true { rm := true }
  | .ilvp x => x.ok fpTys true true { noPred with e2 := fun e => decide (e.toNat ≤ 1) }
  | .ilvu x => x.ok fpTys true true { noPred with e2 := fun e => decide (e.toNat ≤ 1) }
  | .fexp2 _ x => x.fp1 rmSat
  | .fexp _ x => x.fp1 rmSat
  | .flog2 _ x => x.fp1 rmSat
  | .fsin _ x => x.fp1 rmSat
  | .fcos _ x => x.fp1 rmSat
  | .ftanh _ x => x.fp1 rmSat
  | .frsq _ x => x.fp1 rmSat
  | .frcp _ x => x.fp1 rmSat
  | .talloc x => x.ok [0, 1, 2] false false true onlyAcc isZero
  | .tfree x => x.ok [0] false false true onlyAcc isZero
  | .tzero x => x.ok [0] false false true onlyAcc isZero
  | .tload x => x.ok [0, 1, 4, 5, 6, 7, 9] true true true onlyAcc isZero
  | .tmma x => x.ok [0, 1, 2, 3, 4, 5, 6, 7, 8, 9, 10, 11] true true true mmaE1 (fun _ => true) && tmmaOk x
  | .tmmaq x =>
    x.ok [0, 1, 4, 5, 8] true true true mmaE1 (fun n => decide (n < 2 ^ 11)) && kOk x.e1.toNat x.e2.toNat
  | .tqdesc x => x.ok [0, 1, 2, 4, 5, 6] true true true isZero isZero
  | .tdrain x => x.ok [0, 1, 4, 5, 6, 7, 9] true true true accSat isZero
  | .tstore x => x.ok [0, 1, 4, 5, 6, 7, 9] true true true accSat isZero
  | .tstat x => x.ok [0] false false true onlyAcc isZero
  | .copy x => x.ok [0] false true true isZero isZero && evenReg x.a
  | .cseal x => x.ok [0] false false true isZero isZero
  | .cwait x => x.ok anyMod false false true isZero isZero
  | .winset x => x.ok anyMod true true false isZero isZero && evenReg x.a
  | .winadv x => x.ok anyMod false false true isZero isZero
  | .winflush x => x.ok [0, 1, 2, 3, 4, 5, 6, 7] false false true isZero isZero
  | .tlget x => x.ok [0, 1, 2, 4, 5, 6] false false true isZero isZero
  | .bgset x => x.ok allW false true false isZero isZero
  | .barr x => x.ok anyMod false false false isZero isZero
  | .bwait x => x.ok allW false true true isZero isZero
  | .phase x => x.ok [0, 1, 2, 3, 4, 5, 6, 7] false false false isZero isZero
  | .xmit x => x.ok allW false true false isZero cycleOk
  | .isel x => x.ok [0] false false false iselOk cycleOk
  | .xrecv x => x.ok allW false false true isZero cycleOk
  | .spawn x => x.ok [0] false true false isZero isZero
  | .spawnat x => x.ok [0] true true false isZero isZero
  | .taskget x => x.ok [0] false true true onlyC isZero
  | .rgres x => x.ok anyMod false false true onlyC isZero
  | .rgpub x => x.ok anyMod false true false isZero isZero
  | .rgtake x => x.ok anyMod false true true onlyC isZero
  | .rgdone x => x.ok anyMod false true false isZero isZero
  | .send x => x.ok [0] true true false isZero (fun n => decide (n < 2 ^ 16))
  | .recv x => x.ok [0] false true true onlyC isZero
  | .rank x => x.ok [0] false false true isZero isZero
  | .rankN x => x.ok [1] false false true isZero isZero
  | .rankOf x => x.ok [2] false true true isZero isZero
  | .coll x => x.ok [0, 1, 2, 3, 4] true true true onlyC isZero
  | .grpjoin x => x.ok [0] true true true isZero isZero
  | .grpfree x => x.ok [0] false true true isZero isZero
  | .nop | .nopX | .eret | .eretX | .beat | .beatX | .ret | .retX => true
  | .retire | .retireX | .endK | .endX | .yieldK | .yieldX | .taskend => true
  | .fencesc | .fencescX | .fencescSys | .fencescSysX => true
  | _ => true

/-! ## Decode and encode -/

/-- Decode the words of one instruction, word 0 first; words past its length are ignored (R28, R29). -/
def decode (ws : List IWord) : Except DecodeError Instr :=
  match ws with
  | [] => .error .truncated
  | w :: rest =>
    let major := (w.extractLsb' 2 6).toNat
    if rest.length + 1 < lenWords (w.extractLsb' 0 2) then .error .truncated
    else if 32 ≤ major then .error (.reservedMajor major)
    else
      match (Payload.decode w rest).bind Payload.instr with
      | none => .error (.unassigned major)
      | some i => if i.legal then .ok i else .error (.illegalField i)

/-- The words of an instruction; none for an event or command. -/
def encode (i : Instr) : List IWord :=
  match i.payload with
  | some p => p.encode
  | none => []

/-- A 32-bit word from its four bytes, little-endian (R28). -/
def wordOfBytes : List Byte → Option IWord
  | [b0, b1, b2, b3] => some (b3 ++ b2 ++ b1 ++ b0)
  | _ => none

/-- The bytes of a word, little-endian (R28). -/
def bytesOfWord (w : IWord) : List Byte :=
  [w.extractLsb' 0 8, w.extractLsb' 8 8, w.extractLsb' 16 8, w.extractLsb' 24 8]

/-- The words of a list of bytes; a last group of fewer than four bytes is dropped. -/
def wordsOfBytes : List Byte → List IWord
  | b0 :: b1 :: b2 :: b3 :: rest => (b3 ++ b2 ++ b1 ++ b0) :: wordsOfBytes rest
  | _ => []

/-- Decode from bytes. -/
def decodeBytes (bs : List Byte) : Except DecodeError Instr := decode (wordsOfBytes bs)

/-- The bytes of an instruction. -/
def encodeBytes (i : Instr) : List Byte := (encode i).flatMap bytesOfWord

/-- The instruction that the decoder reads where word 0 is the low 32 bits of `w` and the table's later words
follow; every word above `nbits` is 0. -/
def decodeTableWord (nbits w : Nat) : Option Instr :=
  let v := w % 2 ^ nbits
  match decode [BitVec.ofNat 32 v, BitVec.ofNat 32 (v / 2 ^ 32), BitVec.ofNat 32 (v / 2 ^ 64),
                BitVec.ofNat 32 (v / 2 ^ 96), BitVec.ofNat 32 (v / 2 ^ 128)] with
  | .ok i => some i
  | .error _ => none

end Sys2Proof
end

