-- ==== Sys2Proof/Machine/Fp.lean ====
section
/-! DEFINITION. Floating and integer number formats, exact values, rounding, flags and the arithmetic of
spec/03 (R57 to R80), on natural-number bit patterns. -/

namespace Sys2Proof.Machine

/-! ## Formats -/

/-- A floating format of Table 3.2, or the scale S20 (R65). -/
inductive Fmt where
  | e4m3 | e5m2 | f16 | bf16 | f32 | f64 | pa24 | ax36 | s20
  deriving DecidableEq, Repr

/-- Exponent bits. -/
def Fmt.ebits : Fmt → Nat
  | .e4m3 => 4 | .e5m2 => 5 | .f16 => 5 | .bf16 => 8 | .f32 => 8 | .f64 => 11 | .pa24 => 9 | .ax36 => 8 | .s20 => 7

/-- Fraction bits. -/
def Fmt.fbits : Fmt → Nat
  | .e4m3 => 3 | .e5m2 => 2 | .f16 => 10 | .bf16 => 7 | .f32 => 23 | .f64 => 52 | .pa24 => 14 | .ax36 => 27
  | .s20 => 12

/-- Width in bits. -/
def Fmt.width (f : Fmt) : Nat := 1 + f.ebits + f.fbits

/-- Exponent bias. -/
def Fmt.bias (f : Fmt) : Nat := 2 ^ (f.ebits - 1) - 1

/-- Significant bits p(f) (R68). -/
def Fmt.prec (f : Fmt) : Nat := f.fbits + 1

/-- Exponent of the smallest normal value. -/
def Fmt.emin (f : Fmt) : Int := 1 - (f.bias : Int)

/-- Whether the all-ones exponent holds infinities and NaNs (R62). -/
def Fmt.ieee : Fmt → Bool
  | .e4m3 => false
  | .s20 => false
  | _ => true

/-- Exponent of the largest finite value. -/
def Fmt.emax (f : Fmt) : Int := (2 ^ f.ebits - 1 : Nat) - (f.bias : Int) - (if f.ieee then 1 else 0)

/-- Largest significand at the largest exponent: .e4m3 ends at 448 (R62). -/
def Fmt.mmax (f : Fmt) : Nat := 2 ^ f.prec - (if f = .e4m3 then 2 else 1)

/-- Sign bit of a pattern. -/
def Fmt.sign (f : Fmt) (x : Nat) : Bool := x / 2 ^ (f.width - 1) % 2 = 1

/-- The sign at its place. -/
def Fmt.signBit (f : Fmt) (neg : Bool) : Nat := if neg then 2 ^ (f.width - 1) else 0

/-- The canonical NaN (R62). -/
def Fmt.canonicalNan (f : Fmt) : Nat :=
  if f = .e4m3 then 0x7F else (2 ^ f.ebits - 1) * 2 ^ f.fbits + 2 ^ (f.fbits - 1)

/-- Infinity with a sign; formats with one. -/
def Fmt.infinity (f : Fmt) (neg : Bool) : Nat := f.signBit neg + (2 ^ f.ebits - 1) * 2 ^ f.fbits

/-- Largest finite value with a sign. -/
def Fmt.largest (f : Fmt) (neg : Bool) : Nat :=
  f.signBit neg + (f.emax + f.bias).toNat * 2 ^ f.fbits + (f.mmax - 2 ^ f.fbits)

/-! ## Values -/

/-- The value of a floating pattern: finite (sign, significand, exponent: m · 2^e), an infinity, or a NaN with its
fraction field and the width of that field. -/
inductive FVal where
  | fin (neg : Bool) (m : Nat) (e : Int)
  | inf (neg : Bool)
  | nan (neg : Bool) (frac fb : Nat)
  deriving DecidableEq, Repr

/-- Decode a pattern (R61, R62, R65). -/
def Fmt.decode (f : Fmt) (x : Nat) : FVal :=
  let neg := f.sign x
  let ex := x / 2 ^ f.fbits % 2 ^ f.ebits
  let fr := x % 2 ^ f.fbits
  if f.ieee ∧ ex = 2 ^ f.ebits - 1 then (if fr = 0 then .inf neg else .nan neg fr f.fbits)
  else if f = .e4m3 ∧ ex = 15 ∧ fr = 7 then .nan neg fr f.fbits
  else if ex = 0 then .fin neg fr (f.emin - f.fbits)
  else .fin neg (2 ^ f.fbits + fr) ((ex : Int) - f.bias - f.fbits)

/-- A signalling NaN: the fraction's most significant bit is 0 (R62). -/
def FVal.isSNan : FVal → Bool
  | .nan _ fr fb => fr / 2 ^ (fb - 1) % 2 = 0
  | _ => false

/-- Any NaN. -/
def FVal.isNan : FVal → Bool
  | .nan _ _ _ => true
  | _ => false

/-- An infinity. -/
def FVal.isInf : FVal → Bool
  | .inf _ => true
  | _ => false

/-- A zero. -/
def FVal.isZero : FVal → Bool
  | .fin _ m _ => m == 0
  | _ => false

/-- The sign. -/
def FVal.neg : FVal → Bool
  | .fin n _ _ => n
  | .inf n => n
  | .nan n _ _ => n

/-- The value with the other sign. -/
def FVal.negate : FVal → FVal
  | .fin n m e => .fin (!n) m e
  | .inf n => .inf (!n)
  | .nan n fr fb => .nan (!n) fr fb

/-! ## Flags and rounding -/

/-- Raised flags in the order of FCTL bits 5:0 (Table 3.6): NV, OF, UF, DZ, NX, SX. -/
abbrev Flags := BitVec 6

/-- Invalid operation. -/
def fNV : Flags := 1
/-- Overflow. -/
def fOF : Flags := 2
/-- Underflow. -/
def fUF : Flags := 4
/-- Division by zero. -/
def fDZ : Flags := 8
/-- Inexact. -/
def fNX : Flags := 16
/-- Saturated. -/
def fSX : Flags := 32

/-- Rounding modes (Table 3.5). -/
inductive RMode where
  | rne | rtz | rdn | rup | rmm | rod
  deriving DecidableEq, Repr

/-- Codes of Table 3.5; 000 and 111 do not reach this function and read as RNE. -/
def RMode.ofCode (c : Nat) : RMode :=
  match c with
  | 2 => .rtz
  | 3 => .rdn
  | 4 => .rup
  | 5 => .rmm
  | 6 => .rod
  | _ => .rne

/-- The code of a mode (Table 3.5). -/
def RMode.toCode : RMode → Nat
  | .rne => 1 | .rtz => 2 | .rdn => 3 | .rup => 4 | .rmm => 5 | .rod => 6

/-- Choose between m and m + 1 for a magnitude between them (R68, Table 3.5): `c` compares the part cut off with
one half. -/
def RMode.pick (r : RMode) (neg : Bool) (m : Nat) (exact : Bool) (c : Ordering) : Nat :=
  if exact then m
  else
    match r with
    | .rne => if c = .gt ∨ (c = .eq ∧ m % 2 = 1) then m + 1 else m
    | .rtz => m
    | .rdn => if neg then m + 1 else m
    | .rup => if neg then m else m + 1
    | .rmm => if c = .lt then m else m + 1
    | .rod => if m % 2 = 0 then m + 1 else m

/-- An exact magnitude m · 2^e, or, with `sticky`, a magnitude strictly between m · 2^e and (m + 1) · 2^e. -/
structure Mag where
  m : Nat
  e : Int
  sticky : Bool := false
  deriving DecidableEq, Repr

/-- Round a magnitude to a multiple of 2^q: the multiple and whether it is exact (R68). -/
def Mag.roundAt (x : Mag) (r : RMode) (neg : Bool) (q : Int) : Nat × Bool :=
  if q ≤ x.e then (r.pick neg (x.m * 2 ^ (x.e - q).toNat) (!x.sticky) .lt, !x.sticky)
  else
    let k := (q - x.e).toNat
    let t := x.m / 2 ^ k
    let rem := x.m % 2 ^ k
    let half := 2 ^ (k - 1)
    let exact := rem == 0 && !x.sticky
    let c : Ordering := if rem < half then .lt else if rem = half ∧ x.sticky = false then .eq else .gt
    (r.pick neg t exact c, exact)

/-- How a rounding treats overflow: a final narrowing without or with SAT, or an intermediate step (R70). -/
inductive OverflowRule where
  | final | saturate | intermediate
  deriving DecidableEq, Repr

/-- The result of an overflow (R70). -/
def Fmt.overflow (f : Fmt) (r : RMode) (rule : OverflowRule) (neg : Bool) : Nat × Flags :=
  match rule with
  | .intermediate => (f.infinity neg, 0)
  | .saturate => (f.largest neg, fOF ||| fNX)
  | .final =>
    if f = .e4m3 then (f.signBit neg + 0x7F, fOF ||| fNX)
    else if f = .s20 then (f.largest neg, fOF ||| fNX)
    else
      match r with
      | .rne | .rmm => (f.infinity neg, fOF ||| fNX)
      | .rtz | .rod => (f.largest neg, fOF ||| fNX)
      | .rdn => (if neg then f.infinity true else f.largest false, fOF ||| fNX)
      | .rup => (if neg then f.largest true else f.infinity false, fOF ||| fNX)

/-- The pattern of a significand at an exponent of the format. -/
def Fmt.pack (f : Fmt) (neg : Bool) (m : Nat) (e : Int) : Nat :=
  if m < 2 ^ f.fbits then f.signBit neg + m
  else f.signBit neg + (e + f.bias).toNat * 2 ^ f.fbits + (m - 2 ^ f.fbits)

/-- One rounding of an exact magnitude into a format (R68 to R71). The caller gives a sticky magnitude at least
three significant bits more than the format. -/
def Fmt.round (f : Fmt) (r : RMode) (rule : OverflowRule) (neg : Bool) (x : Mag) : Nat × Flags :=
  if x.m = 0 ∧ x.sticky = false then (f.signBit neg, 0)
  else
    let ex : Int := x.e + x.m.log2
    let e := max ex f.emin
    let (m, exact) := x.roundAt r neg (e - f.fbits)
    let up := m = 2 ^ f.prec
    let m' := if up then 2 ^ f.fbits else m
    let e' := if up then e + 1 else e
    if e' > f.emax ∨ (e' = f.emax ∧ m' > f.mmax) then f.overflow r rule neg
    else
      let tiny := decide (ex < f.emin) &&
        !(decide (ex = f.emin - 1) && (x.roundAt r neg (ex - f.fbits)).1 == 2 ^ f.prec)
      let fl : Flags := if exact then 0 else if tiny ∧ rule ≠ .intermediate then fUF ||| fNX else fNX
      (f.pack neg m' e', fl)

/-- The NaN that a NaN operand gives in a format: quiet bit set, sign kept, high fraction bits kept (R72). -/
def Fmt.quiet (f : Fmt) (neg : Bool) (frac fb : Nat) : Nat :=
  if f = .e4m3 then f.signBit neg + 0x7F
  else
    let fr := if fb ≤ f.fbits then frac * 2 ^ (f.fbits - fb) else frac / 2 ^ (fb - f.fbits)
    f.infinity neg + (fr ||| 2 ^ (f.fbits - 1))

/-- An exact result before its narrowing. -/
inductive Exact where
  | num (neg : Bool) (x : Mag)
  | inf (neg : Bool)
  | nan (neg : Bool) (frac fb : Nat)
  | invalid
  deriving DecidableEq, Repr

/-- Narrow an exact result into a format (R69 to R73, R76). -/
def Exact.narrow (x : Exact) (f : Fmt) (r : RMode) (rule : OverflowRule) : Nat × Flags :=
  match x with
  | .num neg m => f.round r rule neg m
  | .inf neg =>
    if f = .e4m3 then
      (if rule = .saturate then (f.largest neg, fNX) else (f.signBit neg + 0x7F, fNV))
    else (f.infinity neg, 0)
  | .nan neg fr fb => (f.quiet neg fr fb, 0)
  | .invalid => (f.canonicalNan, fNV)

/-! ## Exact arithmetic -/

/-- A signed dyadic number for sums: z · 2^e, and the sign a zero term has. -/
structure Term where
  neg : Bool
  m : Nat
  e : Int
  deriving DecidableEq, Repr

/-- The integer of a term at a common exponent. -/
def Term.at (t : Term) (q : Int) : Int :=
  let v : Int := (t.m * 2 ^ (t.e - q).toNat : Nat)
  if t.neg then -v else v

/-- The exact sum of terms; a zero sum keeps a common sign, and is + otherwise, − under RDN (R74). -/
def sumTerms (r : RMode) (ts : List Term) : Exact :=
  let q : Int := ts.foldl (fun acc t => min acc t.e) 0
  let z : Int := ts.foldl (fun acc t => acc + t.at q) 0
  if z = 0 then
    let neg := if ts.all (·.neg) ∧ ts ≠ [] then true else if ts.all (fun t => !t.neg) then false else r = .rdn
    .num neg { m := 0, e := 0 }
  else .num (z < 0) { m := z.natAbs, e := q }

/-- The exact product; `invalid` for 0 · ∞ (R73). NaNs are dealt with by the caller. -/
def mulVal (a b : FVal) : Exact :=
  let neg := a.neg != b.neg
  match a, b with
  | .fin _ m e, .fin _ m' e' => .num neg { m := m * m', e := e + e' }
  | .inf _, .fin _ m _ => if m = 0 then .invalid else .inf neg
  | .fin _ m _, .inf _ => if m = 0 then .invalid else .inf neg
  | .inf _, .inf _ => .inf neg
  | .nan n fr fb, _ => .nan n fr fb
  | _, .nan n fr fb => .nan n fr fb

/-- A value as an exact result. -/
def FVal.exact : FVal → Exact
  | .fin n m e => .num n { m := m, e := e }
  | .inf n => .inf n
  | .nan n fr fb => .nan n fr fb

/-- The first NaN of the operands, in operand order (R72). -/
def firstNan : List FVal → Option Exact
  | [] => none
  | .nan n fr fb :: _ => some (.nan n fr fb)
  | _ :: rest => firstNan rest

/-- The exact sum of exact addends, invalid where the addends hold an invalid product or infinities of both signs
(R73); `ops` are the operands in the order that decides a NaN (R72). -/
def sumExact (r : RMode) (ops : List FVal) (addends : List Exact) : Exact :=
  if ops.any (·.isSNan) ∨ addends.any (· == .invalid) ∨
      (addends.any (· == .inf false) ∧ addends.any (· == .inf true)) then .invalid
  else
    match firstNan ops with
    | some n => n
    | none =>
      if addends.any (· == .inf false) then .inf false
      else if addends.any (· == .inf true) then .inf true
      else
        sumTerms r (addends.filterMap fun a =>
          match a with
          | .num neg x => some { neg := neg, m := x.m, e := x.e }
          | _ => none)

/-- Square root rounded down, one result bit at a time from bit `k` down. -/
def isqrtFrom : Nat → Nat → Nat → Nat
  | 0, _, acc => acc
  | k + 1, n, acc =>
    let t := acc + 2 ^ k
    isqrtFrom k n (if t * t ≤ n then t else acc)

/-- Integer square root. -/
def isqrt (n : Nat) : Nat := isqrtFrom (n.log2 / 2 + 1) n 0

/-- The exact quotient of two positive significands, at least 70 bits and a sticky mark. -/
def divMag (m m' : Nat) (e : Int) : Mag :=
  let k := 70 + m'.log2
  { m := m * 2 ^ k / m', e := e - k, sticky := m * 2 ^ k % m' != 0 }

/-- The exact square root of a positive value m · 2^e, at least 60 bits and a sticky mark. -/
def sqrtMag (m : Nat) (e : Int) : Mag :=
  let e0 : Int := if e % 2 = 0 then e else e - 1
  let m0 := if e % 2 = 0 then m else 2 * m
  let n := m0 * 2 ^ 128
  let s := isqrt n
  { m := s, e := (e0 - 128) / 2, sticky := s * s != n }

/-- Operations of Table 5.5 with a rounded result, and the reciprocal-type forms they share. -/
inductive FArith where
  | add | sub | mul | div | sqrt
  deriving DecidableEq, Repr

/-- The exact result of an operation and the flags beyond those of the narrowing (DZ), R73 and R74. -/
def FArith.exact (op : FArith) (r : RMode) (a b : FVal) : Exact × Flags :=
  match op with
  | .add => (sumExact r [a, b] [a.exact, b.exact], 0)
  | .sub => (sumExact r [a, b] [a.exact, b.negate.exact], 0)
  | .mul =>
    if a.isSNan || b.isSNan then (.invalid, 0)
    else
      match firstNan [a, b] with
      | some n => (n, 0)
      | none => (mulVal a b, 0)
  | .div =>
    if a.isSNan || b.isSNan then (.invalid, 0)
    else
      match firstNan [a, b] with
      | some n => (n, 0)
      | none =>
        let neg := a.neg != b.neg
        match a, b with
        | .inf _, .inf _ => (.invalid, 0)
        | .inf _, _ => (.inf neg, 0)
        | _, .inf _ => (.num neg { m := 0, e := 0 }, 0)
        | .fin _ m e, .fin _ m' e' =>
          if m' = 0 then (if m = 0 then (.invalid, 0) else (.inf neg, fDZ))
          else if m = 0 then (.num neg { m := 0, e := 0 }, 0)
          else (.num neg (divMag m m' (e - e')), 0)
        | _, _ => (.invalid, 0)
  | .sqrt =>
    if a.isSNan then (.invalid, 0)
    else
      match a with
      | .nan n fr fb => (.nan n fr fb, 0)
      | .inf true => (.invalid, 0)
      | .inf false => (.inf false, 0)
      | .fin neg m e =>
        if m = 0 then (.num neg { m := 0, e := 0 }, 0)
        else if neg then (.invalid, 0)
        else (.num false (sqrtMag m e), 0)

/-- One rounded operation in a format (R131, R132). -/
def fpArith (op : FArith) (f : Fmt) (r : RMode) (rule : OverflowRule) (a b : Nat) : Nat × Flags :=
  let (x, fl) := op.exact r (f.decode a) (f.decode b)
  let (y, fl') := x.narrow f r rule
  (y, fl ||| fl')

/-- Fused multiply-add with the signs of the product and of the addend (Table 5.6), rounded once (R135). -/
def fpFma (np nc : Bool) (f : Fmt) (r : RMode) (rule : OverflowRule) (a b c : Nat) : Nat × Flags :=
  let va := f.decode a
  let vb := f.decode b
  let vc := f.decode c
  let p := mulVal (if np then va.negate else va) vb
  let x :=
    if va.isSNan || vb.isSNan || vc.isSNan then .invalid
    else if p = .invalid then .invalid
    else
      match firstNan [va, vb, vc] with
      | some n => n
      | none => sumExact r [] [p, if nc then vc.negate.exact else vc.exact]
  x.narrow f r rule

/-- A lane of FDOT2 (R136): 16-bit elements a0, a1, b0, b1 and the .f32 addend. -/
def fpDot2 (f : Fmt) (r : RMode) (rule : OverflowRule) (a0 a1 b0 b1 c : Nat) : Nat × Flags :=
  let x0 := f.decode a0
  let x1 := f.decode a1
  let y0 := f.decode b0
  let y1 := f.decode b1
  let z := Fmt.f32.decode c
  let ops := [x0, x1, y0, y1, z]
  let pr (u v : FVal) : Exact := if u.isNan || v.isNan then .nan false 0 1 else mulVal u v
  let p0 := pr x0 y0
  let p1 := pr x1 y1
  (sumExact r ops [p0, p1, z.exact]).narrow .f32 r rule

/-- FREDS (R137): the sum of the terms, lowest lane first, then S[B]. -/
def fpSum (f : Fmt) (r : RMode) (rule : OverflowRule) (xs : List Nat) : Nat × Flags :=
  let vs := xs.map f.decode
  (sumExact r vs (vs.map FVal.exact)).narrow f r rule

/-- Order of two numbers as reals: −0 equals +0 (R74). -/
def cmpVal (a b : FVal) : Ordering :=
  match a, b with
  | .inf n, .inf n' => if n = n' then .eq else if n then .lt else .gt
  | .inf n, _ => if n then .lt else .gt
  | _, .inf n => if n then .gt else .lt
  | .fin n m e, .fin n' m' e' =>
    let q := min e e'
    let x := Term.at { neg := n, m := m, e := e } q
    let y := Term.at { neg := n', m := m', e := e' } q
    if x < y then .lt else if x = y then .eq else .gt
  | _, _ => .eq

/-- Minimum and maximum (R80, Table 3.7): `mx` maximum, `prop` NaN propagation. -/
def fpMinMax (mx prop : Bool) (f : Fmt) (a b : Nat) : Nat × Flags :=
  let va := f.decode a
  let vb := f.decode b
  let fl : Flags := if va.isSNan || vb.isSNan then fNV else 0
  if va.isNan && vb.isNan then
    (f.canonicalNan, fl)
  else if va.isNan || vb.isNan then
    if prop then
      (if fl = 0 then
        (match firstNan [va, vb] with
         | some (.nan n fr fb) => f.quiet n fr fb
         | _ => f.canonicalNan, 0)
       else (f.canonicalNan, fNV))
    else (if va.isNan then b else a, fl)
  else
    let less : Bool :=
      match cmpVal va vb with
      | .lt => true
      | .gt => false
      | .eq => va.neg && !vb.neg
    (if less != mx then a else b, 0)

/-- FCMP (R133): condition codes 0 to 7. -/
def fpCmp (cc : Nat) (f : Fmt) (a b : Nat) : Bool × Flags :=
  let va := f.decode a
  let vb := f.decode b
  let un := va.isNan || vb.isNan
  let ordered := cc == 2 || cc == 3 || cc == 4 || cc == 5
  let nv := va.isSNan || vb.isSNan || (ordered && un)
  let o := cmpVal va vb
  let res : Bool :=
    match cc with
    | 0 => !un && o == .eq
    | 1 => un || o != .eq
    | 2 => !un && o == .lt
    | 3 => !un && o != .gt
    | 4 => !un && o == .gt
    | 5 => !un && o != .lt
    | 6 => un
    | _ => !un
  (res, if nv then fNV else 0)

/-- Whether m · 2^e is an integer. -/
def isInteger (m : Nat) (e : Int) : Bool := if e ≥ 0 then true else m % 2 ^ (-e).toNat == 0

/-- The class record of FCLASS (R134). -/
def fpClass (f : Fmt) (x : Nat) : Nat :=
  let v := f.decode x
  let kind :=
    match v with
    | .fin _ m _ => if m = 0 then 0 else if m < 2 ^ f.fbits then 1 else 2
    | .inf _ => 3
    | .nan _ _ _ => if v.isSNan then 5 else 4
  let int :=
    match v with
    | .fin _ m e => isInteger m e
    | _ => false
  kind + (if f.sign x then 8 else 0) + (if int then 16 else 0)

/-- FRND (R132): round to an integral value in the same format. -/
def fpRoundInt (f : Fmt) (r : RMode) (x : Nat) : Nat × Flags :=
  match f.decode x with
  | .fin neg m e =>
    if isInteger m e then (x, 0)
    else
      let (k, _) := Mag.roundAt { m := m, e := e } r neg 0
      ((f.round .rtz .final neg { m := k, e := 0 }).1, fNX)
  | .inf _ => (x, 0)
  | .nan n fr fb => if (FVal.nan n fr fb).isSNan then (f.canonicalNan, fNV) else (f.quiet n fr fb, 0)

/-! ## Integers and conversions -/

/-- An integer type of Table 3.1: width and signedness. -/
structure IntTy where
  w : Nat
  signed : Bool
  deriving DecidableEq, Repr

/-- Smallest value. -/
def IntTy.lo (t : IntTy) : Int := if t.signed then -(2 ^ (t.w - 1) : Nat) else 0
/-- Largest value. -/
def IntTy.hi (t : IntTy) : Int := if t.signed then (2 ^ (t.w - 1) : Nat) - 1 else (2 ^ t.w : Nat) - 1
/-- The value of the low w bits of a pattern. -/
def IntTy.val (t : IntTy) (x : Nat) : Int :=
  let y := x % 2 ^ t.w
  if t.signed ∧ 2 ^ (t.w - 1) ≤ y then (y : Int) - (2 ^ t.w : Nat) else y
/-- Sat (R60): clamp to the range of the type. -/
def IntTy.sat (t : IntTy) (x : Int) : Int := if x < t.lo then t.lo else if t.hi < x then t.hi else x
/-- The low w bits of an integer, modulo 2^w. -/
def IntTy.wrap (t : IntTy) (x : Int) : Nat := (x % (2 ^ t.w : Nat)).toNat

/-- Narrow an exact integer: Sat with SX under SAT, wrapping otherwise (R60). -/
def IntTy.narrow (t : IntTy) (sat : Bool) (x : Int) : Nat × Flags :=
  if sat then (t.wrap (t.sat x), if t.sat x = x then 0 else fSX) else (t.wrap x, 0)

/-- Floating to integer (R75). -/
def fpToInt (f : Fmt) (t : IntTy) (r : RMode) (x : Nat) : Nat × Flags :=
  match f.decode x with
  | .nan _ _ _ => (0, fNV)
  | .inf neg => (t.wrap (if neg then t.lo else t.hi), fNV)
  | .fin neg m e =>
    let (k, exact) := Mag.roundAt { m := m, e := e } r neg 0
    let z : Int := if neg then -(k : Int) else k
    if t.sat z ≠ z then (t.wrap (t.sat z), fNV) else (t.wrap z, if exact then 0 else fNX)

/-- Integer to floating (R75). -/
def intToFp (f : Fmt) (r : RMode) (rule : OverflowRule) (z : Int) : Nat × Flags :=
  f.round r rule (z < 0) { m := z.natAbs, e := 0 }

/-- Floating to floating (R140): one narrowing; a signalling NaN is invalid. -/
def fpToFp (src dst : Fmt) (r : RMode) (rule : OverflowRule) (x : Nat) : Nat × Flags :=
  let v := src.decode x
  (if v.isSNan then Exact.invalid else v.exact).narrow dst r rule

/-- .f32 to S20 (R142): NaN gives +0 with NV, an infinity the largest magnitude with OF and NX. -/
def f32ToS20 (r : RMode) (x : Nat) : Nat × Flags :=
  match Fmt.f32.decode x with
  | .nan _ _ _ => (0, fNV)
  | .inf neg => (Fmt.s20.largest neg, fOF ||| fNX)
  | .fin neg m e => Fmt.s20.round r .final neg { m := m, e := e }

/-- S20 to .f32, exact (R142); the sign of −0 stays (log 102). -/
def s20ToF32 (x : Nat) : Nat × Flags := fpToFp .s20 .f32 .rne .final (x % 2 ^ 20)

/-- A group record (R66): scale, zero point for the code width, skip. -/
structure GroupRecord where
  scale : FVal
  zp : Nat
  skip : Bool
  deriving DecidableEq, Repr

/-- Read a group record; `q4` tells the code type. -/
def groupRecord (q4 : Bool) (x : Nat) : GroupRecord :=
  { scale := Fmt.s20.decode (x % 2 ^ 20), zp := if q4 then bits x 23 20 else bits x 27 20,
    skip := bits x 28 28 == 1 }

/-- The exact value s · (q − z) of a code; a zero is +0 (R59). -/
def quantValue (g : GroupRecord) (q : Nat) : FVal :=
  match g.scale with
  | .fin n m e =>
    let d : Int := (q : Int) - g.zp
    if g.skip ∨ d = 0 ∨ m = 0 then .fin false 0 0 else .fin (n != decide (d < 0)) (m * d.natAbs) e
  | v => v

/-- QDEQ of one code (R141). -/
def qdeq (f : Fmt) (r : RMode) (rule : OverflowRule) (g : GroupRecord) (q : Nat) : Nat × Flags :=
  (quantValue g q).exact.narrow f r rule

/-- Round the exact quotient of two positive dyadic numbers to an integer (R141): the magnitude and exactness. -/
def roundQuot (r : RMode) (neg : Bool) (m : Nat) (e : Int) (m' : Nat) (e' : Int) : Nat × Bool :=
  let d := e - e'
  let num := if d ≥ 0 then m * 2 ^ d.toNat else m
  let den := if d ≥ 0 then m' else m' * 2 ^ (-d).toNat
  let t := num / den
  let rem := num % den
  let c : Ordering := if 2 * rem < den then .lt else if 2 * rem = den then .eq else .gt
  (r.pick neg t (rem == 0) c, rem == 0)

/-- QQUANT of one value (R141); `qmax` is the largest code. -/
def qquant (f : Fmt) (r : RMode) (g : GroupRecord) (qmax : Nat) (x : Nat) : Nat × Flags :=
  match g.scale with
  | .fin sn sm se =>
    if g.skip ∨ sm = 0 then (g.zp, 0)
    else
      match f.decode x with
      | .nan _ _ _ => (g.zp, fNV)
      | .inf n => (if n != sn then 0 else qmax, fSX)
      | .fin n m e =>
        let neg := n != sn
        let (k, exact) := roundQuot r neg m e sm se
        let z : Int := (if neg then -(k : Int) else k) + g.zp
        let y : Int := if z < 0 then 0 else if (qmax : Int) < z then qmax else z
        (y.toNat, (if exact then 0 else fNX) ||| (if y = z then 0 else fSX))
  | _ => (g.zp, 0)

end Sys2Proof.Machine
end

