-- ==== Sys2Proof/Machine/Transcendental.lean ====
section
/-! DEFINITION. The XFN functions (spec/05 R144, R145): exact magnitudes with a sticky mark, computed in fixed point
with 256 fractional bits, far beyond what a correct rounding of .f16, .bf16 and .f32 needs (log 20). -/

namespace Sys2Proof.Machine

/-- The eight functions of R144, in the order of FN4<2:0>. -/
inductive XfnOp where
  | exp2 | exp | log2 | sin | cos | tanh | rsq | rcp
  deriving DecidableEq, Repr

/-- The code FN4<2:0>. -/
def XfnOp.code : XfnOp → Nat
  | .exp2 => 0 | .exp => 1 | .log2 => 2 | .sin => 3 | .cos => 4 | .tanh => 5 | .rsq => 6 | .rcp => 7

/-- Fractional bits of the fixed-point numbers. -/
def fxW : Nat := 256

/-- 1 in fixed point. -/
def fxOne : Nat := 2 ^ fxW

/-- Product of fixed-point numbers, rounded down. -/
def fxMul (a b : Nat) : Nat := a * b / fxOne

/-- Terms k, k + 1, … of the series of e^y, summed: `t` is the current term. -/
def expSeries : Nat → Nat → Nat → Nat → Nat → Nat
  | 0, _, _, _, acc => acc
  | fuel + 1, y, k, t, acc => expSeries fuel y (k + 1) (fxMul t y / k) (acc + fxMul t y / k)

/-- e^y for 0 ≤ y < 1 in fixed point. -/
def fxExp (y : Nat) : Nat := expSeries 70 y 1 fxOne fxOne

/-- Terms of artanh t: t^(2k+1)/(2k+1); `p` is the current odd power at scale `one`. -/
def artanhSeries : Nat → Nat → Nat → Nat → Nat → Nat → Nat
  | 0, _, _, _, _, acc => acc
  | fuel + 1, one, t2, d, p, acc => artanhSeries fuel one t2 (d + 2) (p * t2 / one) (acc + p / d)

/-- artanh t for 0 ≤ t ≤ 1/3 in fixed point. -/
def fxArtanh (t : Nat) : Nat := artanhSeries 85 fxOne (fxMul t t) 1 t 0

/-- ln 2 = 2 artanh(1/3) in fixed point. -/
def fxLn2 : Nat := 2 * fxArtanh (fxOne / 3)

/-- Terms of arctan(1/n) at scale `one`, alternating: `p` is the current power. -/
def arctanSeries : Nat → Nat → Nat → Nat → Int → Int → Int
  | 0, _, _, _, _, acc => acc
  | fuel + 1, n2, d, p, sgn, acc => arctanSeries fuel n2 (d + 2) (p / n2) (-sgn) (acc + sgn * ((p / d : Nat) : Int))

/-- π/2 at scale 2^w, by Machin's formula with 64 guard bits. -/
def halfPi (w : Nat) : Nat :=
  let one := 2 ^ (w + 64)
  let a := arctanSeries ((w + 64) / 4) 25 1 (one / 5) 1 0
  let b := arctanSeries ((w + 64) / 14 + 8) (239 * 239) 1 (one / 239) 1 0
  ((8 * a - 2 * b) / 2 ^ 64).toNat

/-- A positive dyadic number in fixed point, rounded down. -/
def toFx (m : Nat) (e : Int) : Nat :=
  let k := e + fxW
  if k ≥ 0 then m * 2 ^ k.toNat else m / 2 ^ (-k).toNat

/-- e^z for a fixed-point integer z (scale 2^256, any sign): the fixed-point significand in [1, 2) and the power
of 2. -/
def expParts (z : Int) : Nat × Int :=
  let n := z / (fxLn2 : Int)
  (fxExp (z % (fxLn2 : Int)).toNat, n)

/-- Just below m · 2^e: a magnitude in the open interval under it, relative width 2^-80. -/
def justBelow (m : Nat) (e : Int) : Mag := { m := m * 2 ^ 80 - 1, e := e - 80, sticky := true }

/-- Just above or below 1, by sign. -/
def nearOne (above : Bool) : Mag :=
  if above then { m := 2 ^ 128, e := -128, sticky := true } else justBelow 1 0

/-- Exponent of the leading bit of m · 2^e. -/
def topExp (m : Nat) (e : Int) : Int := e + m.log2

/-- 2^x for x = ± m · 2^e, m > 0. -/
def magExp2 (neg : Bool) (m : Nat) (e : Int) : Mag :=
  if isInteger m e then
    (if topExp m e ≥ 13 then { m := 1, e := if neg then -8192 else 8192 }
     else
      let n : Int := (m * 2 ^ e.toNat / 2 ^ (-e).toNat : Nat)
      { m := 1, e := if neg then -n else n })
  else if topExp m e ≥ 13 then { m := 1, e := if neg then -8192 else 8192, sticky := true }
  else if topExp m e < -200 then nearOne (!neg)
  else
    let x : Int := toFx m e
    let z := if neg then -x else x
    let n := z / (fxOne : Int)
    let r := (z % (fxOne : Int)).toNat
    { m := fxExp (fxMul r fxLn2), e := n - fxW, sticky := true }

/-- e^x for x = ± m · 2^e, m > 0. -/
def magExp (neg : Bool) (m : Nat) (e : Int) : Mag :=
  if topExp m e ≥ 12 then { m := 1, e := if neg then -8192 else 8192, sticky := true }
  else if topExp m e < -200 then nearOne (!neg)
  else
    let x : Int := toFx m e
    let (s, n) := expParts (if neg then -x else x)
    { m := s, e := n - fxW, sticky := true }

/-- log2 of m · 2^e, m > 0: sign and magnitude. -/
def magLog2 (m : Nat) (e : Int) : Bool × Mag :=
  let l := m.log2
  if m = 2 ^ l then
    let k : Int := e + l
    (decide (k < 0), { m := k.natAbs, e := 0 })
  else
    -- f = m / 2^l in (1, 2); halve it when it exceeds 4/3
    let big := decide (3 * m ≥ 4 * 2 ^ l)
    let k : Int := e + l + (if big then 1 else 0)
    let den := 2 ^ (if big then l + 1 else l)
    let above := decide (m ≥ den)
    let t := (if above then m - den else den - m) * fxOne / (m + den)
    let lg : Int := 2 * fxArtanh t * fxOne / fxLn2
    let v : Int := k * fxOne + (if above then lg else -lg)
    (decide (v < 0), { m := v.natAbs, e := -(fxW : Int), sticky := true })

/-- Alternating Taylor terms of sine (from k = 1, t = r) or cosine (from k = 0, t = 1). -/
def trigSeries : Nat → Nat → Nat → Nat → Int → Int → Int
  | 0, _, _, _, _, acc => acc
  | fuel + 1, r2, k, t, sgn, acc =>
    trigSeries fuel r2 (k + 2) (fxMul t r2 / ((k + 1) * (k + 2))) (-sgn) (acc + sgn * (t : Int))

/-- Sine of 0 ≤ r < 1 in fixed point. -/
def fxSin (r : Nat) : Nat := (trigSeries 40 (fxMul r r) 1 r 1 0).toNat

/-- Cosine of 0 ≤ r < 1 in fixed point. -/
def fxCos (r : Nat) : Nat := (trigSeries 40 (fxMul r r) 0 fxOne 1 0).toNat

/-- Quadrant n mod 4 and the remainder x − n·π/2 in fixed point, |remainder| ≤ π/4, of a positive x. -/
def reduceTrig (m : Nat) (e : Int) : Nat × Int :=
  let extra := (max (topExp m e) 0).toNat + 16
  let w := fxW + extra
  let p := halfPi w
  let k := e + (w : Int)
  let x : Nat := if k ≥ 0 then m * 2 ^ k.toNat else m / 2 ^ (-k).toNat
  let n := (2 * x + p) / (2 * p)
  let r : Int := (x : Int) - (n * p : Nat)
  (n % 4, r / (2 ^ extra : Nat))

/-- Sine (`cosine` false) or cosine of ± m · 2^e, m > 0: sign and magnitude. -/
def magTrig (cosine : Bool) (neg : Bool) (m : Nat) (e : Int) : Bool × Mag :=
  if !cosine && decide (topExp m e < -60) then (neg, justBelow m e)
  else if cosine && decide (topExp m e < -100) then (false, justBelow 1 0)
  else
    let (n, r) := reduceTrig m e
    let q := if cosine then (n + 1) % 4 else n
    let useCos := q % 2 == 1
    let s : Nat := if useCos then fxCos r.natAbs else fxSin r.natAbs
    let rneg := !useCos && decide (r < 0)
    let qneg := q == 2 || q == 3
    let sgn := (rneg != qneg) != (neg && !cosine)
    (sgn, { m := s, e := -(fxW : Int), sticky := true })

/-- tanh of m · 2^e, m > 0: the magnitude. -/
def magTanh (m : Nat) (e : Int) : Mag :=
  if topExp m e < -60 then justBelow m e
  else if topExp m e ≥ 6 then { m := 2 ^ 170 - 1, e := -170, sticky := true }
  else
    let y : Int := 2 * toFx m e
    let (s, n) := expParts (-y)
    let u := s / 2 ^ (-n).toNat
    { m := (fxOne - u) * fxOne / (fxOne + u), e := -(fxW : Int), sticky := true }

/-- 1/√(m · 2^e), m > 0. -/
def magRsq (m : Nat) (e : Int) : Mag :=
  let m0 := if e % 2 = 0 then m else 2 * m
  let e0 : Int := if e % 2 = 0 then e else e - 1
  let s := isqrt (2 ^ 400 / m0)
  { m := s, e := -200 - e0 / 2, sticky := s * s * m0 != 2 ^ 400 }

/-- The exact result of an XFN function and its DZ flag (R145's table, R73). -/
def XfnOp.exact (op : XfnOp) (v : FVal) : Exact × Flags :=
  match v with
  | .nan n fr fb => if v.isSNan then (.invalid, 0) else (.nan n fr fb, 0)
  | .inf neg =>
    match op with
    | .exp2 | .exp => if neg then (.num false { m := 0, e := 0 }, 0) else (.inf false, 0)
    | .log2 => if neg then (.invalid, 0) else (.inf false, 0)
    | .sin | .cos => (.invalid, 0)
    | .tanh => (.num neg { m := 1, e := 0 }, 0)
    | .rsq => if neg then (.invalid, 0) else (.num false { m := 0, e := 0 }, 0)
    | .rcp => (.num neg { m := 0, e := 0 }, 0)
  | .fin neg m e =>
    if m = 0 then
      match op with
      | .exp2 | .exp | .cos => (.num false { m := 1, e := 0 }, 0)
      | .log2 => (.inf true, fDZ)
      | .sin | .tanh => (.num neg { m := 0, e := 0 }, 0)
      | .rsq | .rcp => (.inf neg, fDZ)
    else
      match op with
      | .exp2 => (.num false (magExp2 neg m e), 0)
      | .exp => (.num false (magExp neg m e), 0)
      | .log2 => if neg then (.invalid, 0) else (let (s, x) := magLog2 m e; (.num s x, 0))
      | .sin => (let (s, x) := magTrig false neg m e; (.num s x, 0))
      | .cos => (let (s, x) := magTrig true neg m e; (.num s x, 0))
      | .tanh => (.num neg (magTanh m e), 0)
      | .rsq => if neg then (.invalid, 0) else (.num false (magRsq m e), 0)
      | .rcp => (.num neg (divMag 1 m (-e)), 0)

/-- The mode that takes the neighbour of larger magnitude. -/
def awayMode (neg : Bool) : RMode := if neg then .rdn else .rup

/-- One XFN result (R145): correctly rounded below .f64; in .f64 an inexact result is the neighbour that
`Config.xfnAway` names, except where it overflows in the selected mode (R70). -/
def fpXfn (op : XfnOp) (f : Fmt) (r : RMode) (rule : OverflowRule) (x : Nat) : Nat × Flags :=
  let (ex, fl) := op.exact (f.decode x)
  let free : Option (Nat × Flags) :=
    match ex with
    | .num neg mg =>
      if f = .f64 ∧ (f.round r .final neg mg).2 &&& fNX ≠ 0 ∧ mg.e + mg.m.log2 ≤ f.emax then
        let r' := if Config.xfnAway op.code x r.toCode then awayMode neg else .rtz
        let (y, fy) := f.round r' .final neg mg
        some (if fy &&& fOF = 0 then (y, fy) else f.round r rule neg mg)
      else none
    | _ => none
  let (y, fl') := free.getD (ex.narrow f r rule)
  (y, fl ||| fl')

end Sys2Proof.Machine
end

