-- ==== Sys2Proof/Machine/State.lean ====
section
/-! DEFINITION. The state of a module: contexts, cores, hives, dies, partitions, launches, power, firmware and memory,
as plain data, and the state right after module reset. -/

namespace Sys2Proof.Machine

/-! ## Maps -/

/-- A finite map as a list of pairs; an absent key has the map's default. -/
abbrev Assoc (κ α : Type) := List (κ × α)

/-- The value at a key, or the default. -/
def lookup {κ α : Type} [DecidableEq κ] (d : α) (k : κ) : Assoc κ α → α
  | [] => d
  | (k', v) :: m => if k' = k then v else lookup d k m

/-- Set the value at a key. -/
def store {κ α : Type} [DecidableEq κ] (k : κ) (v : α) : Assoc κ α → Assoc κ α
  | [] => [(k, v)]
  | (k', v') :: m => if k' = k then (k, v) :: m else (k', v') :: store k v m

/-! ## Traps -/

/-- Trap causes in the order of their codes (04 Table 4.14); `none` is code 0. -/
inductive Cause where
  | none | illegal | privileged | misaligned | pageFault | access | fp | dataError | rasLimit | spillFull
  | engineFault | breakTrap
  deriving DecidableEq, Repr

/-- A trap to be taken: cause and TVAL. -/
structure Trap where
  cause : Cause
  tval : Word
  deriving DecidableEq, Repr

/-! ## Shipped work (06) -/

/-- Where a result lands. -/
inductive Dest where
  | s (r : Reg)
  | v (r : Reg)
  | p (r : BitVec 3)
  deriving DecidableEq, Repr

/-- The floating and conversion operations of the vector chapter (05), with what each needs of its instruction. -/
inductive FpOp where
  | arith (op : FArith) (f : Fmt)
  | fma (negProd negAdd : Bool) (f : Fmt)
  | minMax (max prop : Bool) (f : Fmt)
  | abs (f : Fmt)
  | neg (f : Fmt)
  | sgnj (f : Fmt)
  | cmp (cc : Nat) (f : Fmt)
  | classify (f : Fmt)
  | rint (f : Fmt)
  | dot2 (f : Fmt)
  | reduce (f : Fmt)
  | toFp (src dst : Fmt)
  | toInt (src : Fmt) (t : IntTy)
  | fromInt (t : IntTy) (dst : Fmt)
  | intToInt (src dst : IntTy)
  | dequant (q4 : Bool) (f : Fmt)
  | quant (q4 : Bool) (f : Fmt)
  | toScale
  | fromScale
  | xfn (op : XfnOp) (f : Fmt)
  deriving DecidableEq, Repr

/-- A floating job: the operation, its captured operands (a literal or scalar second operand is held in every lane),
mask, kept destination, rounding mode and SAT (06 R150, R151). A scalar job uses lane 0 alone. -/
structure FpJob where
  op : FpOp
  dest : Dest
  scalar : Bool
  a : VWord
  b : VWord
  c : VWord
  old : VWord
  mask : Word
  zero : Bool
  rm : BitVec 3
  sat : Bool
  deriving DecidableEq, Repr

/-- A shipped wide atomic (06 R156): operation code OP6, width in bytes, translated address with the partition's space tag
(Table 6.2), whether its scope is .hive (09 Table 9.6), operands, destination register of the old value, the address as the program
gave it, and FCTL.EN at issue. -/
structure WideAtomic where
  op : Nat
  size : Nat
  addr : Nat
  space : Nat
  hive : Bool
  a : BitVec 128
  b : BitVec 128
  d : Reg
  va : Word
  en : BitVec 6
  deriving DecidableEq, Repr

/-- What a packet asks the big core to do. -/
inductive ShipWork where
  | float (j : FpJob)
  | atomic (j : WideAtomic)
  deriving DecidableEq, Repr

/-- A ship packet, in flight to or in the guest issue queue (06 Table 6.2): sender, tag of its merge-queue entry,
whether the sender is held, whether its credit is the core's reserved one (R152), the die clock cycle it was sent or entered
the queue, whether it has reached the queue and waits to be admitted (R152), and whether it has aged (R153). -/
structure Packet where
  sender : CtxId
  tag : Nat
  held : Bool
  reserved : Bool
  work : ShipWork
  entered : Nat
  atQueue : Bool
  aged : Bool
  deriving DecidableEq, Repr

/-- A result on its way back: what lands where, the flags raised, and a trap for a held sender (06 R155 to R157). -/
structure Result where
  sender : CtxId
  tag : Nat
  held : Bool
  writes : List (Dest × VWord)
  flags : BitVec 6
  trap : Option Trap
  deriving DecidableEq, Repr

/-! ## A context (01 Table 1.2, 08 Table 8.1) -/

/-- An entry of the speculative-load table (04 R105): `va` is the address as the program gave it, `addr` the translated
one. -/
structure SpecEntry where
  reg : Reg
  va : Nat
  addr : Nat
  size : Nat
  valid : Bool
  deriving DecidableEq, Repr

/-- A context that waits in an instruction: the instruction, its deadline (the reference count at which it times
out, where it has one), the reference count at issue, and how far it got: 0 before a barrier arrival or a shipped
packet, 1 after it, 2 where it waits on replay order (20 R394). -/
structure Blocked where
  instr : Instr
  deadline : Option Nat
  issued : Nat
  phase : Nat
  deriving DecidableEq, Repr

/-- An engine timeline (11 R259): the number of the last completed command, the number of the last accepted one, and
the fault that stopped it (07 R188, 11 R262, 13 R312). -/
structure Timeline where
  value : Nat
  last : Nat
  fault : Option Trap
  deriving DecidableEq, Repr

/-- A message in a mailbox (13 Table 13.2). -/
structure Msg where
  payload : VWord
  source : BitVec 32
  tag : BitVec 16
  deriving DecidableEq, Repr

/-- A group membership (13 Table 13.2, R306): group, generation, index, size, rounds issued. -/
structure Membership where
  group : Nat
  gen : Nat
  index : Nat
  size : Nat
  round : Nat
  deriving DecidableEq, Repr

/-- An entry of the flag merge queue (06 R158): its tag, and its flags once its result has landed. -/
structure FlagEntry where
  tag : Nat
  flags : Option (BitVec 6)
  deriving DecidableEq, Repr

/-- YIELD (08 R198): contexts of the yield set that have not issued since, and the core cycle at which it ends. -/
structure YieldWait where
  waiting : List (Fin 11)
  limit : Nat
  deriving DecidableEq, Repr

/-- State of one context. `creditWait` says that its next instruction waits to issue for a ship credit (06 R152),
`nextIssue` is the first core cycle in which it may issue again (01 R17, 19 R380), and `wakeAt` the die clock cycle in which it
issues after the release it waited for (12 R274). -/
structure Context where
  s : Vector Word 32
  v : Vector VWord 32
  p : Vector Word 8
  pc : Word
  sup : Bool
  fctl : Word
  tvec : Word
  tinh : Bool
  tpm : Bool
  tlen : BitVec 2
  tcode : BitVec 6
  tpc : Word
  tval : Word
  tscr : Word
  rasp : Word
  rasl : Word
  rasn : BitVec 32
  ras : List Word
  spillBase : Word
  spillLimit : Word
  spec : List SpecEntry
  tags : Vector (BitVec 3) 32
  dist : Vector Word 4
  work : Word
  lampcls : BitVec 3
  live : Bool
  blocked : Option Blocked
  stopped : Bool
  parked : Bool
  yielding : Option YieldWait
  copyTl : Timeline
  matTl : Timeline
  collTl : Timeline
  batches : List Nat
  mailbox : List Msg
  groups : List Membership
  takes : Nat
  pendS : BitVec 32
  pendV : BitVec 32
  pendP : BitVec 8
  flagQueue : List FlagEntry
  nextTag : Nat
  pendingTrap : Option (Trap × Option (BitVec 2))
  creditWait : Bool
  nextIssue : Nat
  wakeAt : Option Nat
  throttle : Word
  deriving DecidableEq, Repr

/-! ## A core (08 Table 8.1, 11 Table 11.1, 12 Table 12.1, 13 Table 13.2) -/

/-- A tile load in progress (11 R266): the translations taken at the touch, and the touching context. -/
structure TileLoad where
  pages : List (Nat × Nat)
  toucher : CtxId
  deriving DecidableEq, Repr

/-- WINn: the status word of Table 11.5, the bound layout record, the load in progress, and a trap of the load to be
taken by the touching context (R266). -/
structure Window where
  word : Word
  record : BitVec 1024
  load : Option TileLoad
  fault : Option (CtxId × Trap)
  deriving DecidableEq, Repr

/-- What a barrier token or release says about the arrivals it covers (12 R275). -/
inductive ArrivalKind where
  | compute | transfer | mixed
  deriving DecidableEq, Repr

/-- A token or release on the core-mesh wires: rectangle fields (BGn<29:0>), GEN<0> and kind (12 R275). -/
structure Token where
  rect : BitVec 30
  gen0 : Bool
  kind : ArrivalKind
  deriving DecidableEq, Repr

/-- BGn (12 Table 12.1) and the barrier logic's own state of it: broken (R275), the kind of this member's
arrival, the received tokens not yet used (from the west and from the north), what of its row and column has been
sent, the cycle in which a pending release starts the phase, with its kind (R274), and whether a compute release that has reached
this member is withheld until its class is restored (R277). -/
structure Barrier where
  word : Word
  broken : Bool
  arrival : Option ArrivalKind
  fromWest : Option Token
  fromNorth : Option Token
  sent : Bool
  startAt : Option Nat
  startKind : ArrivalKind
  withheld : Bool
  deriving DecidableEq, Repr

/-- A wire latch (12 R278); `arrived` is the transfer cycle at whose start its word arrived. -/
structure Latch where
  word : Word
  v : Bool
  u : Bool
  overrun : Bool
  arrived : Nat
  deriving DecidableEq, Repr

/-- An open transfer phase (12 R278, R279): its barrier and rectangle, its first die clock cycle R, the routes (`none` is OFF,
`some d` is PASS(d)) and latches in the order N, E, S, W, whether a schedule violation of a fenced neighbour ends it
(20 R391), and the count t at which it was halted (R281). -/
structure Transfer where
  bg : Fin 4
  rect : BitVec 30
  start : Nat
  routes : Vector (Option Dir) 4
  latches : Vector Latch 4
  violated : Bool
  halted : Option Nat
  deriving DecidableEq, Repr

/-- A message in a send buffer (13 R304): its launch, sender, rank addressed, and the message. -/
structure OutMsg where
  launch : Nat
  sender : CtxId
  rank : Nat
  msg : Msg
  deriving DecidableEq, Repr

/-- What a core does (17 R339, 18 R370, R373, 20 R391). `halting` is a core that a pre-emption request has reached. -/
inductive CoreStatus where
  | idle | running | halting | halted | saved | off | fenced
  deriving DecidableEq, Repr

/-- The launch and stage a core runs. -/
structure Job where
  launch : Nat
  stage : Nat
  deriving DecidableEq, Repr

/-- A cached translation (17 R352): the virtual page's first address, its size as a power of two, its leaf entry. -/
structure TlbEntry where
  page : Nat
  log : Nat
  pte : Word
  deriving DecidableEq, Repr

/-- A line that an L1 holds (10 R242): its number, its way (16 R335), whether it is held exclusive, and whether it is dirty. -/
structure L1Line where
  line : Nat
  way : Nat
  own : Bool
  dirty : Bool
  deriving DecidableEq, Repr

/-- State of one core. `within` is how much of the present core cycle has passed, in die clock cycles; `scalarAt` and `vectorAt`
are the core cycles in which its issue slots were last filled, `scalarTurn` and `vectorTurn` their round-robin pointers (01 R17);
`hbMissed` says that the heartbeat timer has reached its interval (04 R113), `windowTicks` how far the window of 18 R377 has
come; `lanes` holds the core cycle in which each vector lane was last active (18 R379), and `pinned` the cache lines kept for a
transfer phase (19 R380). -/
structure Core where
  status : CoreStatus
  requested : Bool
  saveWanted : Bool
  fencing : Bool
  job : Option Job
  ctxs : Vector Context 11
  cycles : Nat
  within : Nat
  scalarAt : Option Nat
  vectorAt : Option Nat
  scalarTurn : Nat
  vectorTurn : Nat
  divider : Nat
  dividerKept : Nat
  dividerNext : Option Nat
  hbTimer : Nat
  hbMissed : Bool
  hbint : BitVec 32
  ovfring : Word
  ovfTop : Nat
  deque : List (BitVec 256)
  steal : Word
  probe : Option CoreId
  sendBuf : List OutMsg
  wins : Vector Window 8
  bgs : Vector Barrier 4
  transfer : Option Transfer
  creditReserved : Bool
  creditsPooled : Nat
  icache : List (Nat × Byte)
  l1 : List L1Line
  tlb : List TlbEntry
  sensB : Nat
  sensK : Nat
  sensM : Nat
  parkedSince : Option Nat
  holdSince : Option Nat
  forcedPark : Bool
  windowTicks : Nat
  droop : Option Nat
  lanes : List (Nat × Nat)
  pinned : List Nat
  deriving DecidableEq, Repr

/-! ## A hive: the matrix engine, the block-transfer engine, the guest issue queue (06, 07, 11) -/

/-- Slot kinds (07 R164). -/
inductive AccKind where
  | ax36 | f64 | i48
  deriving DecidableEq, Repr

/-- An accumulator slot (07 Table 7.1): owner, kind, sticky status, whether its contents hold an uncorrectable error
(07 R188), and 4,096 elements in row order; an element past the array's end is 0. -/
structure Slot where
  owner : Option CtxId
  kind : AccKind
  nv : Bool
  nx : Bool
  sx : Bool
  nf : Bool
  fault : Bool
  bad : Bool
  elems : Array Word
  deriving DecidableEq, Repr

/-- A quantisation descriptor (07 R179): record base, absolute and as the program gave it, pitch, group size G, and whether codes
are .q4. -/
structure QDesc where
  base : Word
  shown : Word
  pitch : Nat
  g : Nat
  q4 : Bool
  deriving DecidableEq, Repr

/-- A multicast fetch of a product's next step (07 R184): the cycle it was issued, the bytes of A and of B as they were then, and
whether what it merges with is decided, for each. -/
structure Fetch where
  since : Nat
  a : List (Nat × Byte)
  b : List (Nat × Byte)
  gotA : Bool
  gotB : Bool
  deriving DecidableEq, Repr

/-- An accepted matrix command (07 R165): number, opcode FN, MOD, E1 and E2 fields, operand values, captured FCTL.EN,
the descriptor a TMMAQ uses, translations by 16 KiB page, and its progress: the next step, block partials or the exact
contribution so far (AX36 patterns or exact integers), flags raised so far, the group records read so far, by group (07 R169), its
multicast fetch (07 R184) and, for TDRAIN, the handlers still running (07 R186). -/
structure MatCmd where
  seq : Nat
  fn : Nat
  mode : BitVec 4
  acc : Fin 16
  classical : Bool
  sat : Bool
  msel : BitVec 2
  mcast : BitVec 4
  k : Nat
  zp : Nat
  a : Word
  b : Word
  c : Word
  en : BitVec 6
  desc : Option QDesc
  pages : List (Nat × Nat)
  step : Nat
  parts : Array Int
  flags : BitVec 6
  groups : Assoc Nat (List Nat)
  fetch : Option Fetch
  handlers : List (Fin 11)
  deriving DecidableEq, Repr

/-- A matrix context (07 R163): the commands accepted and not complete, oldest first, and the descriptor. -/
structure MatCtx where
  queue : List MatCmd
  desc : Option QDesc
  deriving DecidableEq, Repr

/-- What a write-out read from its window's range: the bytes, and the offsets of faulty ones (11 R267, 20 R385). -/
structure Snapshot where
  bytes : Array Byte
  bad : List Nat
  deriving DecidableEq, Repr

/-- Something accepted or shipped earlier that has yet to write where a write-out reads (11 R267): a copy command or a matrix command,
by context and number, or a wide atomic, by sender and tag. -/
inductive Earlier where
  | copy (c : CtxId) (seq : Nat)
  | matrix (c : CtxId) (seq : Nat)
  | atomic (c : CtxId) (tag : Nat)
  deriving DecidableEq, Repr

/-- What an accepted copy command does (11 R258, R260, R267): a copy of its record, a batch seal, or a window write-out: the
range's first address and size, what it must read after, and what it read, once it has. -/
inductive CopyKind where
  | copy
  | seal
  | writeOut (win : Fin 8) (base size : Nat) (after : List Earlier) (data : Option Snapshot)
  deriving DecidableEq, Repr

/-- An accepted copy command (11 R258): number, kind, record with absolute addresses, translations by page, and the
elements moved so far. -/
structure CopyCmd where
  seq : Nat
  kind : CopyKind
  record : BitVec 1024
  pages : List (Nat × Nat)
  done : Nat
  deriving DecidableEq, Repr

/-- A cached pointer of levels 3 to 1 (17 R352): level, the index prefix it serves, the pointer entry. -/
structure PtrEntry where
  level : Nat
  pre : Nat
  pte : Word
  deriving DecidableEq, Repr

/-- A weak read that is outstanding (10 R241): its context, the 64-byte pieces it reads by their physical addresses, and their
values when it was issued. -/
structure WeakRead where
  reader : CtxId
  pieces : List Nat
  values : List Nat
  deriving DecidableEq, Repr

/-- State of one hive. GSHARE is held as its fields M and K; `gshareNext` lists the writes on their way, oldest first, with the
cycle each was made (06 R153). `creditTurn` is the core index whose turn at the pool is next, `admitTurn` the one whose packet
the queue takes next, `admitted` the packets it took in a die clock cycle (06 R152); `matTurn` and `copyTurn` are the matrix and copy
contexts whose turn at their engine is next (07 R166, 11 R252). `issued` and `guests` are what issued in
the big core's cycle `slotCycle`: its own contexts and guest entries (06 R153). `split` is the array split n and the launch that set it (16 R335); `enginesOff` says that its
engines are switched off (18 R373), `weakReads` are those of its cores' contexts that are outstanding (10 R241), and `replies` the data replies on their way to its
L1s, by core and line (10 R250). -/
structure Hive where
  owner : Option Nat
  slots : Vector Slot 16
  mats : Assoc CtxId MatCtx
  copies : Assoc CtxId (List CopyCmd)
  arriving : List Packet
  queue : List Packet
  results : List Result
  pooled : Nat
  gshareM : Nat
  gshareK : Nat
  gshareNext : List (Nat × Nat × Nat)
  creditTurn : Nat
  admitTurn : Nat
  matTurn : Nat
  copyTurn : Nat
  admitted : Nat × Nat
  slotCycle : Nat
  issued : List (Fin 11)
  guests : Nat
  split : Nat
  splitBy : Option Nat
  enginesOff : Bool
  weakReads : List WeakRead
  replies : List (CoreId × Nat)
  tlb : List TlbEntry
  ptrs : List PtrEntry
  deriving DecidableEq, Repr

/-! ## A die: directory, messages, repair maps, key slots, log, power segments (10, 17, 18, 20) -/

/-- STATE of a directory entry (10 Table 10.3). -/
inductive DirState where
  | uncached | shared | exclusive | busy
  deriving DecidableEq, Repr

/-- A request for a line at its home or proxy slice (10 R248): a read miss or an ownership request of a core of the die, or what
a message from another die asks for, by sender and message number (R234). -/
inductive LineReq where
  | read (k : CoreId)
  | own (k : CoreId)
  | far (src no : Nat)
  deriving DecidableEq, Repr

/-- A home or proxy directory entry (10 Table 10.3, R248): state, form (`coarse` is FORM = 1), pointers in order,
coarse vector, replica slice of a proxy entry, DV of a home entry, the hives whose acknowledgement is awaited, the data replies
that the slice sent those hives before the invalidation and that were still on their way then (R250), and the requests waiting at a
busy entry, in arrival order; the first is the one being served. -/
structure DirEntry where
  state : DirState
  coarse : Bool
  ptrs : List Nat
  groups : BitVec 64
  replica : Option Nat
  dv : BitVec 36
  acks : List HiveId
  behind : List (CoreId × Nat)
  waiting : List LineReq
  deriving DecidableEq, Repr

/-- What a cross-die message carries (10 R234): a write, an invalidation, an atomic or a read request for a global line, of a core's L1
or of an engine that keeps no copy, an access to a core's local memory or a hive's scratch, or a clock beat. -/
inductive XKind where
  | write (line : Nat)
  | invalidate (line : Nat)
  | atomic (line : Nat)
  | readRequest (line : Nat) (k : CoreId)
  | engineRead (line : Nat)
  | localAccess (k : CoreId)
  | beat (no : Nat)
  deriving DecidableEq, Repr

/-- A cross-die message: sending die, its message number, the sender's vector clock, and what it carries. -/
structure XMsg where
  src : Nat
  no : Nat
  clock : List Nat
  kind : XKind
  deriving DecidableEq, Repr

/-- A barrier token or release, or a wire word, on its way one hop: the core and register it reaches, the direction it
comes from, and the cycle it arrives in (12 R273, R274, R278). -/
structure Flight (α : Type) where
  dest : CoreId
  bg : Fin 4
  from_ : Dir
  due : Nat
  load : α
  deriving DecidableEq, Repr

/-- HREMAP or SREMAP entry (20 Tables 20.2, 20.3). -/
structure Remap where
  valid : Bool
  abs : Bool
  phys : Nat
  deriving DecidableEq, Repr

/-- STATE of a key slot (17 Table 17.9). -/
inductive KeyState where
  | empty | loaded | default
  deriving DecidableEq, Repr

/-- A key slot (17 Table 17.9). -/
structure KeySlot where
  state : KeyState
  part : Option Nat
  keyid : BitVec 32
  key : BitVec 512
  deriving DecidableEq, Repr

/-- A voltage segment (18 Tables 18.9, 18.10): DDCTL, the level in hundredths of a volt, the lane wakes of the last die clock
cycles with their numbers, and whether they have tripped the detector (18 R379). -/
structure Segment where
  ddctl : Word
  level : Nat
  wakes : List (Nat × Nat)
  tripDue : Bool
  deriving DecidableEq, Repr

/-- A direction's link: lanes failed, and whether it is down (20 R386). -/
structure Link where
  failed : Nat
  down : Bool
  deriving DecidableEq, Repr

/-- State of one die; `errCounts` are the errors of each class that firmware has counted (20 R389). -/
structure Die where
  sliceOwner : Assoc Nat Nat
  l2split : Assoc Nat Word
  home : Assoc Nat DirEntry
  proxy : Assoc Nat DirEntry
  msgNo : Nat
  clock : Assoc Nat Nat
  inbox : List XMsg
  unbeaten : List Nat
  tokens : List (Flight Token)
  releases : List (Flight (Token × Nat))
  wires : List (Flight Word)
  hremap : Assoc Nat Remap
  sremap : Assoc Nat Remap
  krange : Assoc Nat (BitVec 128)
  keys : Assoc Nat KeySlot
  errlog : List (BitVec 128)
  errCounts : Assoc Nat Nat
  segments : Assoc (Nat × Nat) Segment
  links : Assoc Dir Link
  switchOns : List Nat
  deriving DecidableEq, Repr

/-! ## Partitions and launches (13, 16, 17, 20, 21) -/

/-- Who submitted a packet (16 R337): a doorbell, or a fabric source address. -/
inductive Source where
  | doorbell
  | fabric (addr : Nat)
  deriving DecidableEq, Repr

/-- A queued launch packet, 1,408 bytes (16 R322). -/
structure Queued where
  packet : BitVec 11264
  source : Source
  deriving DecidableEq, Repr

/-- A pending shootdown request (17 R353): first page address, page count, whole address space, the requester, and
whether it has a range to serve (a bad request completes with no effect). -/
structure Shootdown where
  va : Nat
  npg : Nat
  all : Bool
  by_ : CtxId
  bad : Bool
  deriving DecidableEq, Repr

/-- A held submission of a STP that waits for a free request place has no entry here: its context is blocked. State of
one partition (17 Table 17.7, 16 Table 16.8, 20 Table 20.7, 21 R400). -/
structure Partition where
  live : Bool
  ptroot : Nat
  imgbase : Assoc Nat Nat
  nqbase : Nat
  nql : Nat
  sdport : Nat
  supervisor : Option (BitVec 32)
  fpol : Bool
  pdump : Nat
  rmode : BitVec 2
  recNext : Option (BitVec 2 × Nat × Nat × Nat)
  rbase : Nat
  rsize : Nat
  rhead : Nat
  rseq : Assoc (Nat × Nat) Nat
  applied : List Nat
  truncated : Bool
  replayTo : Nat
  lastApplied : Nat
  queues : Assoc Nat (List Queued)
  skip : Assoc Nat Nat
  lottery : Word
  forced : Option Nat
  armed : Bool
  freed : Bool
  lastDraw : Option Nat
  dbdrop : Nat
  fabric : List Nat
  heldNotices : List (BitVec 256)
  requests : List Shootdown
  reqn : Nat
  donen : Nat
  outOfUse : Bool
  deriving DecidableEq, Repr

/-- A core group (16): one row of 8 little cores of a hive (`row` 0 to 3), or one big core. -/
structure Group where
  big : Bool
  hive : HiveId
  row : Nat
  deriving DecidableEq, Repr

/-- A stage of a resident launch: its allotment in placement order, the units of a pool stage by number (each named by
its place in placement order, 16 R326), its work count C (13 R287), the control contexts started and not ended, and whether it has completed. -/
structure Stage where
  alloc : List Group
  units : Assoc Nat Nat
  work : Nat
  running : List CoreId
  done : Bool
  deriving DecidableEq, Repr

/-- A ring (13 Table 13.6): the frontiers and, per ticket in use, the published and done marks, with the context that
reserved or took the ticket (13 Table 13.5 reason 5). -/
structure Ring where
  res : Nat
  take : Nat
  pubf : Nat
  donef : Nat
  published : List Nat
  done : List Nat
  reserved : Assoc Nat CtxId
  taken : Assoc Nat CtxId
  closed : Bool
  deriving DecidableEq, Repr

/-- A rank table entry (13 R302); `ended` says that a later control context has started in the place of its own (16 R327). -/
structure RankEntry where
  ctx : CtxId
  transit : Bool
  ended : Bool
  deriving DecidableEq, Repr

/-- A member's part in a collective round (13 R307): member, its round, sequence number, rule, contribution and
destination (translated pages included). -/
structure CollPart where
  ctx : CtxId
  index : Nat
  round : Nat
  seq : Nat
  mode : BitVec 4
  value : VWord
  dst : Word
  pages : List (Nat × Nat)
  deriving DecidableEq, Repr

/-- A group id of a launch (13 R306, R309): generation, size set by the first join, members joined (context, index),
whether the joins mismatch, the parts not yet complete, and the members that have freed. -/
structure GroupId where
  gen : Nat
  size : Nat
  members : List (CtxId × Nat)
  mismatch : Bool
  parts : List CollPart
  frees : List CtxId
  deriving DecidableEq, Repr

/-- A SPAWNAT packet in flight (13 R292). -/
structure SpawnPacket where
  dest : CoreId
  by_ : CtxId
  record : BitVec 256
  deriving DecidableEq, Repr

/-- A resident launch (16 R322 to R337). `samples` holds, per ring, whether the last sample met the high and the low
condition (R332); `moves` the decided moves (ring, donor, recipient). -/
structure Launch where
  part : Nat
  source : Source
  packet : BitVec 11264
  stages : List Stage
  rings : Assoc Nat Ring
  ranks : List RankEntry
  groups : Assoc Nat GroupId
  samples : Assoc Nat (Bool × Bool)
  moves : List (Nat × Nat × Nat)
  sampled : Nat
  deriving DecidableEq, Repr

/-! ## Power, firmware, the fence sequencer (18, 21, 10) -/

/-- The values that PWR_SET and CURVE_SET have written: PWRCFG, PWRTIME, DVCFG, the curve, and the DDCTL of segments (18 R366, 21 R399). -/
structure PowerSet where
  cfg : Word
  time : Word
  dvcfg : Word
  curve : Vector Word 8
  ddctl : List (SegId × Word)
  deriving DecidableEq, Repr

/-- Module power state (18 R363 to R369, Tables 18.3 to 18.5, 18.8); `next` are settings written and not in force yet (R366). -/
structure Power where
  cfg : Word
  time : Word
  curve : Vector Word 8
  dvcfg : Word
  active : Nat
  target : Nat
  tripped : BitVec 8
  freq : Nat
  vbus : Nat
  seq : Option (BitVec 32)
  lastValid : Nat
  loss : Bool
  frames : Nat
  invalid : Nat
  changed : Nat
  shelfKey : Option (BitVec 256)
  next : Option PowerSet
  deriving DecidableEq, Repr

/-- One copy of the configuration block (21 R402): its bytes. -/
structure ConfigCopy where
  block : List Byte
  deriving DecidableEq, Repr

/-- An open SPDM session and its key transfer (17 R361, R362). -/
structure KeyOpen where
  part : Nat
  dies : List Nat
  slot : Nat
  keyid : BitVec 32
  pair : BitVec 512
  cipher : List Byte
  wrapped : List Byte
  deriving DecidableEq, Repr

/-- A session: its transcript hash, whether FINISH has been accepted, key generation count, and the open transfer. -/
structure Session where
  transcript : BitVec 256
  finished : Bool
  updates : Nat
  opened : Option KeyOpen
  deriving DecidableEq, Repr

/-- A dump (20 R390): scope (`none` for the module), cause, time, dies involved, and its bytes. -/
structure Dump where
  part : Option Nat
  cause : Nat
  time : Nat
  dies : BitVec 36
  bytes : List Byte
  deriving DecidableEq, Repr

/-- Nerdigar's state (21). `sent` lists what left the module for the host or a fabric node, newest last: the bytes of logs and
dumps with the host address they go to, residency reports with the fabric address (16 R337), answers to requests with none.
`changing` is a PART_RELEASE or PART_DESTROY that runs (R399). -/
structure Firmware where
  mbcq : Word
  mbcp : BitVec 32
  mbcc : BitVec 32
  mbeq : Word
  mbep : BitVec 32
  mbec : BitVec 32
  ready : Bool
  stage : Nat
  msix : Nat
  events : List (BitVec 512)
  heldEvents : List (BitVec 512)
  lost : Nat
  vf : Assoc Nat Nat
  copyA : ConfigCopy
  copyB : ConfigCopy
  tookB : Bool
  staged : Bool
  rollback : Nat
  sessions : Assoc Nat Session
  nextSession : Nat
  sent : List (Option Nat × List Byte)
  dumps : List Dump
  changing : Option Cmd
  deriving DecidableEq, Repr

/-- A waiting fence (10 R235): its context, and its die's message number and counters as they stood when step 1 ended. -/
structure FenceWait where
  ctx : CtxId
  msgNo : Nat
  clock : List Nat
  deriving DecidableEq, Repr

/-- The fence sequencer (10 R235): the tickets handed out and finished, and the fences waiting. -/
structure FenceSeq where
  ticket : Nat
  waiting : List FenceWait
  deriving DecidableEq, Repr

/-! ## The machine -/

/-- What the environment makes the next step be: a context's issue, an event, the passing of time in die clock cycles and reference
ticks, a fill of a cache that the hardware may make at any time (17 R352, 02 R32), a command entry of the ring, a read by the host, an
SPDM request the responder does not support (21 R395, R396, 17 R361), or the repair of a slice (20 R388). -/
inductive Turn where
  | issue (c : CtxId)
  | occur (i : Instr)
  | elapse (cycles ticks : Nat)
  | fillTlb (k : CoreId) (hiveLevel : Bool) (va : Nat)
  | fillCode (k : CoreId) (addr : Nat)
  | dropCode (k : CoreId) (addr : Nat)
  | command (entry : BitVec 512)
  | hostRead (fn bar off : Nat)
  | unsupportedRequest
  | repairSlice (die slice : Nat)
  deriving DecidableEq, Repr

/-- The whole module. -/
structure State where
  cores : Assoc CoreId Core
  hives : Assoc HiveId Hive
  dies : Assoc Nat Die
  parts : Assoc Nat Partition
  launches : Assoc Nat Launch
  nextLaunch : Nat
  spawns : List SpawnPacket
  power : Power
  fw : Firmware
  fence : FenceSeq
  refCount : Nat
  dieCycle : Nat
  mem : List Host.Cell
  poisoned : List Nat
  badRegs : List (CtxId × Dest)
  cur : CtxId
  agenda : List Turn
  free : Nat
  deriving DecidableEq, Repr

/-! ## Ways to stop -/

/-- Faults: the machine cannot go on. -/
inductive Fault where
  /-- The acting context names no core of the module (01 R13, R16). Raised by the step for a turn of such a context.
  Safe: the hardware has no such core, so nothing is left out. -/
  | noSuchCore
  deriving DecidableEq, Repr

/-- Refusals: the model has no meaning for what happens. -/
inductive Refusal where
  /-- The instruction has no meaning yet. Raised by the dispatcher's refused arms. Safe: nothing is claimed. -/
  | notModelled (mnemonic : String)
  deriving DecidableEq, Repr

/-! ## Reset -/

/-- A timeline at 0 (11 R259). -/
def Timeline.reset : Timeline := { value := 0, last := 0, fault := none }

/-- FCTL's Reset value: RM = 001, everything else 0 (03 R77). -/
def fctlReset : Word := 0x10000#64

/-- A context after module reset: not live; registers without a reset value hold 0 (log 1). -/
def Context.reset : Context where
  s := Vector.replicate 32 0
  v := Vector.replicate 32 0
  p := Vector.replicate 8 0
  pc := 0
  sup := false
  fctl := fctlReset
  tvec := 0
  tinh := false
  tpm := false
  tlen := 0
  tcode := 0
  tpc := 0
  tval := 0
  tscr := 0
  rasp := 0
  rasl := 0
  rasn := 0
  ras := []
  spillBase := 0
  spillLimit := 0
  spec := []
  tags := Vector.replicate 32 3
  dist := Vector.replicate 4 0
  work := 0
  lampcls := 0
  live := false
  blocked := none
  stopped := false
  parked := false
  yielding := none
  copyTl := Timeline.reset
  matTl := Timeline.reset
  collTl := Timeline.reset
  batches := []
  mailbox := []
  groups := []
  takes := 0
  pendS := 0
  pendV := 0
  pendP := 0
  flagQueue := []
  nextTag := 0
  pendingTrap := none
  creditWait := false
  nextIssue := 0
  wakeAt := none
  throttle := 0

/-- An unbound window (11 Table 11.5). -/
def Window.reset : Window := { word := 0, record := 0, load := none, fault := none }

/-- An unbound barrier register (12 Table 12.1). -/
def Barrier.reset : Barrier where
  word := 0
  broken := false
  arrival := none
  fromWest := none
  fromNorth := none
  sent := false
  startAt := none
  startKind := .compute
  withheld := false

/-- A core after module reset. -/
def Core.reset : Core where
  status := .idle
  requested := false
  saveWanted := false
  fencing := false
  job := none
  ctxs := Vector.replicate 11 Context.reset
  cycles := 0
  within := 0
  scalarAt := none
  vectorAt := none
  scalarTurn := 0
  vectorTurn := 0
  divider := 1
  dividerKept := 1
  dividerNext := none
  hbTimer := 0
  hbMissed := false
  hbint := 0
  ovfring := 0
  ovfTop := 0
  deque := []
  steal := 0
  probe := none
  sendBuf := []
  wins := Vector.replicate 8 Window.reset
  bgs := Vector.replicate 4 Barrier.reset
  transfer := none
  creditReserved := false
  creditsPooled := 0
  icache := []
  l1 := []
  tlb := []
  sensB := 0
  sensK := 0
  sensM := 0
  parkedSince := none
  holdSince := none
  forcedPark := false
  windowTicks := 0
  droop := none
  lanes := []
  pinned := []

/-- A free slot with status 0 (07 Table 7.9). -/
def Slot.reset : Slot where
  owner := none
  kind := .ax36
  nv := false
  nx := false
  sx := false
  nf := false
  fault := false
  bad := false
  elems := #[]

/-- A matrix context with no command and no descriptor (07 R179). -/
def MatCtx.reset : MatCtx := { queue := [], desc := none }

/-- A hive after module reset: no owner (17 R355), 32 pooled credits (06 R152), GSHARE M = 2 and K = 1 (06 Table 6.3). -/
def Hive.reset : Hive where
  owner := none
  slots := Vector.replicate 16 Slot.reset
  mats := []
  copies := []
  arriving := []
  queue := []
  results := []
  pooled := 32
  gshareM := 2
  gshareK := 1
  gshareNext := []
  creditTurn := 0
  admitTurn := 0
  matTurn := 0
  copyTurn := 0
  admitted := (0, 0)
  slotCycle := 0
  issued := []
  guests := 0
  split := 0
  splitBy := none
  enginesOff := false
  weakReads := []
  replies := []
  tlb := []
  ptrs := []

/-- A directory entry at reset (10 Table 10.3). -/
def DirEntry.reset : DirEntry where
  state := .uncached
  coarse := false
  ptrs := []
  groups := 0
  replica := none
  dv := 0
  acks := []
  behind := []
  waiting := []

/-- An empty key slot (21 R403 step 5). -/
def KeySlot.reset : KeySlot := { state := .empty, part := none, keyid := 0, key := 0 }

/-- A segment at reset: DDCTL as Table 18.10 gives it, no core powered, so the retention level (18 R378). -/
def Segment.reset : Segment := { ddctl := 0x8000000000284018#64, level := 45, wakes := [], tripDue := false }

/-- A working link. -/
def Link.reset : Link := { failed := 0, down := false }

/-- L2SPLIT at reset: REPL = 1, HOMEW = 12 (10 Table 10.2). -/
def l2splitReset : Word := 0x1c#64

/-- A die after module reset. -/
def Die.reset : Die where
  sliceOwner := []
  l2split := []
  home := []
  proxy := []
  msgNo := 0
  clock := []
  inbox := []
  unbeaten := []
  tokens := []
  releases := []
  wires := []
  hremap := []
  sremap := []
  krange := []
  keys := []
  errlog := []
  errCounts := []
  segments := []
  links := []
  switchOns := []

/-- A partition that does not exist (17 R355). -/
def Partition.reset : Partition where
  live := false
  ptroot := 0
  imgbase := []
  nqbase := 0
  nql := 4
  sdport := 0
  supervisor := none
  fpol := false
  pdump := 0
  rmode := 0
  recNext := none
  rbase := 0
  rsize := 0
  rhead := 0
  rseq := []
  applied := []
  truncated := false
  replayTo := 0
  lastApplied := 0
  queues := []
  skip := []
  lottery := 1
  forced := none
  armed := false
  freed := false
  lastDraw := none
  dbdrop := 0
  fabric := []
  heldNotices := []
  requests := []
  reqn := 0
  donen := 0
  outOfUse := false

/-- A ring as admission makes it (13 R299). -/
def Ring.reset : Ring where
  res := 0
  take := 0
  pubf := 0
  donef := 0
  published := []
  done := []
  reserved := []
  taken := []
  closed := false

/-- A free group id at generation 0 (13 R309). -/
def GroupId.reset : GroupId where
  gen := 0
  size := 0
  members := []
  mismatch := false
  parts := []
  frees := []

/-- Power state at reset (18 Tables 18.3 to 18.5, 18.8; A = 8 since PWRCFG.EN = 0). -/
def Power.reset : Power where
  cfg := 0x186464000000c350#64
  time := 0x02faf08000061a80#64
  curve := Vector.replicate 8 0
  dvcfg := 0xc04007#64
  active := 8
  target := 8
  tripped := 0
  freq := 0
  vbus := 0
  seq := none
  lastValid := 0
  loss := false
  frames := 0
  invalid := 0
  changed := 0
  shelfKey := none
  next := none

/-- Firmware after boot: MBST.READY = 1, STAGE = 6 (21 R403); the configuration copies are log 1's choice. -/
def Firmware.reset : Firmware where
  mbcq := 0
  mbcp := 0
  mbcc := 0
  mbeq := 0
  mbep := 0
  mbec := 0
  ready := true
  stage := 6
  msix := 0
  events := []
  heldEvents := []
  lost := 0
  vf := []
  copyA := { block := Config.flash }
  copyB := { block := [] }
  tookB := false
  staged := false
  rollback := 0
  sessions := []
  nextSession := 0
  sent := []
  dumps := []
  changing := none

/-- The control context of core 0:0:0. -/
def core0 : CtxId := { core := { big := false, die := 0, row := 0, col := 0 }, num := 0 }

/-- The machine right after module reset (21 R403): counts at 0, memory cleared, nothing owned, no context live. -/
def State.reset : State where
  cores := []
  hives := []
  dies := []
  parts := []
  launches := []
  nextLaunch := 0
  spawns := []
  power := Power.reset
  fw := Firmware.reset
  fence := { ticket := 0, waiting := [] }
  refCount := 0
  dieCycle := 0
  mem := []
  poisoned := []
  badRegs := []
  cur := core0
  agenda := []
  free := 0

end Sys2Proof.Machine
end

