-- ==== Sys2Proof/Machine/Memory.lean ====
section
/-! DEFINITION. The one memory of the model: bytes keyed by resolved address. A resolved address is a physical
address, an absolute local address or a scratch address (08 R204), as a number. The list is sorted by address and
lists no zero byte; an address it does not list reads 0 (21 R403 step 5, log 5). -/

namespace Sys2Proof.Machine

/-- What an unlisted address reads as (log 5). -/
def unlisted : Byte := 0

/-- The canonical form: addresses strictly rising, no entry equal to `unlisted`. -/
def cellsWf : List Host.Cell → Bool
  | [] => true
  | [c] => c.2 != unlisted
  | c :: d :: m => c.2 != unlisted && decide (c.1 < d.1) && cellsWf (d :: m)

/-- The canonical form of a state's memory. -/
def Memory.wf (s : State) : Bool := cellsWf s.mem

/-- The byte at a resolved address. -/
def cellGet (m : List Host.Cell) (a : Nat) : Byte :=
  match m with
  | [] => unlisted
  | c :: m => if c.1 = a then c.2 else cellGet m a

/-- Put a byte in front of a list whose addresses are above its own; `unlisted` is not listed. -/
def cellCons (a : Nat) (b : Byte) (m : List Host.Cell) : List Host.Cell :=
  if b = unlisted then m else (a, b) :: m

/-- Write the byte at a resolved address. -/
def cellPut (m : List Host.Cell) (a : Nat) (b : Byte) : List Host.Cell :=
  match m with
  | [] => cellCons a b []
  | c :: m => if c.1 < a then c :: cellPut m a b else if c.1 = a then cellCons a b m else cellCons a b (c :: m)

/-- The little-endian number held by n bytes at a (00 R2). -/
def cellsNat (m : List Host.Cell) (a : Nat) : Nat → Nat
  | 0 => 0
  | n + 1 => (cellGet m a).toNat + 256 * cellsNat m (a + 1) n

/-- Write the n low bytes of a number at a, little-endian (00 R2). -/
def cellsPut (m : List Host.Cell) (a : Nat) : Nat → Nat → List Host.Cell
  | 0, _ => m
  | n + 1, v => cellsPut (cellPut m a (BitVec.ofNat 8 v)) (a + 1) n (v / 256)

/-- Read one byte. -/
def State.byte (s : State) (a : Nat) : Byte := cellGet s.mem a

/-- Read n bytes as a number. -/
def State.read (s : State) (a n : Nat) : Nat := cellsNat s.mem a n

/-- Whether a byte of the range is found uncorrectable when read (20 R384). -/
def State.poison (s : State) (a n : Nat) : Option Nat := s.poisoned.find? fun p => decide (a ≤ p) && decide (p < a + n)

/-- Write n bytes; an overwritten faulty byte is faulty no longer (20 R385). -/
def State.write (s : State) (a n v : Nat) : State :=
  { s with mem := cellsPut s.mem a n v, poisoned := s.poisoned.filter fun p => !(decide (a ≤ p) && decide (p < a + n)) }

/-- Write a list of bytes. -/
def State.writeBytes (s : State) (a : Nat) : List Byte → State
  | [] => s
  | b :: bs => (s.write a 1 b.toNat).writeBytes (a + 1) bs

/-- Read a list of bytes. -/
def State.readBytes (s : State) (a : Nat) : Nat → List Byte
  | 0 => []
  | n + 1 => s.byte a :: s.readBytes (a + 1) n

/-- Clear the bytes from a to a + n - 1 to zero (08 R207, 16 R336). -/
def State.clear (s : State) (a n : Nat) : State :=
  let out (x : Nat) : Bool := !(decide (a ≤ x) && decide (x < a + n))
  { s with mem := s.mem.filter fun c => out c.1, poisoned := s.poisoned.filter out }

/-- Copy n bytes from one resolved address to another. -/
def State.copyBytes (s : State) (src dst n : Nat) : State := s.writeBytes dst (s.readBytes src n)

end Sys2Proof.Machine
end

