-- ==== Sys2Proof/Machine/Ops.lean ====
section
/-! DEFINITION. The named operations over the state: accessors, coordinates, notices and firmware events, taking an
exception and returning from one, address spaces and translation, and how an instruction ends. -/

namespace Sys2Proof.Machine

/-! ## Coordinates (01 R13 to R16, Table 1.3) -/

/-- Whether a core exists (01 R13, R16). -/
def coreValid (k : CoreId) : Bool :=
  decide (k.die < 36) && (if k.big then decide (k.row < 24) && decide (k.col < 24)
    else decide (k.row < 96) && decide (k.col < 192))

/-- The hive of a core (01 R16). -/
def coreHive (k : CoreId) : HiveId :=
  if k.big then { die := k.die, row := k.row, col := k.col } else { die := k.die, row := k.row / 4, col := k.col / 8 }

/-- Index within the hive, 0 to 31; 32 for the big core (01 R16, 17 Table 17.4). -/
def coreIndex (k : CoreId) : Nat := if k.big then 32 else (k.row % 4) * 8 + k.col % 8

/-- The little core with a given index of a hive (01 R16). -/
def littleCore (h : HiveId) (i : Nat) : CoreId :=
  { big := false, die := h.die, row := 4 * h.row + i / 8, col := 8 * h.col + i % 8 }

/-- The big core of a hive. -/
def bigCore (h : HiveId) : CoreId := { big := true, die := h.die, row := h.row, col := h.col }

/-- The 33 cores of a hive, little cores by index, then the big core. -/
def hiveCores (h : HiveId) : List CoreId := (List.range 32).map (littleCore h) ++ [bigCore h]

/-- Contexts of a core, by number. -/
def ctxNums : List (Fin 11) := [0, 1, 2, 3, 4, 5, 6, 7, 8, 9, 10]

/-- Hive index 24 * hive row + hive column (10 R247). -/
def hiveIndex (h : HiveId) : Nat := 24 * h.row + h.col

/-- The hive with an index of a die. -/
def hiveOf (die i : Nat) : HiveId := { die := die, row := i / 24, col := i % 24 }

/-- Die index of a core image (17 R342). -/
def dieIndex (k : CoreId) : Nat := if k.big then 18432 + (24 * k.row + k.col) else 192 * k.row + k.col

/-- COREID's value for a context (01 Table 1.3). -/
def coreIdBits (c : CtxId) : Nat :=
  (if c.core.big then 2 ^ 27 else 0) + c.core.die * 2 ^ 21 + c.core.row * 2 ^ 14 + c.core.col * 2 ^ 6 + c.num.val

/-- The reference core of relative addresses (04 R95). -/
def refCore (k : CoreId) : CoreId := if k.big then littleCore (coreHive k) 0 else k

/-! ## Reading and updating the state -/

/-- A core; one nothing has happened to runs at divider 1 and has counted every die clock cycle (01 R23). -/
def State.core (s : State) (k : CoreId) : Core := lookup { Core.reset with cycles := s.dieCycle } k s.cores

/-- Set a core. -/
def State.setCore (s : State) (k : CoreId) (c : Core) : State := { s with cores := store k c s.cores }

/-- A context. -/
def State.ctx (s : State) (c : CtxId) : Context := (s.core c.core).ctxs[c.num]

/-- Set a context. -/
def State.setCtx (s : State) (c : CtxId) (x : Context) : State :=
  let k := s.core c.core
  s.setCore c.core { k with ctxs := k.ctxs.set c.num x }

/-- The acting context. -/
def State.me (s : State) : Context := s.ctx s.cur

/-- Set the acting context. -/
def State.setMe (s : State) (x : Context) : State := s.setCtx s.cur x

/-- The acting context's core. -/
def State.myCore (s : State) : Core := s.core s.cur.core

/-- Set the acting context's core. -/
def State.setMyCore (s : State) (k : Core) : State := s.setCore s.cur.core k

/-- A hive. -/
def State.hive (s : State) (h : HiveId) : Hive := lookup Hive.reset h s.hives

/-- Set a hive. -/
def State.setHive (s : State) (h : HiveId) (x : Hive) : State := { s with hives := store h x s.hives }

/-- The acting context's hive. -/
def State.myHive (s : State) : HiveId := coreHive s.cur.core

/-- A die. -/
def State.die (s : State) (d : Nat) : Die := lookup Die.reset d s.dies

/-- Set a die. -/
def State.setDie (s : State) (d : Nat) (x : Die) : State := { s with dies := store d x s.dies }

/-- A partition. -/
def State.part (s : State) (p : Nat) : Partition := lookup Partition.reset p s.parts

/-- Set a partition. -/
def State.setPart (s : State) (p : Nat) (x : Partition) : State := { s with parts := store p x s.parts }

/-- A resident launch. -/
def State.launch? (s : State) (l : Nat) : Option Launch := (s.launches.find? fun e => e.1 == l).map (·.2)

/-- Set a resident launch. -/
def State.setLaunch (s : State) (l : Nat) (x : Launch) : State := { s with launches := store l x s.launches }

/-- The partition that owns a core's hive (17 R355). -/
def State.owner (s : State) (k : CoreId) : Option Nat := (s.hive (coreHive k)).owner

/-- The launch a core runs. -/
def State.jobLaunch (s : State) (k : CoreId) : Option Launch := (s.core k).job.bind fun j => s.launch? j.launch

/-- Bits of a launch packet's header (16 R322). -/
def Launch.hdr (l : Launch) (hi lo : Nat) : Nat := bits l.packet.toNat hi lo

/-- Bits of stage descriptor st (16 R322, Table 16.2). -/
def stageBits (packet : BitVec 11264) (st hi lo : Nat) : Nat := bits packet.toNat (1024 * (st + 1) + hi) (1024 * (st + 1) + lo)

/-- Bits of ring descriptor n (16 R322, Table 16.4). -/
def ringBits (packet : BitVec 11264) (n hi lo : Nat) : Nat :=
  bits packet.toNat (9216 + 128 * n + hi) (9216 + 128 * n + lo)

/-- The reference count as programs read it (01 R22). -/
def State.now (s : State) : Nat := s.refCount % 2 ^ 64

/-- A fresh index for a free value of Config. -/
def State.fresh (s : State) : Nat × State := (s.free, { s with free := s.free + 1 })

/-! ## Registers (00 R9) -/

/-- S[r]: s0 reads 0. -/
def Context.getS (x : Context) (r : Reg) : Word := if r = 0 then 0 else x.s[r.toNat]

/-- An entry of the speculative-load table for a register another instruction writes loses its valid bit (04 R108). -/
def specWrite (r : Reg) (t : List SpecEntry) : List SpecEntry :=
  t.map fun e => if e.reg = r then { e with valid := false } else e

/-- S[r] := v: a write to s0 is discarded. -/
def Context.setS (x : Context) (r : Reg) (v : Word) : Context :=
  if r = 0 then x else { x with s := x.s.set r.toNat v, spec := specWrite r x.spec }

/-- V[r]. -/
def Context.getV (x : Context) (r : Reg) : VWord := x.v[r.toNat]

/-- V[r] := v. -/
def Context.setV (x : Context) (r : Reg) (v : VWord) : Context := { x with v := x.v.set r.toNat v }

/-- P[r]: p0 reads all ones. -/
def Context.getP (x : Context) (r : BitVec 3) : Word := if r = 0 then BitVec.allOnes 64 else x.p[r.toNat]

/-- P[r] := v: a write to p0 is discarded. -/
def Context.setP (x : Context) (r : BitVec 3) (v : Word) : Context := if r = 0 then x else { x with p := x.p.set r.toNat v }

/-- Write a register named by a destination; a scalar or predicate takes the low 64 bits. -/
def Context.setDest (x : Context) (d : Dest) (v : VWord) : Context :=
  match d with
  | .s r => x.setS r (v.extractLsb' 0 64)
  | .v r => x.setV r v
  | .p r => x.setP r (v.extractLsb' 0 64)

/-- Every entry of the speculative-load table loses its valid bit (04 R108). -/
def Context.dropSpec (x : Context) : Context := { x with spec := x.spec.map fun e => { e with valid := false } }

/-- A write of n bytes at a resolved address clears the valid bit of every entry it overlaps (04 R108). -/
def Context.specStore (x : Context) (a n : Nat) : Context :=
  { x with spec := x.spec.map fun e =>
      if decide (a < e.addr + e.size) && decide (e.addr < a + n) then { e with valid := false } else e }

/-! ## Firmware events and notices (21 R397, 17 R348) -/

/-- An event entry (21 Table 21.3). -/
def eventEntry (kind status tag lost data : Nat) : BitVec 512 :=
  BitVec.ofNat 512 (kind + status * 2 ^ 8 + tag * 2 ^ 32 + lost * 2 ^ 48 + data * 2 ^ 64)

/-- Size of the event ring: 16 * 2^LSZ entries, LSZ at most 8 (21 Table 21.1). -/
def Firmware.ringSize (f : Firmware) : Nat := 16 * 2 ^ min (bits f.mbeq.toNat 3 0) 8

/-- Whether the event ring has a free entry (21 R397). -/
def Firmware.room (f : Firmware) : Bool := decide ((f.mbep - f.mbec).toNat < f.ringSize)

/-- Write an event entry and raise MBEP with MSI-X vector 0; it carries and clears LOST, and with a completion MBCC rises (21 R396,
R397). -/
def Firmware.writeEvent (f : Firmware) (e : BitVec 512) : Firmware :=
  { f with
    events := f.events ++ [e ||| BitVec.ofNat 512 (min f.lost 65535 * 2 ^ 48)]
    mbep := f.mbep + 1
    msix := f.msix + 1
    lost := 0
    mbcc := if bits e.toNat 7 0 = 1 then f.mbcc + 1 else f.mbcc }

/-- Move held events to the ring while it has room. -/
def Firmware.release : List (BitVec 512) → Firmware → Firmware
  | [], f => { f with heldEvents := [] }
  | e :: es, f => if f.room then Firmware.release es (f.writeEvent e) else { f with heldEvents := e :: es }

/-- An asynchronous event: written, held, up to 256 of its kind, or counted in LOST (21 R397). -/
def Firmware.post (f : Firmware) (e : BitVec 512) : Firmware :=
  if f.heldEvents.isEmpty && f.room then f.writeEvent e
  else if (f.heldEvents.filter fun x => bits x.toNat 7 0 != 1).length < 256 then { f with heldEvents := f.heldEvents ++ [e] }
  else { f with lost := f.lost + 1 }

/-- A completion: written, or behind held events, which are not then taken as lost (21 R397). -/
def Firmware.announce (f : Firmware) (e : BitVec 512) : Firmware :=
  if f.heldEvents.isEmpty && f.room then f.writeEvent e else { f with heldEvents := f.heldEvents ++ [e] }

/-- Post an asynchronous event. -/
def State.postEvent (s : State) (kind data : Nat) : State := { s with fw := s.fw.post (eventEntry kind 0 0 0 data) }

/-- A notice entry (17 Table 17.5). -/
def State.noticeEntry (s : State) (kind cause who lid addr : Nat) : BitVec 256 :=
  BitVec.ofNat 256 (kind + cause * 2 ^ 8 + lid * 2 ^ 32 + who * 2 ^ 64 + (addr % 2 ^ 64) * 2 ^ 128 + s.now * 2 ^ 192)

/-- Whether the partition's supervisor launch is resident (17 R348). -/
def State.supervised (s : State) (p : Nat) : Bool :=
  s.launches.any fun e => e.2.part == p && (s.part p).supervisor == some (BitVec.ofNat 32 (e.2.hdr 63 32))

/-- Whether a key range is enabled, owned by p, and holds n bytes at a (17 Table 17.8). -/
def rangeHolds (p a n : Nat) (r : BitVec 128) : Bool :=
  bits r.toNat 127 127 == 1 && bits r.toNat 126 121 == p && decide (bits r.toNat 56 21 * 2 ^ 21 ≤ a) &&
    decide (a + n ≤ bits r.toNat 120 85 * 2 ^ 21)

/-- Whether n bytes at a lie within a single range of partition p (17 R351, R360). -/
def State.inRange (s : State) (p a n : Nat) : Bool :=
  s.dies.any fun d => d.2.krange.any fun r => rangeHolds p a n r.2

/-- A directory entry of a line of which no cache of its die holds a copy any more. -/
def DirEntry.uncached (e : DirEntry) : DirEntry :=
  if e.state = .busy then { e with replica := none }
  else { e with state := .uncached, coarse := false, ptrs := [], groups := 0, replica := none, dv := 0 }

/-- No cache holds a copy of the lines of n bytes at a physical address any more: hardware or firmware outside the dies' caches has
written them (10 R231). -/
def State.uncache (s : State) (a n : Nat) : State :=
  let hit (line : Nat) : Bool := decide (128 * line < a + n) && decide (a < 128 * line + 128)
  let fresh (m : Assoc Nat DirEntry) : Assoc Nat DirEntry := m.map fun e => if hit e.1 then (e.1, e.2.uncached) else e
  { s with
    cores := s.cores.map fun (e : CoreId × Core) => (e.1, { e.2 with l1 := e.2.l1.filter fun x => !hit x.line })
    hives := s.hives.map fun (e : HiveId × Hive) => (e.1, { e.2 with replies := e.2.replies.filter fun x => !hit x.2 })
    dies := s.dies.map fun (e : Nat × Die) => (e.1, { e.2 with home := fresh e.2.home, proxy := fresh e.2.proxy }) }

/-- Write n bytes at a physical address of a partition; a line in no range of the partition is never written (17 R360). -/
def State.physWrite (s : State) (p a n v : Nat) : State := if s.inRange p a n then (s.write a n v).uncache a n else s

/-- The bytes at a physical address of a partition; what is in no range of it is never read, and its value is open (17 R360; log
128). -/
def State.physBytes (s : State) (p a n : Nat) : List Byte :=
  (List.range n).map fun i => if s.inRange p (a + i) 1 then s.byte (a + i) else (Config.unfilled (a + i)).setWidth 8

/-- n bytes at a physical address of a partition as a number, as `physBytes` reads them. -/
def State.physRead (s : State) (p a n : Nat) : Nat :=
  if s.inRange p a n then s.read a n else ((s.physBytes p a n).foldr (fun b v => v * 256 + b.toNat) 0)

/-- Whether the notice queue is full (17 R348). -/
def State.noticesFull (s : State) (p : Nat) : Bool :=
  let q := s.part p
  decide (2 ^ q.nql ≤ (s.physRead p q.nqbase 8 + 2 ^ 64 - s.physRead p (q.nqbase + 8) 8) % 2 ^ 64)

/-- Store an entry, then raise PIDX (17 R348). -/
def State.putNotice (s : State) (p : Nat) (e : BitVec 256) : State :=
  let q := s.part p
  let pidx := s.physRead p q.nqbase 8
  (s.physWrite p (q.nqbase + 128 + 32 * (pidx % 2 ^ q.nql)) 32 e.toNat).physWrite p q.nqbase 8 (pidx + 1)

/-- Write held notices while the queue has room. -/
def State.flushNotices (p : Nat) : List (BitVec 256) → State → State
  | [], s => s.setPart p { s.part p with heldNotices := [] }
  | e :: es, s =>
    if s.noticesFull p then s.setPart p { s.part p with heldNotices := e :: es }
    else State.flushNotices p es (s.putNotice p e)

/-- Post a notice: to the partition's queue, behind the held ones (up to 256 held, more are counted in LOST), or to the
firmware mailbox when no supervisor launch is resident (17 R348). -/
def State.postNotice (s : State) (p : Nat) (e : BitVec 256) : State :=
  if s.supervised p then
    let t := State.flushNotices p ((s.part p).heldNotices ++ [e]) s
    let q := t.part p
    if q.heldNotices.length ≤ 256 then t
    else (t.setPart p { q with heldNotices := q.heldNotices.dropLast }).physWrite p (q.nqbase + 16) 8 (t.physRead p (q.nqbase + 16) 8 + 1)
  else s.postEvent 2 e.toNat

/-- LID of the launch a core runs; 0 when none. -/
def State.lidOf (s : State) (k : CoreId) : Nat := ((s.jobLaunch k).map fun l => l.hdr 63 32).getD 0

/-- Post a notice about a context to its partition. -/
def State.notify (s : State) (c : CtxId) (kind cause addr : Nat) : State :=
  match s.owner c.core with
  | some p => s.postNotice p (s.noticeEntry kind cause (coreIdBits c) (s.lidOf c.core) addr)
  | none => s

/-! ## Recording (20 R393) -/

/-- The kind of stream an entry counts in: a queue's arrivals, draws and admissions, a deque's seed and grants, and a ring's two
types are one each. -/
def streamKind (type : Nat) : Nat := if type = 2 ∨ type = 3 then 1 else if type = 4 then 5 else if type = 7 then 6 else type

/-- n entries are lost after the buffer has filled: its last entry, of type 0xFE, counts them (20 Table 20.8). -/
def State.loseEntries (s : State) (p n : Nat) : State :=
  let q := s.part p
  if q.rsize = 0 then s
  else
    let a := q.rbase + 32 * (q.rsize - 1) + 16
    s.physWrite p a 8 ((s.physRead p a 8 + n) % 2 ^ 64)

/-- Write one 32-byte record entry in the partition's ranges and count it in its stream; a full buffer takes one entry of type 0xFE
instead, which counts the entries lost from then on, and recording stops (20 R393). A buffer of no entries holds nothing. -/
def State.record (s : State) (p type stream who payload aux : Nat) : State :=
  let q := s.part p
  if q.rmode ≠ 1 then s
  else if q.truncated then s.loseEntries p 1
  else
    let put (type seq payload aux : Nat) (t : State) : State :=
      t.physWrite p (q.rbase + 32 * q.rhead) 32
        (seq % 2 ^ 28 + who * 2 ^ 28 + type * 2 ^ 56 + (aux % 2 ^ 64) * 2 ^ 64 + (payload % 2 ^ 64) * 2 ^ 128 + s.now * 2 ^ 192)
    if q.rsize = 0 then s.setPart p { q with truncated := true }
    else if q.rhead + 1 ≥ q.rsize then
      (put 0xFE 0 1 0 s).setPart p { q with rhead := q.rhead + 1, truncated := true }
    else
      let key := (streamKind type, stream)
      let seq := lookup 0 key q.rseq
      (put type seq payload aux s).setPart p
        { q with rhead := q.rhead + 1, rseq := store key (seq + 1) q.rseq }

/-! ## Exceptions (04 R114 to R117) -/

/-- The code of a cause (04 Table 4.14). -/
def Cause.code : Cause → Nat
  | .none => 0 | .illegal => 1 | .privileged => 2 | .misaligned => 3 | .pageFault => 4 | .access => 5
  | .fp => 6 | .dataError => 7 | .rasLimit => 8 | .spillFull => 9 | .engineFault => 10 | .breakTrap => 11

/-- The cause of a code (04 Table 4.14). -/
def causeOf (n : Nat) : Cause :=
  [Cause.none, .illegal, .privileged, .misaligned, .pageFault, .access, .fp, .dataError, .rasLimit, .spillFull, .engineFault,
   .breakTrap].getD n .none

/-- Whether a cached translation covers an address. -/
def TlbEntry.covers (e : TlbEntry) (va : Nat) : Bool := va / 2 ^ e.log == e.page / 2 ^ e.log

/-- Remove every translation of the page at va from the core's TLB and its hive's TLB (17 R352). -/
def State.dropPage (s : State) (k : CoreId) (va : Nat) : State :=
  let c := s.core k
  let s := s.setCore k { c with tlb := c.tlb.filter fun e => !e.covers va }
  let h := s.hive (coreHive k)
  s.setHive (coreHive k) { h with tlb := h.tlb.filter fun e => !e.covers va }

/-- Whether taking a trap first removes the faulting page's translations: PAGE_FAULT and ACCESS of a global address
(17 R352). -/
def Trap.dropsPage (t : Trap) : Bool := (t.cause == .pageFault || t.cause == .access) && bits t.tval.toNat 63 60 == 0

/-- DoubleTrap (04 R117): the context stops before the instruction, and the supervising context gets a notice. -/
def State.doubleTrap (s : State) (t : Trap) : State :=
  let m := s.me
  (s.setMe { m with stopped := true, blocked := none }).notify s.cur 1 t.cause.code m.pc.toNat

/-- The context after TakeTrap (04 R116). -/
def Context.enterTrap (m : Context) (t : Trap) (len : BitVec 2) : Context :=
  { m.dropSpec with
    tpc := m.pc, tval := t.tval, tcode := BitVec.ofNat 6 t.cause.code, tlen := len, tpm := m.sup, sup := true,
    tinh := true, pc := m.tvec, blocked := none }

/-- TakeTrap (04 R116) in the acting context; `len` is the LEN field of the trapping instruction. -/
def takeTrap (t : Trap) (len : BitVec 2) (s : State) : State :=
  let s := if t.dropsPage then s.dropPage s.cur.core t.tval.toNat else s
  if s.me.tinh then s.doubleTrap t else s.setMe (s.me.enterTrap t len)

/-- The context after ERET (04 R116); TPC is aligned. -/
def Context.leaveTrap (m : Context) : Context :=
  { m.dropSpec with sup := m.tpm, tinh := false, pc := m.tpc, blocked := none }

/-- A register's class and number as TVAL of DATA_ERROR gives them: bits 7:5 the class, bits 4:0 the number (20 R385). -/
def Dest.code : Dest → Nat
  | .s r => r.toNat
  | .v r => 32 + r.toNat
  | .p r => 64 + r.toNat

/-- TVAL of a faulty register (20 R385). -/
def Dest.tval (d : Dest) : Word := BitVec.ofNat 64 (15 * 2 ^ 60 + d.code)

/-! ## How an instruction ends -/

/-- Ways an instruction does not complete: it traps (in the given state), or it waits and is executed again (the context
holds or blocks in the given state). -/
inductive Stop where
  | trap (t : Trap) (s : State)
  | hold (s : State)
  deriving DecidableEq, Repr

/-- The result of a part of an instruction. -/
abbrev Run := Except Stop

/-- Raise a trap. -/
def trapAt {α : Type} (s : State) (c : Cause) (v : Word) : Run α := .error (.trap { cause := c, tval := v } s)

/-- An ENGINE_FAULT value (07 Table 7.10). -/
def engineTval (seq slot reason : Nat) : Word := BitVec.ofNat 64 (reason + slot * 16 + (seq % 2 ^ 56) * 256)

/-- Raise ENGINE_FAULT. -/
def engineFault {α : Type} (s : State) (slot reason : Nat) : Run α := trapAt s .engineFault (engineTval 0 slot reason)

/-- Move past an instruction and let the context go on. -/
def Context.advance (m : Context) (len : BitVec 2) : Context :=
  { m with pc := m.pc + BitVec.ofNat 64 (4 * lenWords len), blocked := none }

/-- Move the acting context past its instruction. -/
def State.advance (s : State) (len : BitVec 2) : State := s.setMe (s.me.advance len)

/-- Block the acting context in an instruction with a deadline and a phase; a context already blocked in it keeps its
deadline and issue time. -/
def State.blockIn (s : State) (i : Instr) (deadline : Option Nat) (phase : Nat) : State :=
  let m := s.me
  match m.blocked with
  | some b => s.setMe { m with blocked := some { b with phase := phase } }
  | none => s.setMe { m with blocked := some { instr := i, deadline := deadline, issued := s.now, phase := phase } }

/-- Reference count at which a waiting instruction times out: the one it blocked with, or now plus its timeout,
saturating at 2^64 - 1 (08 R201). -/
def State.deadline (s : State) (timeout : Word) : Nat :=
  match s.me.blocked with
  | some b => b.deadline.getD (2 ^ 64 - 1)
  | none => min (s.now + timeout.toNat) (2 ^ 64 - 1)

/-- Whether a deadline has come; 2^64 - 1 never does (08 R200). -/
def State.expired (s : State) (deadline : Nat) : Bool := decide (deadline < 2 ^ 64 - 1) && decide (deadline ≤ s.now)

/-- Act as a context: what `f` does with it as the acting one. -/
def State.asCtx (s : State) (c : CtxId) (f : State → State) : State := { f { s with cur := c } with cur := s.cur }

/-- What becomes of an instruction whose effect is `r`, apart from moving past it. -/
def settle (len : BitVec 2) (r : Run State) : Host.Outcome State Fault Refusal :=
  match r with
  | .ok s => .next s
  | .error (.trap t s) => .next (takeTrap t len s)
  | .error (.hold s) => .next s

/-- An instruction of effect `r` that falls through to the next one. -/
def finish (len : BitVec 2) (r : Run State) : Host.Outcome State Fault Refusal := settle len (r.map fun s => s.advance len)

/-- Word 0 of an instruction, as TVAL holds it (04 R45, Table 4.14). -/
def word0Of (i : Instr) : Word := ((encode i).headD 0).setWidth 64

/-- PRIVILEGED for an instruction, with TVAL holding word 0. -/
def privileged {α : Type} (s : State) (i : Instr) : Run α := trapAt s .privileged (word0Of i)

/-- TVAL of ILLEGAL: word 0, and E1 above it in an extended form (02 R45). -/
def illegalTval (ws : List IWord) : Word :=
  let w := ws.headD 0
  if (w.extractLsb' 0 2).toNat < 2 then w.setWidth 64 else (ws.tail.headD 0) ++ w

/-! ## Address spaces (08 R204, R205, 04 R95) -/

/-- What an access does, for its permission check (17 R351). -/
inductive Acc where
  | load | store | atomic | fetch | cinv
  deriving DecidableEq, Repr

/-- An absolute local address (04 Table 4.7). -/
def localAddr (k : CoreId) (off : Nat) : Nat := 8 * 2 ^ 60 + k.die * 2 ^ 34 + k.row * 2 ^ 27 + k.col * 2 ^ 19 + off

/-- A scratch address (04 Table 4.7). -/
def scratchAddr (h : HiveId) (off : Nat) : Nat := 10 * 2 ^ 60 + h.die * 2 ^ 29 + h.row * 2 ^ 24 + h.col * 2 ^ 19 + off

/-- The core an absolute local address names (04 Table 4.7). -/
def localCore (a : Nat) : CoreId := { big := false, die := bits a 39 34, row := bits a 33 27, col := bits a 26 19 }

/-- Two's complement value of the low w bits. -/
def signed (x w : Nat) : Int := (BitVec.ofNat w x).toInt

/-- A relative local address against a reference core; `none` when the coordinate leaves the module (04 R97, 08 R205). -/
def relToAbs (k : CoreId) (a : Nat) : Option Nat :=
  let r := refCore k
  let dr : Int := r.die / 6 + signed (bits a 43 40) 4
  let dc : Int := (r.die % 6 : Nat) + signed (bits a 39 36) 4
  let y : Int := r.row + signed (bits a 35 28) 8
  let x : Int := r.col + signed (bits a 27 19) 9
  if 0 ≤ dr ∧ dr < 6 ∧ 0 ≤ dc ∧ dc < 6 ∧ 0 ≤ y ∧ y < 96 ∧ 0 ≤ x ∧ x < 192 then
    some (localAddr { big := false, die := (6 * dr + dc).toNat, row := y.toNat, col := x.toNat } (bits a 18 0))
  else none

/-- Where an address points, after the space rules of 08 Table 8.5: a global virtual address, or a byte of a local
memory or of scratch, by its resolved address. -/
inductive Place where
  | global (va : Nat)
  | here (a : Nat)
  deriving DecidableEq, Repr

/-- Why an access does not go through: a trap cause, or a fenced core whose packets wait at their senders (20 R391). -/
inductive Deny where
  | cause (c : Cause)
  | fenced
  deriving DecidableEq, Repr

/-- A remap entry of a table; without one the physical unit has the logical number (log 17). -/
def remapOf (m : Assoc Nat Remap) (i : Nat) : Remap := lookup { valid := true, abs := false, phys := i } i m

/-- Whether an entry names a physical unit: it is valid, and one serves (20 Tables 20.2, 20.3). -/
def Remap.serves (r : Remap) : Bool := r.valid && !r.abs

/-- Whether no physical hive serves a logical hive (20 Table 20.2). -/
def State.hiveAbsent (s : State) (h : HiveId) : Bool := !(remapOf (s.die h.die).hremap (hiveIndex h)).serves

/-- The number of the physical hive that serves a logical one (20 R386, R389). -/
def State.physHive (s : State) (h : HiveId) : Nat := (remapOf (s.die h.die).hremap (hiveIndex h)).phys

/-- Physical units that no entry of a table of `logical` entries names (01 R15, 20 R386). -/
def sparesOf (m : Assoc Nat Remap) (physical logical : Nat) : List Nat :=
  (List.range physical).filter fun n => !(List.range logical).any fun i => (remapOf m i).phys == n && (remapOf m i).serves

/-- Spare hives of a die: 600 physical ones, 576 logical. -/
def Die.spareHives (d : Die) : List Nat := sparesOf d.hremap 600 576

/-- Spare slices of a die: 400 physical ones, 384 logical. -/
def Die.spareSlices (d : Die) : List Nat := sparesOf d.sremap 400 384

/-- Bytes of scratch the acting core's launch holds in its hive (16 R335, 08 Table 8.5). -/
def State.scratchSize (s : State) (k : CoreId) : Nat :=
  let h := s.hive (coreHive k)
  if h.splitBy.isSome && h.splitBy == (s.core k).job.map (·.launch) then 16384 * h.split else 0

/-- The absolute local rules of 08 Table 8.5. -/
def State.placeLocal (s : State) (k : CoreId) (a : Nat) : Except Deny Place :=
  let t := localCore a
  if bits a 59 40 ≠ 0 || !coreValid t || s.owner t ≠ s.owner k || s.hiveAbsent (coreHive t) then .error (.cause .access)
  else if (s.core t).status = .fenced && t ≠ k then .error .fenced
  else .ok (.here a)

/-- The space rules for an address used by core k (08 R204, Table 8.5). -/
def State.place (s : State) (k : CoreId) (a : Nat) : Except Deny Place :=
  match bits a 63 60 with
  | 0 => if bits a 59 57 = 0 then .ok (.global a) else .error (.cause .access)
  | 8 => s.placeLocal k a
  | 9 =>
    if bits a 59 44 ≠ 0 then .error (.cause .access)
    else match relToAbs k a with
      | some b => s.placeLocal k b
      | none => .error (.cause .access)
  | 10 =>
    let h : HiveId := { die := bits a 34 29, row := bits a 28 24, col := bits a 23 19 }
    if bits a 59 35 ≠ 0 || h ≠ coreHive k || decide (s.scratchSize k ≤ bits a 18 0) then .error (.cause .access)
    else .ok (.here a)
  | _ => .error (.cause .access)

/-- An address with a relative form turned absolute, others as they are (08 R205). -/
def absForm (k : CoreId) (a : Word) : Word :=
  if bits a.toNat 63 60 = 9 && bits a.toNat 59 44 = 0 then ((relToAbs k a.toNat).map (BitVec.ofNat 64)).getD a else a

/-! ## Physical memory and page tables (17 R349 to R352) -/

/-- Far-memory share of a die in GiB (17 R349). -/
def farShare (d : Nat) : Nat := if d < 12 then 86 else 85

/-- Whether n bytes at a physical address are populated near or far memory (17 R349). -/
def populated (a n : Nat) : Bool :=
  (decide (a / 2 ^ 36 < 36) && decide (a % 2 ^ 36 + n ≤ 55 * 2 ^ 30)) ||
  (decide (2 ^ 42 ≤ a) && decide ((a - 2 ^ 42) / 2 ^ 37 < 36) &&
    decide ((a - 2 ^ 42) % 2 ^ 37 + n ≤ farShare ((a - 2 ^ 42) / 2 ^ 37) * 2 ^ 30))

/-- The home die of a physical address (17 R349). -/
def homeDie (a : Nat) : Nat := if a < 2 ^ 42 then a / 2 ^ 36 else (a - 2 ^ 42) / 2 ^ 37

/-- Write an error log entry, which firmware counts; the newest overwrites the oldest of 1,024 (20 R389, Table 20.4). -/
def State.logError (s : State) (die cls unit pos : Nat) : State :=
  let d := s.die die
  let e := BitVec.ofNat 128 (s.now * 2 ^ 64 + die * 2 ^ 58 + cls * 2 ^ 55 + unit * 2 ^ 49 + pos % 2 ^ 49)
  s.setDie die { d with
    errlog := (if d.errlog.length < 1024 then d.errlog else d.errlog.tail) ++ [e]
    errCounts := store cls (lookup 0 cls d.errCounts + 1) d.errCounts }

/-- Where a faulty byte of memory is logged: its die and unit, 3 for a local memory, 0 for scratch, 4 near and 5 far memory
(20 Table 20.4). -/
def errUnit (a : Nat) : Nat × Nat :=
  if bits a 63 60 = 8 then ((localCore a).die, 3)
  else if bits a 63 60 = 10 then (bits a 34 29, 0)
  else (homeDie a, if a < 2 ^ 42 then 4 else 5)

/-- The physical hive that serves a logical one, named as a hive of its die (20 R386). -/
def State.physHiveId (s : State) (h : HiveId) : HiveId := hiveOf h.die (s.physHive h)

/-- The place of a core in another hive. -/
def CoreId.inHive (k : CoreId) (h : HiveId) : CoreId := if k.big then bigCore h else littleCore h (coreIndex k)

/-- The physical core that serves a logical one. -/
def State.physCore (s : State) (k : CoreId) : CoreId := CoreId.inHive k (s.physHiveId (coreHive k))

/-- The logical hive that a physical one serves, if it serves one. -/
def State.logicHive (s : State) (h : HiveId) : Option HiveId :=
  let n := hiveIndex h
  let serves (i : Nat) : Bool := (remapOf (s.die h.die).hremap i).phys == n && (remapOf (s.die h.die).hremap i).serves
  if n < 576 ∧ serves n then some h else ((List.range 576).find? serves).map (hiveOf h.die)

/-- The number by which the error log names a register: COREID of its context at its physical core, then its class and number (20
R389; log 53). -/
def State.registerUnit (s : State) (c : CtxId) (d : Dest) : Nat := coreIdBits { c with core := s.physCore c.core } * 256 + d.code

/-- The address of a byte of a local memory or scratch at its physical place; other addresses as they are (20 R386, R389). -/
def State.physPlace (s : State) (a : Nat) : Nat :=
  if bits a 63 60 = 8 then localAddr (s.physCore (localCore a)) (bits a 18 0)
  else if bits a 63 60 = 10 then
    scratchAddr (s.physHiveId { die := bits a 34 29, row := bits a 28 24, col := bits a 23 19 }) (bits a 18 0)
  else a

/-- A reader finds a faulty byte: a Consumed error is logged (20 R384, R385). -/
def State.logFound (s : State) (a : Nat) : State := s.logError (errUnit a).1 2 (errUnit a).2 (bits (s.physPlace a) 56 8)

/-- The levels of a walk: level, lowest address bit of its index, index bits (17 R350). -/
def walkLevels : List (Nat × Nat × Nat) := [(3, 47, 10), (2, 36, 11), (1, 25, 11), (0, 14, 11)]

/-- A walk (17 R350, R351): the leaf and the page size as a power of two. A pointer held in the hive's pointer cache is
used in place of the one in memory (17 R352). -/
def State.walk (s : State) (h : HiveId) (p va : Nat) : List (Nat × Nat × Nat) → Nat → Except Cause (Word × Nat)
  | [], _ => .error .pageFault
  | (lv, sh, n) :: rest, base =>
    if !s.inRange p base (8 * 2 ^ n) then .error .access
    else
      let at_ := base + 8 * (va / 2 ^ sh % 2 ^ n)
      let cached := (s.hive h).ptrs.find? fun e => e.level == lv && e.pre == va / 2 ^ sh
      if cached.isNone && (s.poison at_ 8).isSome then .error .access
      else
        let e : Word := match cached with
          | some c => c.pte
          | none => BitVec.ofNat 64 (s.read at_ 8)
        let w := e.toNat
        if bits w 63 62 = 1 then
          if bits w 61 57 ≠ 0 || bits w 11 0 ≠ 0 || lv = 0 then .error .pageFault
          else s.walk h p va rest (bits w 56 14 * 2 ^ 14)
        else if bits w 63 62 = 2 then
          if bits w 61 57 ≠ 0 || bits w 4 0 ≠ 0 || lv = 3 || bits w (sh - 1) 14 ≠ 0 && decide (14 < sh) then .error .pageFault
          else .ok (e, sh)
        else .error .pageFault

/-- The permission table of 17 R351. -/
def permitted (sup : Bool) (acc : Acc) (pte : Nat) : Bool :=
  let flag (b : Nat) : Bool := bits pte b b == 1
  let user := sup || !flag 11
  match acc with
  | .load => flag 10 && user
  | .store => flag 9 && user
  | .atomic => flag 10 && flag 9 && user
  | .cinv => (flag 10 || flag 8) && user
  | .fetch => flag 8 && (if sup then flag 11 else !flag 11)

/-- A cached translation for an address, from the core's TLB, then its hive's (17 R352). -/
def State.cachedLeaf (s : State) (k : CoreId) (va : Nat) : Option TlbEntry :=
  ((s.core k).tlb ++ (s.hive (coreHive k)).tlb).find? fun e => e.covers va

/-- The leaf for a global address: cached, or walked for (17 R351, R352). -/
def State.leaf (s : State) (k : CoreId) (p va : Nat) : Except Cause (Word × Nat) :=
  match s.cachedLeaf k va with
  | some e => .ok (e.pte, e.log)
  | none => s.walk (coreHive k) p va walkLevels (s.part p).ptroot

/-- Whether a leaf faults an access through ATRAP or WTRAP (17 R351). -/
def leafTraps (acc : Acc) (pte : Nat) : Bool :=
  bits pte 6 6 == 1 || (bits pte 7 7 == 1 && (acc == .store || acc == .atomic))

/-- Step 3 of 09 R209: the leaf, with the page faults of ATRAP and WTRAP (17 R351). -/
def State.pageOf (s : State) (k : CoreId) (acc : Acc) (va : Nat) : Except Cause (Word × Nat × Nat) :=
  match s.owner k with
  | none => .error .access
  | some p =>
    match s.leaf k p va with
    | .error c => .error c
    | .ok (e, sh) => if leafTraps acc e.toNat then .error .pageFault else .ok (e, sh, p)

/-- Step 4 of 09 R209 and what the physical address holds, for a leaf of partition p: the translated address. In the system
space a partition reaches its own shootdown port alone; every other page lies outside its ranges (17 R351, R353). -/
def State.leafAddr (s : State) (p : Nat) (sup : Bool) (acc : Acc) (va : Nat) (e : Word) (sh : Nat) : Except Deny Nat :=
  let page := bits e.toNat 56 sh * 2 ^ sh
  let pa := page + va % 2 ^ sh
  if !permitted sup acc e.toNat then .error (.cause .access)
  else if decide (2 ^ 52 ≤ pa) then
    if decide ((s.part p).sdport ≤ pa) && decide (pa < (s.part p).sdport + 128) then .ok pa else .error (.cause .access)
  else if !s.inRange p page (2 ^ sh) || !populated pa 1 then .error (.cause .access)
  else .ok pa

/-- Steps 3 and 4 of 09 R209 for a global address. -/
def State.translateGlobal (s : State) (k : CoreId) (sup : Bool) (acc : Acc) (va : Nat) : Except Deny Nat :=
  match s.pageOf k acc va with
  | .error c => .error (.cause c)
  | .ok (e, sh, p) => s.leafAddr p sup acc va e sh

/-- Steps 2 to 4 of 09 R209 for an access of a core in a mode: the resolved address. -/
def State.resolve (s : State) (k : CoreId) (sup : Bool) (acc : Acc) (va : Nat) : Except Deny Nat :=
  match s.place k va with
  | .error d => .error d
  | .ok (.here a) => .ok a
  | .ok (.global a) => s.translateGlobal k sup acc a

/-- The faulty table entry that a walk meets, by its address (20 R384, R385). -/
def State.faultyEntry (s : State) (h : HiveId) (p va : Nat) : List (Nat × Nat × Nat) → Nat → Option Nat
  | [], _ => none
  | (lv, sh, n) :: rest, base =>
    if !s.inRange p base (8 * 2 ^ n) then none
    else
      let at_ := base + 8 * (va / 2 ^ sh % 2 ^ n)
      match (s.hive h).ptrs.find? fun e => e.level == lv && e.pre == va / 2 ^ sh with
      | some c => if bits c.pte.toNat 63 62 = 1 then s.faultyEntry h p va rest (bits c.pte.toNat 56 14 * 2 ^ 14) else none
      | none =>
        if (s.poison at_ 8).isSome then some at_
        else if bits (s.read at_ 8) 63 62 = 1 then s.faultyEntry h p va rest (bits (s.read at_ 8) 56 14 * 2 ^ 14) else none

/-- A faulty table entry that the walk for a global address met is logged as Consumed (20 R384). -/
def State.logWalk (s : State) (k : CoreId) (va : Nat) : State :=
  match s.owner k with
  | none => s
  | some p =>
    if bits va 63 57 ≠ 0 || (s.cachedLeaf k va).isSome then s
    else match s.faultyEntry (coreHive k) p va walkLevels (s.part p).ptroot with
      | some a => s.logFound a
      | none => s

/-- What a denied access does to the acting instruction. -/
def Deny.stop (d : Deny) (va : Word) (s : State) : Stop :=
  match d with
  | .cause c => .trap { cause := c, tval := va } (if c = .access then s.logWalk s.cur.core va.toNat else s)
  | .fenced => .hold s

/-- Steps 2 to 4 of 09 R209 for the acting context. -/
def State.translate (s : State) (acc : Acc) (va : Word) : Run Nat :=
  match s.resolve s.cur.core s.me.sup acc va.toNat with
  | .ok a => .ok a
  | .error d => .error (d.stop va s)

/-- Whether a resolved address lies in the system space: it is then a byte of a shootdown port (17 R349, R353). -/
def inPort (a : Nat) : Bool := decide (2 ^ 52 ≤ a) && decide (a < 2 ^ 57)

end Sys2Proof.Machine
end

