-- ==== Sys2Proof/Machine/Layout.lean ====
section
/-! DEFINITION. Layout records and the element accesses of a copy, a tile load or a write-out (11 R253 to R256), and
accesses to resolved addresses: the shootdown port, and the dirty marks of windows. -/

namespace Sys2Proof.Machine

/-! ## Resolved accesses -/

/-- WINn fields (11 Table 11.5). -/
def Window.state (w : Window) : Nat := bits w.word.toNat 63 62
/-- OUT. -/
def Window.out (w : Window) : Bool := bits w.word.toNat 60 60 == 1
/-- DIRTY. -/
def Window.dirty (w : Window) : Bool := bits w.word.toNat 61 61 == 1
/-- TILE. -/
def Window.tile (w : Window) : Nat := bits w.word.toNat 59 40
/-- SIZE. -/
def Window.size (w : Window) : Nat := bits w.word.toNat 39 20
/-- BASE. -/
def Window.base (w : Window) : Nat := bits w.word.toNat 18 0

/-- A window word from its fields (11 Table 11.5). -/
def windowWord (state : Nat) (dirty out : Bool) (tile size base : Nat) : Word :=
  BitVec.ofNat 64 (state * 2 ^ 62 + dirty.toNat * 2 ^ 61 + out.toNat * 2 ^ 60 + (tile % 2 ^ 20) * 2 ^ 40 + size * 2 ^ 20 + base)

/-- A window with another STATE and DIRTY. -/
def Window.with (w : Window) (state : Nat) (dirty : Bool) : Window :=
  { w with word := windowWord state dirty w.out w.tile w.size w.base }

/-- Whether a window is bound and its range meets n bytes at a local offset (11 R265). -/
def Window.meets (w : Window) (off n : Nat) : Bool :=
  w.state != 0 && decide (off < w.base + w.size) && decide (w.base < off + n)

/-- A write of n bytes that reaches a present range sets DIRTY (11 Table 11.5, R265). -/
def State.markDirty (s : State) (a n : Nat) : State :=
  if bits a 63 60 = 8 && s.cores.any fun e => e.1 == localCore a then
    let k := localCore a
    let c := s.core k
    s.setCore k { c with wins := c.wins.map fun w => if w.meets (bits a 18 0) n && w.state == 3 then w.with 3 true else w }
  else s

/-- The shootdown port as a little-endian block: REQN at offset 16, DONEN at offset 24, everything else 0 (17 R353). -/
def Partition.portBlock (q : Partition) : Nat := (q.reqn % 2 ^ 64) * 2 ^ 128 + (q.donen % 2 ^ 64) * 2 ^ 192

/-- Read n bytes at a resolved address for partition p. -/
def State.load (s : State) (p : Option Nat) (a n : Nat) : Nat :=
  if inPort a then
    match p with
    | some p => (s.part p).portBlock / 2 ^ (8 * (a - (s.part p).sdport)) % 2 ^ (8 * n)
    | none => 0
  else s.read a n

/-- Write n bytes at a resolved address; a port takes no write here (17 R353). -/
def State.put (s : State) (a n v : Nat) : State := if inPort a then s else (s.write a n v).markDirty a n

/-- Whether n bytes at a resolved address can be read and written for a partition: global memory only in a single enabled range of
it (17 R360). -/
def State.engineMay (s : State) (p : Option Nat) (a n : Nat) : Bool := decide (2 ^ 52 ≤ a) || p.any fun p => s.inRange p a n

/-- An engine's read for partition p, whose addresses were translated earlier: a line that lies in no range of it any more is not
filled, and what is read then is open (17 R360; log 128). -/
def State.engineLoad (s : State) (p : Option Nat) (a n : Nat) : Nat :=
  if s.engineMay p a n then s.load p a n else (Config.unfilled a).toNat % 2 ^ (8 * n)

/-- An engine's write for partition p: a line that lies in no range of it any more is not written (17 R360). -/
def State.enginePut (s : State) (p : Option Nat) (a n v : Nat) : State := if s.engineMay p a n then s.put a n v else s

/-- Whether one of some byte ranges lies in the local memory or scratch of a fenced core, whose ports carry no traffic (20 R391). -/
def State.portDead (s : State) (rs : List (Nat × Nat)) : Bool :=
  rs.any fun r =>
    (bits r.1 63 60 == 8 && (s.core (localCore r.1)).status == .fenced) ||
      (bits r.1 63 60 == 10 &&
        (s.core (bigCore { die := bits r.1 34 29, row := bits r.1 28 24, col := bits r.1 23 19 })).status == .fenced)

/-! ## Router quads (07 R183) -/

/-- The hive of an engine of a router quad, by its bit of MCAST (log 44). -/
def quadHive (h : HiveId) (b : Nat) : HiveId := { h with row := h.row / 2 * 2 + b / 2, col := h.col / 2 * 2 + b % 2 }

/-- An engine's own bit. -/
def quadBit (h : HiveId) : Nat := h.row % 2 * 2 + h.col % 2

/-- A context's outstanding weak read ends. -/
def State.endWeak (s : State) (c : CtxId) : State :=
  let h := s.hive (coreHive c.core)
  if h.weakReads.any fun r => r.reader == c then
    s.setHive (coreHive c.core) { h with weakReads := h.weakReads.filter fun r => r.reader != c }
  else s

/-! ## Records (11 Table 11.2) -/

/-- A field of a record. -/
def recBits (r : BitVec 1024) (hi lo : Nat) : Nat := bits r.toNat hi lo

/-- A signed field of a record. -/
def recInt (r : BitVec 1024) (hi lo : Nat) : Int := signed (recBits r hi lo) (hi + 1 - lo)

/-- SRC. -/
def recSrc (r : BitVec 1024) : Word := r.extractLsb' 0 64
/-- DST. -/
def recDst (r : BitVec 1024) : Word := r.extractLsb' 64 64
/-- ES. -/
def recEs (r : BitVec 1024) : Nat := 2 ^ recBits r 385 384
/-- MODE. -/
def recMode (r : BitVec 1024) : Nat := recBits r 387 386
/-- F. -/
def recF (r : BitVec 1024) : Nat := 2 ^ recBits r 390 388
/-- N0. -/
def recN0 (r : BitVec 1024) : Nat := recBits r 143 128
/-- N1. -/
def recN1 (r : BitVec 1024) : Nat := recBits r 159 144
/-- N2. -/
def recN2 (r : BitVec 1024) : Nat := recBits r 175 160
/-- N3. -/
def recN3 (r : BitVec 1024) : Nat := recBits r 191 176

/-- Replace SRC and DST. -/
def recWith (r : BitVec 1024) (src dst : Word) : BitVec 1024 := (r >>> 128) <<< 128 ||| BitVec.setWidth 1024 (dst ++ src)

/-- The record with relative addresses turned absolute against a core (08 R205). -/
def recAbs (k : CoreId) (r : BitVec 1024) : BitVec 1024 := recWith r (absForm k (recSrc r)) (absForm k (recDst r))

/-- Step 1 of 11 R256: every field as Table 11.2 allows. -/
def recValid (r : BitVec 1024) : Bool :=
  recBits r 1023 576 == 0 && recBits r 447 391 == 0 && recMode r != 3 && recN0 r != 0 && recN1 r != 0 && recN2 r != 0 &&
  recN3 r != 0 && (if recMode r = 0 then recBits r 390 388 == 0 else recBits r 390 388 != 0 && recBits r 390 388 != 7)

/-- Base plus a byte delta: on a local or scratch address only the offset moves, and leaving 0 to 0x7FFFF gives `none`
(11 R254). -/
def shiftAddr (a : Word) (d : Int) : Option Word :=
  if 8 ≤ bits a.toNat 63 60 ∧ bits a.toNat 63 60 ≤ 10 then
    let off : Int := bits a.toNat 18 0 + d
    if 0 ≤ off ∧ off < 2 ^ 19 then some (BitVec.ofNat 64 (a.toNat / 2 ^ 19 * 2 ^ 19 + off.toNat)) else none
  else some (a + BitVec.ofInt 64 d)

/-- Elements the record moves. -/
def recCount (r : BitVec 1024) : Nat := recN0 r * recN1 r * recN2 r * recN3 r

/-- Filler elements of each position of a partial last group (11 R254). -/
def recGap (r : BitVec 1024) : Nat := if recMode r = 1 ∧ recN1 r % recF r ≠ 0 then recF r - recN1 r % recF r else 0

/-- Filler elements in all. -/
def recFillers (r : BitVec 1024) : Nat := recGap r * recN0 r * recN2 r * recN3 r

/-- One element of a command: where it reads (`none` for a filler), where it writes, as byte deltas. -/
structure Elem where
  src : Option Int
  dst : Int
  deriving DecidableEq, Repr

/-- Delta within grouped channels (pack destination, unpack source; 11 R254). -/
def grouped (r : BitVec 1024) (s1 s2 s3 : Int) (i0 g l i2 i3 : Nat) : Int :=
  g * s1 + ((i0 * recF r + l) * recEs r : Nat) + i2 * s2 + i3 * s3

/-- Delta of plain indices. -/
def strided (r : BitVec 1024) (s1 s2 s3 : Int) (i0 i1 i2 i3 : Nat) : Int :=
  (i0 * recEs r : Nat) + i1 * s1 + i2 * s2 + i3 * s3

/-- Element number i in index order, i0 fastest; the fillers follow the moved elements (11 R254). -/
def recElem (r : BitVec 1024) (i : Nat) : Elem :=
  let ss1 := recInt r 223 192
  let ss2 := recInt r 255 224
  let ss3 := recInt r 287 256
  let ds1 := recInt r 319 288
  let ds2 := recInt r 351 320
  let ds3 := recInt r 383 352
  if i < recCount r then
    let i0 := i % recN0 r
    let i1 := i / recN0 r % recN1 r
    let i2 := i / (recN0 r * recN1 r) % recN2 r
    let i3 := i / (recN0 r * recN1 r * recN2 r)
    let g := i1 / recF r
    let l := i1 % recF r
    { src := some (if recMode r = 2 then grouped r ss1 ss2 ss3 i0 g l i2 i3 else strided r ss1 ss2 ss3 i0 i1 i2 i3)
      dst := if recMode r = 1 then grouped r ds1 ds2 ds3 i0 g l i2 i3 else strided r ds1 ds2 ds3 i0 i1 i2 i3 }
  else
    let j := i - recCount r
    let l := recN1 r % recF r + j % recGap r
    let i0 := j / recGap r % recN0 r
    let i2 := j / (recGap r * recN0 r) % recN2 r
    let i3 := j / (recGap r * recN0 r * recN2 r)
    { src := none, dst := grouped r ds1 ds2 ds3 i0 (recN1 r / recF r) l i2 i3 }

/-- Elements and fillers in all. -/
def recTotal (r : BitVec 1024) : Nat := recCount r + recFillers r

/-- One checked access of an engine: kind, absolute base, the base as the program gave it (08 R204), and delta. -/
structure RecAccess where
  acc : Acc
  base : Word
  shown : Word
  delta : Int
  deriving DecidableEq, Repr

/-- A base and a delta as one address; where it leaves its memory, their sum (11 R256). -/
def moved (base : Word) (delta : Int) : Word := (shiftAddr base delta).getD (base + BitVec.ofInt 64 delta)

/-- The address of an access; `none` where it leaves its memory. -/
def RecAccess.addr (x : RecAccess) : Option Word := shiftAddr x.base x.delta

/-- The address an access is translated at. -/
def RecAccess.target (x : RecAccess) : Word := moved x.base x.delta

/-- TVAL of a failing access: the address as the program gave it (08 R204). -/
def RecAccess.tval (x : RecAccess) : Word := moved x.shown x.delta

/-- The accesses of element i of a record as the program gave it, used by core k, the source before the destination
(11 R256). -/
def recAccessesAt (k : CoreId) (r : BitVec 1024) (i : Nat) : List RecAccess :=
  let e := recElem r i
  let at_ (acc : Acc) (a : Word) (d : Int) : RecAccess := { acc := acc, base := absForm k a, shown := a, delta := d }
  (e.src.map (at_ .load (recSrc r))).toList ++ [at_ .store (recDst r) e.dst]

/-- Every access of a record, in index order. -/
def recAccesses (k : CoreId) (r : BitVec 1024) : List RecAccess := (List.range (recTotal r)).flatMap (recAccessesAt k r)

/-- Step 2 of 11 R256: the base address of the first misaligned operand; for a misaligned ADV that of SRC, in a write-out too (log
19). -/
def recMisaligned (r : BitVec 1024) (window : Bool) : Option Word :=
  let es : Int := recEs r
  let bad (x : Int) : Bool := decide (x % es ≠ 0)
  if bad (recSrc r).toNat then some (recSrc r)
  else if bad (recDst r).toNat then some (recDst r)
  else if bad (recInt r 223 192) || bad (recInt r 255 224) || bad (recInt r 287 256) then some (recSrc r)
  else if bad (recInt r 319 288) || bad (recInt r 351 320) || bad (recInt r 383 352) then some (recDst r)
  else if window && bad (recInt r 575 512) then some (recSrc r)
  else none

/-- Step 3 of 11 R256 for one access of core k: `none` passes. -/
def State.denySpace (s : State) (k : CoreId) (x : RecAccess) : Option Deny :=
  match x.addr with
  | none => some (.cause .access)
  | some a =>
    match s.place k a.toNat with
    | .ok _ => none
    | .error d => some d

/-- Step 4 of 11 R256, its PAGE_FAULT part. -/
def State.denyPage (s : State) (k : CoreId) (x : RecAccess) : Option Deny :=
  match s.place k x.target.toNat with
  | .ok (.global va) =>
    match s.pageOf k x.acc va with
    | .error .pageFault => some (.cause .pageFault)
    | _ => none
  | _ => none

/-- Step 4 of 11 R256, the permission part. -/
def State.denyPermission (s : State) (k : CoreId) (sup : Bool) (x : RecAccess) : Option Deny :=
  match s.resolve k sup x.acc x.target.toNat with
  | .ok _ => none
  | .error d => some d

/-- The first access a check denies. -/
def firstDenied (f : RecAccess → Option Deny) : List RecAccess → Option (Deny × Word)
  | [] => none
  | x :: xs =>
    match f x with
    | some d => some (d, x.tval)
    | none => firstDenied f xs

/-- Virtual and physical page numbers of a global address; nothing for the other spaces. -/
def State.pagePair (s : State) (k : CoreId) (sup : Bool) (acc : Acc) (a : Word) : List (Nat × Nat) :=
  if bits a.toNat 63 60 = 0 then
    match s.resolve k sup acc a.toNat with
    | .ok pa => [(a.toNat / 2 ^ 14, pa / 2 ^ 14)]
    | .error _ => []
  else []

/-- Add pairs not listed yet. -/
def addPages (ps : List (Nat × Nat)) : List (Nat × Nat) → List (Nat × Nat)
  | [] => ps
  | q :: qs => addPages (if ps.any fun p => p.1 == q.1 then ps else ps ++ [q]) qs

/-- The translations a command keeps (11 R256, 07 R167). -/
def State.pagesOf (s : State) (k : CoreId) (sup : Bool) (xs : List RecAccess) : List (Nat × Nat) :=
  xs.foldl (fun ps x => addPages ps (s.pagePair k sup x.acc x.target)) []

/-- What the checks of 11 R256 give for a record as the program gave it: the translations, or the deciding failure as a cause
and TVAL. `slot` is the window number a write-out reports. -/
def State.checkRecord (s : State) (k : CoreId) (sup : Bool) (r : BitVec 1024) (window : Bool) (slot : Nat) :
    Except (Deny × Word) (List (Nat × Nat)) :=
  if !recValid r then .error (.cause .engineFault, engineTval 0 slot 8)
  else match recMisaligned r window with
    | some a => .error (.cause .misaligned, a)
    | none =>
      let xs := recAccesses k r
      match (firstDenied (s.denySpace k) xs).or ((firstDenied (s.denyPage k) xs).or (firstDenied (s.denyPermission k sup) xs)) with
      | some e => .error e
      | none => .ok (s.pagesOf k sup xs)

/-- The address an engine uses for a checked access: global addresses through the kept translations. -/
def engineAddr (pages : List (Nat × Nat)) (a : Word) : Nat :=
  if bits a.toNat 63 60 = 0 then
    match pages.find? fun p => p.1 == a.toNat / 2 ^ 14 with
    | some p => p.2 * 2 ^ 14 + a.toNat % 2 ^ 14
    | none => a.toNat
  else a.toNat

/-- Whether two ranges overlap. -/
def rangesMeet (a n b m : Nat) : Bool := decide (a < b + m) && decide (b < a + n)

/-- Where element i reads, if it does. -/
def recReads (r : BitVec 1024) (pages : List (Nat × Nat)) (i : Nat) : Option Nat :=
  (recElem r i).src.map fun d => engineAddr pages (moved (recSrc r) d)

/-- Where element i writes. -/
def recWrites (r : BitVec 1024) (pages : List (Nat × Nat)) (i : Nat) : Nat :=
  engineAddr pages (moved (recDst r) (recElem r i).dst)

/-- Move element i (11 R254): Mem[d, ES] := Mem[s, ES], or FILL for a filler. -/
def State.moveElem (s : State) (p : Option Nat) (r : BitVec 1024) (pages : List (Nat × Nat)) (i : Nat) : State :=
  let v := match recReads r pages i with
    | some a => s.engineLoad p a (recEs r)
    | none => recBits r 511 448 % 2 ^ (8 * recEs r)
  s.enginePut p (recWrites r pages i) (recEs r) v

/-- The first faulty source byte among elements lo to lo + n - 1: element and address (20 R385). -/
def State.badSource (s : State) (r : BitVec 1024) (pages : List (Nat × Nat)) : List Nat → Option (Nat × Nat)
  | [] => none
  | i :: is =>
    match (recReads r pages i).bind fun a => s.poison a (recEs r) with
    | some b => some (i, b)
    | none => s.badSource r pages is

/-- Move a list of elements. -/
def State.moveElems (s : State) (p : Option Nat) (r : BitVec 1024) (pages : List (Nat × Nat)) (is : List Nat) : State :=
  is.foldl (fun s i => s.moveElem p r pages i) s

/-! ## Queued commands (R252 to R268) -/

/-- Elements of a command; a seal has none. -/
def CopyCmd.total (c : CopyCmd) : Nat := match c.kind with | .seal => 0 | _ => recTotal c.record

/-- Byte ranges a command reads and writes. -/
def CopyCmd.ranges (c : CopyCmd) : List (Nat × Nat) × List (Nat × Nat) :=
  let n := recEs c.record
  let is := List.range c.total
  (is.filterMap fun i => (recReads c.record c.pages i).map fun a => (a, n), is.map fun i => (recWrites c.record c.pages i, n))

/-- Read a window's range as a write-out does (R267). -/
def State.snapshot (s : State) (base size : Nat) : Snapshot where
  bytes := (s.readBytes base size).toArray
  bad := (s.poisoned.filter fun p => decide (base ≤ p) && decide (p < base + size)).map (· - base)

/-- Whether a command or atomic is still to act: it is queued, and no fault has stopped its timeline. -/
def State.outstanding (s : State) : Earlier → Bool
  | .matrix c n =>
    (s.ctx c).matTl.fault.isNone && (lookup MatCtx.reset c (s.hive (coreHive c.core)).mats).queue.any fun d => d.seq == n
  | .copy c n => (s.ctx c).copyTl.fault.isNone && (lookup [] c (s.hive (coreHive c.core)).copies).any fun d => d.seq == n
  | .atomic c n =>
    ((s.hive (coreHive c.core)).arriving ++ (s.hive (coreHive c.core)).queue).any fun p => p.sender == c && p.tag == n

/-- The contexts of a core. -/
def ctxsOf (k : CoreId) : List CtxId := ctxNums.map fun i => { core := k, num := i }

/-- Whether an accepted write-out of a core waits to read until a wide atomic has performed (R267). -/
def State.readsAfter (s : State) (k : CoreId) (o : Earlier) : Bool :=
  (ctxsOf k).any fun c => (s.ctx c).copyTl.fault.isNone && (lookup [] c (s.hive (coreHive k)).copies).any fun d =>
    match d.kind with
    | .writeOut _ _ _ after none => after.contains o
    | _ => false

/-- Whether an accepted write-out of a core has yet to read bytes of a range of its local memory (R267). -/
def State.awaitsRead (s : State) (k : CoreId) (off n : Nat) : Bool :=
  (ctxsOf k).any fun c => (s.ctx c).copyTl.fault.isNone && (lookup [] c (s.hive (coreHive k)).copies).any fun d =>
    match d.kind with
    | .writeOut _ base size _ none => rangesMeet (bits base 18 0) size off n
    | _ => false

end Sys2Proof.Machine
end

