-- ==== Sys2Proof/Machine/Access.lean ====
section
/-! DEFINITION. The accesses of instructions: window touches (11 R265, R266), loads, stores and the read and write of
an atomic (09 R209 to R211), and the shootdown port (17 R353). -/

namespace Sys2Proof.Machine

/-- Deliver a failed check of a record to the acting instruction. -/
def denied {α : Type} (s : State) (d : Deny) (v : Word) : Run α := .error (d.stop v s)

/-- Replace window w of the acting core. -/
def State.setWin (s : State) (w : Fin 8) (x : Window) : State :=
  let k := s.myCore
  s.setMyCore { k with wins := k.wins.set w x }

/-- The first touch of an absent window (11 R266): STATE goes to 10 and the load starts, or the check traps and STATE
stays 01. A relative SRC is converted here, against the core the window is on (log 134). -/
def State.firstTouch (s : State) (w : Fin 8) : Stop :=
  let x := s.myCore.wins[w]
  match s.checkRecord s.cur.core s.me.sup x.record true 0 with
  | .error (d, v) => d.stop v s
  | .ok pages => .hold (s.setWin w { x.with 2 x.dirty with load := some { pages := pages, toucher := s.cur } })

/-- A window access of n bytes at a resolved address (11 R265, R266, 09 R210): passes when no bound window of the
core's own local memory covers it or the window is present; a loading window holds the access; an absent one is
touched; a load that failed traps at the instruction that touched. -/
def State.touchFrom (s : State) (off n : Nat) : List (Fin 8) → Run State
  | [] => .ok s
  | w :: ws =>
    let x := s.myCore.wins[w]
    if !x.meets off n then s.touchFrom off n ws
    else if x.state = 2 then .error (.hold s)
    else if x.state = 1 then
      match x.fault with
      | some (c, t) =>
        if c = s.cur then .error (.trap t (s.setWin w { x with fault := none })) else .error (s.firstTouch w)
      | none => .error (s.firstTouch w)
    else s.touchFrom off n ws

/-- The eight window numbers. -/
def windows : List (Fin 8) := [0, 1, 2, 3, 4, 5, 6, 7]

/-- A window access of the acting context; bytes that an accepted write-out has yet to read hold it (11 R267). -/
def State.touch (s : State) (a n : Nat) : Run State :=
  if bits a 63 60 = 8 && localCore a == s.cur.core then
    if s.awaitsRead s.cur.core (bits a 18 0) n then .error (.hold s) else s.touchFrom (bits a 18 0) n windows
  else .ok s

/-- The window access at an address as the program gives it, if it lies in a local memory. -/
def State.touchAt (s : State) (va : Word) (n : Nat) : Run Unit :=
  match s.place s.cur.core va.toNat with
  | .ok (.here a) => (s.touch a n).map fun _ => ()
  | _ => .ok ()

/-- Steps 1 to 4 of 09 R209, for an access aligned to `al`: the resolved address. -/
def State.checkAddress (s : State) (acc : Acc) (va : Word) (al : Nat) : Run Nat :=
  if va.toNat % al ≠ 0 then trapAt s .misaligned va else s.translate acc va

/-- An access of n bytes: the window access, then the checks of 09 R209 (R210). -/
def State.checkAccess (s : State) (acc : Acc) (va : Word) (n al : Nat) : Run Nat :=
  (s.touchAt va n).bind fun _ => s.checkAddress acc va al

/-- Step 5 of 09 R209. -/
def State.checkData (s : State) (va : Word) (a n : Nat) : Run Unit :=
  match s.poison a n with
  | some b => trapAt (s.logFound b) .dataError (va + BitVec.ofNat 64 (b - a))
  | none => .ok ()

/-- The shootdown request held in 16 bytes (17 R353): dword 0 is VA and ALL, dword 1 the page count. -/
def shootdownOf (c : CtxId) (v : Nat) : Shootdown where
  va := bits v 56 14 * 2 ^ 14
  npg := bits v 95 64
  all := bits v 0 0 == 1
  by_ := c
  bad := bits v 63 57 != 0 || bits v 13 1 != 0 || bits v 127 96 != 0 || (bits v 95 64 == 0 && bits v 0 0 == 0)

/-- A write to REQ is accepted when fewer than 16 requests are pending; otherwise the writer waits (17 R353). -/
def State.requestShootdown (s : State) (p v : Nat) : Run State :=
  let q := s.part p
  if q.requests.length < 16 then
    .ok (s.setPart p { q with requests := q.requests ++ [shootdownOf s.cur v], reqn := q.reqn + 1 })
  else .error (.hold s)

/-- A checked store of n bytes at a resolved address; the context's own speculative loads of those bytes lose their
valid bit (04 R108). A store to the port acts only as a 16-byte STP to REQ (17 R353). -/
def State.storeAt (s : State) (a n v : Nat) : Run State :=
  if inPort a then
    match s.owner s.cur.core with
    | some p => if n = 16 ∧ a = (s.part p).sdport then s.requestShootdown p v else .ok s
    | none => .ok s
  else
    let t := s.put a n v
    .ok (t.setMe (t.me.specStore a n))

/-- A load of n bytes: the value and the resolved address (09 R209). -/
def State.loadMem (s : State) (va : Word) (n al : Nat) : Run (Nat × Nat) :=
  (s.checkAccess .load va n al).bind fun a =>
    (s.checkData va a n).map fun _ => (s.load (s.owner s.cur.core) a n, a)

/-- A store of n bytes (09 R209). -/
def State.storeMem (s : State) (va : Word) (n al v : Nat) : Run State :=
  (s.checkAccess .store va n al).bind fun a => s.storeAt a n v

/-- The check and the read of an atomic (09 R220): the old value and the resolved address. An atomic in a shootdown
port raises ACCESS (17 R353). -/
def State.atomicRead (s : State) (va : Word) (n : Nat) : Run (Nat × Nat) :=
  (s.checkAccess .atomic va n n).bind fun a =>
    if inPort a then trapAt s .access va else (s.checkData va a n).map fun _ => (s.read a n, a)

/-- What bytes a memory access can be extended to by SZ (02 Table 2.9): size in bytes, and whether it sign-extends. -/
def szBytes (sz : BitVec 3) : Nat :=
  match sz.toNat with
  | 0 => 1 | 1 => 2 | 2 => 4 | 3 => 8 | 4 => 16 | 5 => 1 | 6 => 2 | _ => 4

/-- extend(x) by SZ: codes 000 to 010 sign-extend, 101 to 111 zero-extend, 011 is the whole word (02 Table 2.9). -/
def szExtend (sz : BitVec 3) (x : Nat) : Word :=
  match sz.toNat with
  | 0 => (BitVec.ofNat 8 x).signExtend 64
  | 1 => (BitVec.ofNat 16 x).signExtend 64
  | 2 => (BitVec.ofNat 32 x).signExtend 64
  | 3 => BitVec.ofNat 64 x
  | 5 => (BitVec.ofNat 8 x).setWidth 64
  | 6 => (BitVec.ofNat 16 x).setWidth 64
  | _ => (BitVec.ofNat 32 x).setWidth 64

end Sys2Proof.Machine
end

