-- ==== Sys2Proof/Machine/Flags.lean ====
section
/-! DEFINITION. FCTL: flags, trap enables, rounding mode (03 R77 to R79). -/

namespace Sys2Proof.Machine

/-- OR raised flags into FCTL bits 5:0 (03 R78). -/
def Context.mergeFlags (m : Context) (f : Flags) : Context := { m with fctl := m.fctl ||| f.setWidth 64 }

/-- FCTL.EN as a mask over the flags; SX has no enable (03 Table 3.6). -/
def enables (fctl : Word) : Flags := (fctl.extractLsb' 8 5).setWidth 6

/-- FCTL.RM. -/
def dynamicRm (fctl : Word) : BitVec 3 := fctl.extractLsb' 16 3

/-- What a write of v leaves in FCTL: reserved bits 0, RM 000 and 111 stored as 001 (03 Table 3.6, 00 R7). -/
def fctlWrite (v : Word) : Word :=
  let rm := if dynamicRm v = 0 ∨ dynamicRm v = 7 then 1#3 else dynamicRm v
  (v &&& 0x1f3f#64) ||| (rm.setWidth 64 <<< 16)

/-- TVAL of an FP trap (03 R79). -/
def fpTval (f : Flags) (lane : Nat) : Word := (f.extractLsb' 0 5).setWidth 64 ||| BitVec.ofNat 64 (lane * 2 ^ 16)

/-- Whether raised flags include an enabled one (03 R79). -/
def traps (en f : Flags) : Bool := en &&& f != 0

/-- The union of the flags of several results (03 R78). -/
def unionFlags (fs : List Flags) : Flags := fs.foldl (· ||| ·) 0

end Sys2Proof.Machine
end

