-- ==== Sys2Proof/Machine/Operands.lean ====
section
/-! DEFINITION. Operand forms: literals, masks, addresses, widths, rounding, lanes (02 R37 to R42, 04 R84, 05 R119). -/

namespace Sys2Proof

open Machine

/-! ## Masks and literals -/

/-- P[PRED], or its complement when PN = 1 (02 R39). -/
def E1.mask (x : E1) (m : Context) : Word := if x.pn = 1 then ~~~ (m.getP x.pred) else m.getP x.pred

/-- Whether a scalar instruction is active: bit 0 of its mask; a base form always is (02 R39). -/
def Form.active (f : Form) (m : Context) : Bool :=
  match f.e1? with
  | some x => (x.mask m).getLsbD 0
  | none => true

/-- Whether inactive lanes, or an inactive instruction, write zero (02 R39). -/
def Form.zeroes (f : Form) : Bool :=
  match f.e1? with
  | some x => x.z == 1
  | none => false

/-- Whether SAT is 1. -/
def Form.sat (f : Form) : Bool :=
  match f.e1? with
  | some x => x.sat == 1
  | none => false

/-- E1.C. -/
def Form.c (f : Form) : Reg :=
  match f.e1? with
  | some x => x.c
  | none => 0

/-- sext(E2). -/
def Form.disp (f : Form) : Word := f.e2.signExtend 64

/-- The rounding mode code: E1.RM, or FCTL.RM for code 000 (02 R41). -/
def Form.rmCode (f : Form) (m : Context) : BitVec 3 :=
  match f.e1? with
  | some x => if x.rm = 0 then dynamicRm m.fctl else x.rm
  | none => dynamicRm m.fctl

/-- Operand B of format R: the literal, or S[B] (02 R42). -/
def RForm.opB (x : RForm) (m : Context) : Word := x.form.literal?.getD (m.getS x.b)

/-- The active mask of a vector instruction, one bit a lane: PG2 in base form, E1's mask in extended form (02 R37, R39). -/
def VForm.mask (x : VForm) (m : Context) : Word :=
  match x.form.e1? with
  | some e => e.mask m
  | none => m.getP (x.pg.setWidth 3)

/-- The address of format M: S[A] + sext(OFF6) * size, or + sext(E2) in extended form (02 R40, 09 R208). -/
def MForm.addr (x : MForm) (size : Nat) (m : Context) : Word :=
  m.getS x.a + (if x.form.isExt then x.form.disp else BitVec.ofInt 64 (x.off.toInt * size))

end Sys2Proof

namespace Sys2Proof.Machine

/-! ## Scalar results -/

/-- Write a scalar result: an inactive instruction leaves its destination, or writes zero when Z = 1, and raises
nothing (02 R39, 00 R9). -/
def Context.writeScalar (m : Context) (f : Form) (d : Reg) (v : Word) (fl : Flags) : Context :=
  if f.active m then (m.setS d v).mergeFlags fl else if f.zeroes then m.setS d 0 else m

/-- A scalar instruction that computes a value and flags from the context and writes S[D]. -/
def scalarOp (f : Form) (d : Reg) (g : Context → Word × Flags) (s : State) : Host.Outcome State Fault Refusal :=
  finish f.len (.ok (s.setMe (s.me.writeScalar f d (g s.me).1 (g s.me).2)))

/-- The integer type of MOD (04 Table 4.1). -/
def modTy (md : BitVec 4) : IntTy := { signed := md.getLsbD 0 == false, w := if md.getLsbD 1 then 32 else 64 }

/-- Rd(x): an operand as MOD reads it (04 R84). -/
def rd (md : BitVec 4) (x : Word) : Int := (modTy md).val x.toNat

/-- Wr(x): the low w bits of x extended as MOD says (04 R84). -/
def wr (md : BitVec 4) (x : Int) : Word := BitVec.ofInt 64 ((modTy md).val ((modTy md).wrap x))

/-- Sat and the SX flag (04 R86). -/
def wrSat (md : BitVec 4) (sat : Bool) (x : Int) : Word × Flags :=
  let y := if sat then (modTy md).sat x else x
  (wr md y, if y = x then 0 else fSX)

/-- 0 or 1 in 64 bits. -/
def bit (b : Bool) : Word := if b then 1 else 0

/-! ## Lanes (05 R119) -/

/-- Lane i of width w of a vector. -/
def laneOf (w : Nat) (v : VWord) (i : Nat) : Nat := v.toNat / 2 ^ (w * i) % 2 ^ w

/-- A number from lanes, lane 0 first. -/
def packLanes (w : Nat) : List Nat → Nat
  | [] => 0
  | x :: xs => x % 2 ^ w + 2 ^ w * packLanes w xs

/-- A vector from its lanes. -/
def ofLanes (w : Nat) (xs : List Nat) : VWord := BitVec.ofNat 512 (packLanes w xs)

/-- Lanes of a vector. -/
def lanesOf (w : Nat) (v : VWord) : List Nat := (List.range (512 / w)).map (laneOf w v)

/-- Merge per lane: an active lane takes its new value, another keeps the old one or is zero (02 R37, R39). -/
def mergeLanes (w : Nat) (mask : Word) (zero : Bool) (old : VWord) (new : Nat → Nat) : VWord :=
  ofLanes w ((List.range (512 / w)).map fun i =>
    if mask.getLsbD i then new i else if zero then 0 else laneOf w old i)

/-- Merge the low n bits of a predicate: an active bit takes its new value, another keeps the old one or is zero; the
bits from n up are as `old` gives them. -/
def mergeBits (n : Nat) (mask : Word) (zero : Bool) (old : Word) (new : Nat → Bool) : Word :=
  BitVec.ofNat 64 (packLanes 1 ((List.range 64).map fun i =>
    if i < n then
      if mask.getLsbD i then (new i).toNat else if zero then 0 else (old.getLsbD i).toNat
    else (old.getLsbD i).toNat))

end Sys2Proof.Machine
end

