-- ==== Sys2Proof/Machine/LoadStore.lean ====
section
/-! DEFINITION. Scalar, speculative and vector loads and stores (09 R208 to R218, 04 R105 to R109). -/

namespace Sys2Proof.Machine

/-- Whether an ORD code acquires (02 Table 2.8). -/
def acquires (ord : BitVec 2) : Bool := ord.getLsbD 0

/-- An access with acquire invalidates the speculative-load table (04 R108). -/
def Context.acquire (m : Context) (ord : BitVec 2) : Context := if acquires ord then m.dropSpec else m

/-- An inactive scalar load: its destination keeps its value, or becomes zero when Z = 1 (02 R39). -/
def State.skipScalar (s : State) (f : Form) (d : Reg) : State := if f.zeroes then s.setMe (s.me.setS d 0) else s

/-! ## LD and ST (09 R213) -/

/-- A scalar load of up to 8 bytes. -/
def loadScalar (x : MForm) (s : State) : Run State :=
  let n := szBytes x.sz
  (s.loadMem (x.addr n s.me) n n).map fun v => s.setMe ((s.me.setS x.d (szExtend x.sz v.1)).acquire x.ord)

/-- LD. -/
def execLd (x : MForm) (s : State) : Host.Outcome State Fault Refusal :=
  finish x.form.len (if x.form.active s.me then loadScalar x s else .ok (s.skipScalar x.form x.d))

/-- A load of a register pair (R213). -/
def loadPair (x : MForm) (s : State) : Run State :=
  (s.loadMem (x.addr 16 s.me) 16 16).map fun v =>
    s.setMe (((s.me.setS x.d (BitVec.ofNat 64 v.1)).setS (x.d + 1) (BitVec.ofNat 64 (v.1 / 2 ^ 64))).acquire x.ord)

/-- LDP; inactive with Z = 1 it zeroes both registers. -/
def execLdp (x : MForm) (s : State) : Host.Outcome State Fault Refusal :=
  finish x.form.len
    (if x.form.active s.me then loadPair x s else .ok ((s.skipScalar x.form x.d).skipScalar x.form (x.d + 1)))

/-- ST. -/
def execSt (x : MForm) (s : State) : Host.Outcome State Fault Refusal :=
  let n := szBytes x.sz
  finish x.form.len
    (if x.form.active s.me then s.storeMem (x.addr n s.me) n n (s.me.getS x.d).toNat else .ok s)

/-- An instruction that is held waits as a blocked one, so that the event it waits for can run it again. -/
def blockHeld (i : Instr) : Run State → Run State
  | .error (.hold t) => .error (.hold (t.blockIn i none 0))
  | r => r

/-- STP: S[D] at the lower address; a writer of a shootdown port with 16 requests pending waits (17 R353). -/
def execStp (x : MForm) (s : State) : Host.Outcome State Fault Refusal :=
  finish x.form.len
    (if x.form.active s.me then
      blockHeld (.stp x)
        (s.storeMem (x.addr 16 s.me) 16 16 ((s.me.getS x.d).toNat + (s.me.getS (x.d + 1)).toNat * 2 ^ 64))
     else .ok s)

/-! ## LDS and CHKLD (04 R105 to R109) -/

/-- Record an entry: it replaces one for the same register, or takes a free place, or the oldest one's (R107). -/
def recordSpec (e : SpecEntry) (t : List SpecEntry) : List SpecEntry :=
  let t := t.filter fun f => f.reg != e.reg
  (if t.length < 8 then t else t.tail) ++ [e]

/-- Whether bytes at a resolved address lie in a window marked absent of the acting core (R107, 11 Table 11.5). -/
def State.inAbsentWindow (s : State) (a n : Nat) : Bool :=
  bits a 63 60 == 8 && localCore a == s.cur.core && s.myCore.wins.toList.any fun w => w.state == 1 && w.meets (bits a 18 0) n

/-- What LDS reads: `none` where the access would trap or lies in an absent window (R107). -/
def State.speculate (s : State) (va : Word) (n : Nat) : Run (Option (Nat × Nat)) :=
  if va.toNat % n ≠ 0 then .ok none
  else match s.resolve s.cur.core s.me.sup .load va.toNat with
    | .error .fenced => .error (.hold s)
    | .error (.cause _) => .ok none
    | .ok a =>
      if (s.poison a n).isSome || s.inAbsentWindow a n then .ok none
      else .ok (some (s.load (s.owner s.cur.core) a n, a))

/-- An error that the read of an LDS meets is logged, though it does not trap: a faulty byte, or a faulty table entry of its walk (20
R384). -/
def State.logSpeculate (s : State) (va : Word) (n : Nat) : State :=
  if va.toNat % n ≠ 0 then s
  else match s.resolve s.cur.core s.me.sup .load va.toNat with
    | .error (.cause .access) => s.logWalk s.cur.core va.toNat
    | .error _ => s
    | .ok a => match s.poison a n with
      | some b => if s.inAbsentWindow a n then s else s.logFound b
      | none => s

/-- The context after LDS: register, size tag and table entry (R107). -/
def Context.ldsWrite (m : Context) (x : MForm) (va : Word) (r : Option (Nat × Nat)) : Context :=
  let m := { m with tags := m.tags.set x.d.toNat x.sz }
  let n := szBytes x.sz
  match r with
  | some (v, a) =>
    let m := m.setS x.d (szExtend x.sz v)
    { m with spec := recordSpec { reg := x.d, va := va.toNat, addr := a, size := n, valid := true } m.spec }
  | none =>
    let m := m.setS x.d 0
    { m with spec := recordSpec { reg := x.d, va := va.toNat, addr := va.toNat, size := n, valid := false } m.spec }

/-- LDS. -/
def execLds (x : MForm) (s : State) : Host.Outcome State Fault Refusal :=
  let n := szBytes x.sz
  let va := x.addr n s.me
  finish x.form.len
    (if x.form.active s.me then (s.speculate va n).map fun r => (s.logSpeculate va n).setMe (s.me.ldsWrite x va r)
     else .ok (s.skipScalar x.form x.d))

/-- Remove the entry of a register (R109). -/
def Context.unrecord (m : Context) (r : Reg) : Context := { m with spec := m.spec.filter fun e => e.reg != r }

/-- Whether CHKLD finds a valid entry for its register, the same address and the tagged size (R109). -/
def State.checkHit (s : State) (d : Reg) (va : Word) (n : Nat) : Bool :=
  match s.resolve s.cur.core s.me.sup .load va.toNat with
  | .ok a => s.me.spec.any fun e => e.reg == d && e.valid && e.addr == a && e.size == n
  | .error _ => false

/-- CHKLD. -/
def execChkld (x : MForm) (s : State) : Host.Outcome State Fault Refusal :=
  let tag := s.me.tags[x.d.toNat]
  let n := szBytes tag
  let va := x.addr 16 s.me
  finish x.form.len
    (if !x.form.active s.me then .ok (s.skipScalar x.form x.d)
     else if s.checkHit x.d va n then .ok (s.setMe (s.me.unrecord x.d))
     else (s.loadMem va n n).map fun v => s.setMe ((s.me.setS x.d (szExtend tag v.1)).unrecord x.d))

/-! ## Lanes of vector accesses (09 R209, R215 to R217) -/

/-- Check the lanes named, lowest first, and read them: lane number and value. -/
def State.loadLanes (s : State) (n : Nat) : List (Nat × Word) → Run (List (Nat × Nat))
  | [] => .ok []
  | (i, va) :: ls => (s.loadMem va n n).bind fun v => (s.loadLanes n ls).map fun vs => (i, v.1) :: vs

/-- Check the lanes named, lowest first, for a store: lane number and resolved address. -/
def State.checkLanes (s : State) (n : Nat) : List (Nat × Word) → Run (List (Nat × Nat))
  | [] => .ok []
  | (i, va) :: ls => (s.checkAccess .store va n n).bind fun a => (s.checkLanes n ls).map fun as => (i, a) :: as

/-- Store checked lanes in increasing lane order (R217). -/
def State.storeLanes (s : State) (w : Nat) (data : VWord) : List (Nat × Nat) → Run State
  | [] => .ok s
  | (i, a) :: ls => (s.storeAt a (w / 8) (laneOf w data i)).bind fun t => t.storeLanes w data ls

/-- The active lanes with their addresses. -/
def activeLanes (w : Nat) (mask : Word) (addr : Nat → Word) : List (Nat × Word) :=
  ((List.range (512 / w)).filter fun i => mask.getLsbD i).map fun i => (i, addr i)

/-- A masked vector load into V[D] from lane addresses. -/
def loadVector (w : Nat) (mask : Word) (zero : Bool) (d : Reg) (addr : Nat → Word) (s : State) : Run State :=
  (s.loadLanes (w / 8) (activeLanes w mask addr)).map fun vs =>
    s.setMe (s.me.setV d (mergeLanes w mask zero (s.me.getV d) fun i => lookup 0 i vs))

/-- A masked vector store of V[D] to lane addresses. -/
def storeVector (w : Nat) (mask : Word) (d : Reg) (addr : Nat → Word) (s : State) : Run State :=
  (s.checkLanes (w / 8) (activeLanes w mask addr)).bind fun as => s.storeLanes w (s.me.getV d) as

/-- The mask of VLD and VST: none in base form, E1's in extended form (R215). -/
def Form.laneMask (f : Form) (m : Context) : Word :=
  match f.e1? with
  | some x => x.mask m
  | none => BitVec.allOnes 64

/-- Lane addresses of 64 consecutive bytes. -/
def consecutive (base : Word) (w : Nat) (i : Nat) : Word := base + BitVec.ofNat 64 (i * (w / 8))

/-- VLD. -/
def execVld (x : MForm) (s : State) : Host.Outcome State Fault Refusal :=
  let w := 8 * 2 ^ x.sz.toNat
  finish x.form.len
    ((loadVector w (Form.laneMask x.form s.me) x.form.zeroes x.d (consecutive (x.addr (w / 8) s.me) w) s).map fun t =>
      t.setMe (t.me.acquire x.ord))

/-- VST. -/
def execVst (x : MForm) (s : State) : Host.Outcome State Fault Refusal :=
  let w := 8 * 2 ^ x.sz.toNat
  finish x.form.len (storeVector w (Form.laneMask x.form s.me) x.d (consecutive (x.addr (w / 8) s.me) w) s)

/-- The integer type of TY3 in VPERM and VGATH (05 R126). -/
def tyInt (ty : BitVec 3) : IntTy := { signed := !ty.getLsbD 2, w := 8 * 2 ^ (ty.extractLsb' 0 2).toNat }

/-- Base address of VGATH: S[A] + E2 (R216). -/
def VForm.base (x : VForm) (m : Context) : Word := m.getS x.a + x.form.disp

/-- Lane addresses of VLDS and VSTS (Table 9.3). -/
def stridedAddr (x : VForm) (m : Context) (i : Nat) : Word := VForm.base x m + BitVec.ofNat 64 i * m.getS x.b

/-- Lane addresses of VLDX and VSTX (R216, Table 9.3). -/
def indexedAddr (x : VForm) (m : Context) (i : Nat) : Word :=
  let t := tyInt x.ty
  VForm.base x m + BitVec.ofInt 64 (t.val (laneOf t.w (m.getV x.b) i) * (t.w / 8 : Nat))

/-- VLDS. -/
def execVlds (x : VForm) (s : State) : Host.Outcome State Fault Refusal :=
  finish x.form.len (loadVector (tyInt x.ty).w (x.mask s.me) x.form.zeroes x.d (stridedAddr x s.me) s)

/-- VSTS. -/
def execVsts (x : VForm) (s : State) : Host.Outcome State Fault Refusal :=
  finish x.form.len (storeVector (tyInt x.ty).w (x.mask s.me) x.d (stridedAddr x s.me) s)

/-- VLDX. -/
def execVldx (x : VForm) (s : State) : Host.Outcome State Fault Refusal :=
  finish x.form.len (loadVector (tyInt x.ty).w (x.mask s.me) x.form.zeroes x.d (indexedAddr x s.me) s)

/-- VSTX. -/
def execVstx (x : VForm) (s : State) : Host.Outcome State Fault Refusal :=
  finish x.form.len (storeVector (tyInt x.ty).w (x.mask s.me) x.d (indexedAddr x s.me) s)

/-- The four 64-byte parts of a VLDB, each checked as it is read, as value and resolved address; the whole is aligned to 64
(R218). -/
def State.loadBlock (s : State) (va : Word) : List Nat → Run (List (Nat × Nat))
  | [] => .ok []
  | j :: js => (s.loadMem (va + BitVec.ofNat 64 (64 * j)) 64 64).bind fun v => (s.loadBlock va js).map fun vs => v :: vs

/-- V[D] to V[D+3] := four values. -/
def Context.setBlock (m : Context) (d : Reg) (vs : List Nat) : Context :=
  (vs.zip [0, 1, 2, 3]).foldl (fun m v => m.setV (d + BitVec.ofNat 5 v.2) (BitVec.ofNat 512 v.1)) m

/-- VLDB. -/
def execVldb (x : VForm) (s : State) : Host.Outcome State Fault Refusal :=
  finish x.form.len ((s.loadBlock (VForm.base x s.me) [0, 1, 2, 3]).map fun vs => s.setMe (s.me.setBlock x.d (vs.map (·.1))))

/-! ## Weak reads (R218, 10 R241) -/

/-- The outstanding weak reads of the same bytes at a core's hive router. -/
def State.weakPeers (s : State) (h : HiveId) (pieces : List Nat) : List WeakRead :=
  [0, 1, 2, 3].flatMap fun q => (s.hive (quadHive h q)).weakReads.filter fun r => r.pieces == pieces

/-- Byte i of piece j of a merged weak read: what it was when one of the reads of the merge was issued, which one left open
(log 116); `old` are the other reads' values of the piece, `now` its present value. -/
def weakByte (free : Nat) (old : List Nat) (now i : Nat) : Nat :=
  let vs := (old ++ [now]).map fun v => v / 2 ^ (8 * i) % 256
  vs.getD (Config.choose (free + i) % vs.length) 0

/-- The value of piece j of a weak read. -/
def weakPiece (free : Nat) (old : List WeakRead) (j now : Nat) : Nat :=
  if old.isEmpty then now
  else packLanes 8 ((List.range 64).map (weakByte (free + 64 * j) (old.map fun r => r.values.getD j 0) now))

/-- A weak read is outstanding from its issue, with the values it found, until its context issues again (log 116). -/
def State.beginWeak (s : State) (pieces values : List Nat) : State :=
  let t := s.endWeak s.cur
  let h := t.hive s.myHive
  { t.setHive s.myHive { h with weakReads := h.weakReads ++ [{ reader := s.cur, pieces := pieces, values := values }] } with
    free := s.free + 256 }

/-- VLDB.weak: on a global address it may merge with the outstanding weak reads of its 256 bytes (R218, 10 R241); elsewhere it is
VLDB. -/
def loadBlockWeak (x : VForm) (s : State) : Run State :=
  (s.loadBlock (VForm.base x s.me) [0, 1, 2, 3]).map fun vs =>
    let pieces := vs.map (·.2)
    let now := vs.map (·.1)
    if pieces.any fun a => decide (2 ^ 52 ≤ a) then s.setMe (s.me.setBlock x.d now)
    else
      let old := s.weakPeers s.myHive pieces
      let got := (List.range 4).map fun j => weakPiece s.free old j (now.getD j 0)
      let t := s.beginWeak pieces now
      t.setMe (t.me.setBlock x.d got)

/-- VLDB.weak. -/
def execVldbWeak (x : VForm) (s : State) : Host.Outcome State Fault Refusal := finish x.form.len (loadBlockWeak x s)

end Sys2Proof.Machine
end

