-- ==== Sys2Proof/Machine/Ship.lean ====
section
/-! DEFINITION. The sender's side of shipping: credits, the packet, pending registers, the flag merge queue, and what a
landing does to the sender (06 R149 to R160). -/

namespace Sys2Proof.Machine

/-- Whether heavy instructions of the acting context are shipped: on a little core (06 R149). -/
def State.ships (s : State) : Bool := !s.cur.core.big

/-- Spent credits of a core (06 R152). -/
def Core.spent (k : Core) : Nat := k.creditReserved.toNat + k.creditsPooled

/-- Whether a core has a context that waits for a credit to issue, and not for a flag-merge-queue entry (06 R152). -/
def Core.waitsCredit (k : Core) : Bool :=
  (k.status == .running || k.status == .halting) &&
    k.ctxs.toList.any fun m => m.live && !m.stopped && !m.parked && m.creditWait && decide (m.flagQueue.length < 64)

/-- How many cores wait for a pooled credit and come before the acting core, round-robin over the 32 core indices from the one
whose turn it is (06 R152). -/
def State.creditsAhead (s : State) : Nat :=
  let h := s.hive s.myHive
  let far (i : Nat) : Nat := (i + 32 - h.creditTurn % 32) % 32
  ((List.range 32).filter fun i =>
    decide (far i < far (coreIndex s.cur.core)) && (s.core (littleCore s.myHive i)).creditReserved &&
      decide ((s.core (littleCore s.myHive i)).spent < 8) && (s.core (littleCore s.myHive i)).waitsCredit).length

/-- Whether the acting core can spend a credit, and the acting context has a free flag-merge-queue entry (06 R152). -/
def State.canShip (s : State) : Bool :=
  let k := s.myCore
  decide (k.spent < 8) && (!k.creditReserved || decide (s.creditsAhead < (s.hive s.myHive).pooled)) &&
    decide (s.me.flagQueue.length < 64)

/-- Spend a credit: the reserved one if the core holds it, else one of the pool, whose next turn is the next core's (06 R152). -/
def State.spendCredit (s : State) : State :=
  let k := s.myCore
  if !k.creditReserved then s.setMyCore { k with creditReserved := true }
  else
    let h := s.hive s.myHive
    (s.setMyCore { k with creditsPooled := k.creditsPooled + 1 }).setHive s.myHive { h with
      pooled := h.pooled - 1, creditTurn := (coreIndex s.cur.core + 1) % 32 }

/-- Return a credit to where it came from (06 R152). -/
def State.returnCredit (s : State) (k : CoreId) (reserved : Bool) : State :=
  let c := s.core k
  if reserved then s.setCore k { c with creditReserved := false }
  else
    let h := s.hive (coreHive k)
    (s.setCore k { c with creditsPooled := c.creditsPooled - 1 }).setHive (coreHive k) { h with pooled := h.pooled + 1 }

/-- Set the pending bit of a register (06 R155). -/
def Context.setPending (m : Context) (d : Dest) : Context :=
  match d with
  | .s r => { m with pendS := m.pendS ||| BitVec.ofNat 32 (2 ^ r.toNat) }
  | .v r => { m with pendV := m.pendV ||| BitVec.ofNat 32 (2 ^ r.toNat) }
  | .p r => { m with pendP := m.pendP ||| BitVec.ofNat 8 (2 ^ r.toNat) }

/-- Clear the pending bit of a register. -/
def Context.clearPending (m : Context) (d : Dest) : Context :=
  match d with
  | .s r => { m with pendS := m.pendS &&& ~~~ (BitVec.ofNat 32 (2 ^ r.toNat)) }
  | .v r => { m with pendV := m.pendV &&& ~~~ (BitVec.ofNat 32 (2 ^ r.toNat)) }
  | .p r => { m with pendP := m.pendP &&& ~~~ (BitVec.ofNat 8 (2 ^ r.toNat)) }

/-- The registers a piece of shipped work writes. -/
def ShipWork.dests : ShipWork → List Dest
  | .float j => [j.dest]
  | .atomic j => if j.size = 16 then [.s j.d, .s (j.d + 1)] else [.s j.d]

/-- Ship work for instruction i (06 R149 to R155): the context waits to issue while it has no credit or no flag-merge-queue entry; a
held sender stays in the instruction, another goes on. -/
def State.ship (s : State) (i : Instr) (work : ShipWork) (held : Bool) : Run State :=
  if !s.canShip then .error (.hold (s.setMe { s.me with creditWait := true }))
  else
    let m := s.me
    let p : Packet := { sender := s.cur, tag := m.nextTag % 64, held := held, reserved := !s.myCore.creditReserved,
                        work := work, entered := s.dieCycle, atQueue := false, aged := false }
    let m := work.dests.foldl Context.setPending m
    let m := { m with nextTag := m.nextTag + 1, flagQueue := m.flagQueue ++ [{ tag := p.tag, flags := none }] }
    let t := s.spendCredit.setMe m
    let h := t.hive t.myHive
    let t := t.setHive t.myHive { h with arriving := h.arriving ++ [p] }
    if held then .error (.hold (t.blockIn i none 1)) else .ok t

/-! ## Landing (06 R155 to R158) -/

/-- Merge landed flags from the head of the queue (06 R158). -/
def mergeHead : List FlagEntry → Word → List FlagEntry × Word
  | [], f => ([], f)
  | e :: es, f =>
    match e.flags with
    | some fl => mergeHead es (f ||| fl.setWidth 64)
    | none => (e :: es, f)

/-- Store landed flags in their entry and merge what can leave the queue. -/
def Context.landFlags (m : Context) (tag : Nat) (f : Flags) : Context :=
  let q := m.flagQueue.map fun e => if e.tag = tag then { e with flags := some f } else e
  let r := mergeHead q m.fctl
  { m with flagQueue := r.1, fctl := r.2 }

/-- A result that carries a trap: the destination is unchanged, its pending bits are cleared (06 R157). -/
def Context.landTrap (m : Context) (r : Result) : Context :=
  (r.writes.foldl (fun m w => m.clearPending w.1) m).landFlags r.tag 0

/-- A result that lands: destinations written, pending bits cleared, flags merged in program order; a held sender moves
past its instruction (06 R155, R158). -/
def Context.land (m : Context) (r : Result) : Context :=
  let m := (r.writes.foldl (fun m w => (m.setDest w.1 w.2).clearPending w.1) m).landFlags r.tag r.flags
  if r.held then
    match m.blocked with
    | some b => m.advance (((encode b.instr).headD 0).extractLsb' 0 2)
    | none => m
  else m

end Sys2Proof.Machine
end

