-- ==== Sys2Proof/Machine/Atomic.lean ====
section
/-! DEFINITION. Atomics (09 R219 to R222). -/

namespace Sys2Proof.Machine

/-- S[A] + sext(E2) (R219). -/
def AForm.addr (x : AForm) (m : Context) : Word := m.getS x.a + x.e2.signExtend 64

/-- Whether an atomic runs within its hive (Table 9.6). -/
def AForm.inHive (x : AForm) : Bool := decide (x.scope.toNat ≤ 1)

/-- A register pair: the named register holds the lower 8 bytes (R219). -/
def Context.pair (m : Context) (r : Reg) : Nat := (m.getS r).toNat + (m.getS (r + 1)).toNat * 2 ^ 64

/-- The new value of an integer operation on n bytes, `none` for no write (Table 9.5): old value, operand C, operand N. -/
abbrev AmoFn := Nat → Nat → Nat → Option Nat

/-- Smaller or larger by a type. -/
def amoPick (t : IntTy) (max : Bool) : AmoFn := fun old c _ => some (if decide (t.val old < t.val c) != max then old else c)

/-- The operand of n bytes and the new value's operand. -/
def AForm.operand (r : Reg) (n : Nat) (m : Context) : Nat := if n = 16 then m.pair r else (m.getS r).toNat % 2 ^ (8 * n)

/-- Write the old value: by SZ, or a pair for 16 bytes (R220). -/
def Context.oldValue (m : Context) (sz : BitVec 3) (d : Reg) (old : Nat) : Context :=
  if sz = 4 then (m.setS d (BitVec.ofNat 64 old)).setS (d + 1) (BitVec.ofNat 64 (old / 2 ^ 64)) else m.setS d (szExtend sz old)

/-- An integer atomic executed by the acting core (R220). -/
def amoHere (x : AForm) (f : AmoFn) (s : State) : Run State :=
  let n := szBytes x.sz
  (s.atomicRead (AForm.addr x s.me) n).bind fun r =>
    let stored : Run State :=
      match f r.1 (AForm.operand x.c n s.me) (AForm.operand x.n n s.me) with
      | some v => s.storeAt r.2 n (v % 2 ^ (8 * n))
      | none => .ok s
    stored.map fun t => t.setMe ((t.me.oldValue x.sz x.d r.1).acquire x.ord)

/-- AMOF's new value and flags (R220, 03 R72 to R74, R80): rounded to nearest even. -/
def amofRun (op : Nat) (f : Fmt) (old c : Nat) : Nat × Flags :=
  if op = 16 then fpArith .add f .rne .final old c else fpMinMax (op == 18) false f old c

/-- An AMOF executed by the acting core: an enabled flag leaves memory, S[D] and FCTL unchanged (R220). -/
def amofHere (x : AForm) (op : Nat) (s : State) : Run State :=
  let n := szBytes x.sz
  let f : Fmt := if n = 8 then .f64 else .f32
  (s.atomicRead (AForm.addr x s.me) n).bind fun r =>
    let (v, fl) := amofRun op f r.1 (AForm.operand x.c n s.me)
    if traps (enables s.me.fctl) fl then trapAt s .fp (fpTval fl 0)
    else (s.storeAt r.2 n v).map fun t =>
      t.setMe (((t.me.setS x.d (BitVec.ofNat 64 r.1)).mergeFlags fl).acquire x.ord)

/-! ## Shipped forms (06 R156) -/

/-- Operation codes of the wide forms (Table 9.5). -/
def wideFn (op : Nat) : AmoFn := fun old c n =>
  match op with
  | 32 => some c
  | 33 => some ((old + c) % 2 ^ 128)
  | 34 => some (old &&& c)
  | 35 => some (old ||| c)
  | 36 => some (old ^^^ c)
  | _ => if old = c then some n else none

/-- Ship a wide atomic: it is checked and translated at the sender, which is held (06 R156). -/
def shipAtomic (x : AForm) (i : Instr) (op : Nat) (s : State) : Run State :=
  let n := szBytes x.sz
  let va := AForm.addr x s.me
  (s.checkAccess .atomic va n n).bind fun a =>
    if inPort a then trapAt s .access va
    else s.ship i (.atomic { op := op, size := n, addr := a, space := (s.owner s.cur.core).getD 0, hive := AForm.inHive x,
                             a := BitVec.ofNat 128 (AForm.operand x.c n s.me),
                             b := BitVec.ofNat 128 (AForm.operand x.n n s.me), d := x.d, va := va,
                             en := enables s.me.fctl }) true

/-- Whether a wide atomic that found `old` writes memory: a CAS2 that fails does not (09 R220). -/
def WideAtomic.writes (j : WideAtomic) (old : Nat) : Bool :=
  j.size == 8 || (wideFn j.op old j.a.toNat j.b.toNat).isSome

/-- The wide-atomic unit: new memory, old value, flags, or a trap for the sender (06 R156, 09 R220). -/
def WideAtomic.run (j : WideAtomic) (s : State) : State × Except Trap (Nat × Flags) :=
  match s.poison j.addr j.size with
  | some b => (s.logFound b, .error { cause := .dataError, tval := j.va + BitVec.ofNat 64 (b - j.addr) })
  | none =>
    let old := s.read j.addr j.size
    if j.size = 8 then
      let (v, fl) := amofRun j.op .f64 old j.a.toNat
      if traps j.en fl then (s, .error { cause := .fp, tval := fpTval fl 0 }) else (s.put j.addr 8 v, .ok (old, fl))
    else
      match wideFn j.op old j.a.toNat j.b.toNat with
      | some v => (s.put j.addr 16 v, .ok (old, 0))
      | none => (s, .ok (old, 0))

/-- A wide atomic: shipped on a little core, executed by a big core itself (R222). -/
def wideAtomic (x : AForm) (i : Instr) (op : Nat) (s : State) : Host.Outcome State Fault Refusal :=
  finish 2 (if s.ships then shipAtomic x i op s else amoHere x (wideFn op) s)

/-- An AMOF: the .f64 form is shipped on a little core (R222). -/
def floatAtomic (x : AForm) (i : Instr) (op : Nat) (s : State) : Host.Outcome State Fault Refusal :=
  finish 2 (if s.ships && x.sz == 3 then shipAtomic x i op s else amofHere x op s)

/-- AMO.swap (Table 9.5). -/
def execAmoSwap (x : AForm) (s : State) : Host.Outcome State Fault Refusal := finish 2 (amoHere x (fun _ c _ => some c) s)

/-- AMO.add, wrapping (Table 9.5). -/
def execAmoAdd (x : AForm) (s : State) : Host.Outcome State Fault Refusal := finish 2 (amoHere x (fun old c _ => some (old + c)) s)

/-- AMO.and (Table 9.5). -/
def execAmoAnd (x : AForm) (s : State) : Host.Outcome State Fault Refusal := finish 2 (amoHere x (fun old c _ => some (old &&& c)) s)

/-- AMO.or (Table 9.5). -/
def execAmoOr (x : AForm) (s : State) : Host.Outcome State Fault Refusal := finish 2 (amoHere x (fun old c _ => some (old ||| c)) s)

/-- AMO.xor (Table 9.5). -/
def execAmoXor (x : AForm) (s : State) : Host.Outcome State Fault Refusal := finish 2 (amoHere x (fun old c _ => some (old ^^^ c)) s)

/-- AMO.min, signed (Table 9.5). -/
def execAmoMin (x : AForm) (s : State) : Host.Outcome State Fault Refusal := finish 2 (amoHere x (amoPick { signed := true, w := 8 * szBytes x.sz } false) s)

/-- AMO.max, signed (Table 9.5). -/
def execAmoMax (x : AForm) (s : State) : Host.Outcome State Fault Refusal := finish 2 (amoHere x (amoPick { signed := true, w := 8 * szBytes x.sz } true) s)

/-- AMO.minn, unsigned (Table 9.5). -/
def execAmoMinn (x : AForm) (s : State) : Host.Outcome State Fault Refusal := finish 2 (amoHere x (amoPick { signed := false, w := 8 * szBytes x.sz } false) s)

/-- AMO.maxn, unsigned (Table 9.5). -/
def execAmoMaxn (x : AForm) (s : State) : Host.Outcome State Fault Refusal := finish 2 (amoHere x (amoPick { signed := false, w := 8 * szBytes x.sz } true) s)

/-- CAS: no write unless the old value is c (Table 9.5). -/
def execCas (x : AForm) (s : State) : Host.Outcome State Fault Refusal := finish 2 (amoHere x (fun old c n => if old = c then some n else none) s)

/-- AMOF.add (Table 9.5). -/
def execAmofAdd (x : AForm) (s : State) : Host.Outcome State Fault Refusal := floatAtomic x (.amofAdd x) 16 s

/-- AMOF.min: minimumNumber (Table 9.5). -/
def execAmofMin (x : AForm) (s : State) : Host.Outcome State Fault Refusal := floatAtomic x (.amofMin x) 17 s

/-- AMOF.max: maximumNumber (Table 9.5). -/
def execAmofMax (x : AForm) (s : State) : Host.Outcome State Fault Refusal := floatAtomic x (.amofMax x) 18 s

/-- AMO2.swap (Table 9.5). -/
def execAmo2Swap (x : AForm) (s : State) : Host.Outcome State Fault Refusal := wideAtomic x (.amo2Swap x) 32 s

/-- AMO2.add (Table 9.5). -/
def execAmo2Add (x : AForm) (s : State) : Host.Outcome State Fault Refusal := wideAtomic x (.amo2Add x) 33 s

/-- AMO2.and (Table 9.5). -/
def execAmo2And (x : AForm) (s : State) : Host.Outcome State Fault Refusal := wideAtomic x (.amo2And x) 34 s

/-- AMO2.or (Table 9.5). -/
def execAmo2Or (x : AForm) (s : State) : Host.Outcome State Fault Refusal := wideAtomic x (.amo2Or x) 35 s

/-- AMO2.xor (Table 9.5). -/
def execAmo2Xor (x : AForm) (s : State) : Host.Outcome State Fault Refusal := wideAtomic x (.amo2Xor x) 36 s

/-- CAS2 (Table 9.5). -/
def execCas2 (x : AForm) (s : State) : Host.Outcome State Fault Refusal := wideAtomic x (.cas2 x) 41 s

end Sys2Proof.Machine
end

