-- ==== Sys2Proof/Machine/Branch.lean ====
section
/-! DEFINITION. Branches, jumps, calls and the return-address store (04 R100 to R104). -/

namespace Sys2Proof.Machine

/-- Set the program counter and let the context go on. -/
def State.jump (s : State) (target : Word) : State := s.setMe { s.me with pc := target, blocked := none }

/-- The branch condition of BCC (04 Table 4.9). -/
def bccTaken (cond : Nat) (a b : Word) : Bool :=
  match cond with
  | 0 => a == b
  | 1 => a != b
  | 2 => a.slt b
  | 3 => !a.slt b
  | 4 => a.ult b
  | _ => !a.ult b

/-- The branch condition of BP (04 Table 4.9). -/
def bpTaken (cond : Nat) (p : Word) : Bool :=
  match cond with
  | 8 => p != 0
  | 9 => p == 0
  | 10 => p.getLsbD 0
  | _ => !p.getLsbD 0

/-- The target of format B: the instruction address + sext(DISP10) * 4, or + sext(E2) * 4 (02 R40). -/
def branchTarget (x : BForm) (pc : Word) : Word :=
  pc + 4 * (if x.form.isExt then x.form.disp else x.disp.signExtend 64)

/-- Branch if taken, else go on. -/
def branchIf (x : BForm) (taken : Bool) (s : State) : Host.Outcome State Fault Refusal :=
  .next (if taken then s.jump (branchTarget x s.me.pc) else s.advance x.form.len)

/-- Push (04 R104): a full store spills its oldest entry to RASP first. -/
def State.push (s : State) (ret : Word) : Run State :=
  let m := s.me
  if m.ras.length < 16 then .ok (s.setMe { m with ras := m.ras ++ [ret] })
  else if decide (m.rasl.toNat < m.rasp.toNat + 8) || m.rasn == 0xFFFFFFFF#32 then trapAt s .rasLimit m.rasp
  else
    (s.storeMem m.rasp 8 8 (m.ras.headD 0).toNat).map fun t =>
      let m := t.me
      t.setMe { m with rasp := m.rasp + 8, rasn := m.rasn + 1, ras := m.ras.tail ++ [ret] }

/-- Pop (04 R104): an empty store refills from memory below RASP. -/
def State.pop (s : State) : Run (Word × State) :=
  let m := s.me
  match m.ras.getLast? with
  | some t => .ok (t, s.setMe { m with ras := m.ras.dropLast })
  | none =>
    if m.rasn = 0 then trapAt s .rasLimit m.rasp
    else (s.loadMem (m.rasp - 8) 8 8).map fun v =>
      (BitVec.ofNat 64 v.1, s.setMe { m with rasp := m.rasp - 8, rasn := m.rasn - 1 })

/-- The next sequential program counter. -/
def State.nextPc (s : State) (len : BitVec 2) : Word := s.me.pc + BitVec.ofNat 64 (4 * lenWords len)

/-- A call: the target is checked (02 R31), the next sequential PC pushed, then the PC set (04 R100, R102). -/
def callTo (len : BitVec 2) (target : Word) (s : State) : Host.Outcome State Fault Refusal :=
  settle len
    (if target.toNat % 4 ≠ 0 then trapAt s .misaligned target
     else (s.push (s.nextPc len)).map fun t => t.jump target)

/-- RET (04 R102): the target is popped; a misaligned one traps and leaves the store unchanged (02 R31, 04 R104). -/
def retFrom (len : BitVec 2) (s : State) : Host.Outcome State Fault Refusal :=
  settle len (s.pop.bind fun r => if r.1.toNat % 4 ≠ 0 then trapAt s .misaligned r.1 else .ok (r.2.jump r.1))

/-- The target of JI and CALLI: S[A], plus sext(E2) in extended form (04 R102). -/
def indirectTarget (x : RForm) (m : Context) : Word := m.getS x.a + (if x.form.isExt then x.form.disp else 0)

/-- BCC (04 R100). -/
def execBcc (x : BForm) (s : State) : Host.Outcome State Fault Refusal :=
  branchIf x (bccTaken x.cond.toNat (s.me.getS x.a) (s.me.getS x.b)) s

/-- BP (04 R100). -/
def execBp (x : BForm) (s : State) : Host.Outcome State Fault Refusal :=
  branchIf x (bpTaken x.cond.toNat (s.me.getP (x.a.setWidth 3))) s

/-- CALL (04 R100). -/
def execCall (x : BForm) (s : State) : Host.Outcome State Fault Refusal := callTo x.form.len (branchTarget x s.me.pc) s

/-- J (04 R101). -/
def execJ (x : JForm) (s : State) : Host.Outcome State Fault Refusal :=
  .next (s.jump (s.me.pc + 4 * (if x.form.isExt then x.form.disp else x.disp.signExtend 64)))

/-- JI (04 R102). -/
def execJi (x : RForm) (s : State) : Host.Outcome State Fault Refusal :=
  let t := indirectTarget x s.me
  settle x.form.len (if t.toNat % 4 ≠ 0 then trapAt s .misaligned t else .ok (s.jump t))

/-- CALLI (04 R102). -/
def execCalli (x : RForm) (s : State) : Host.Outcome State Fault Refusal := callTo x.form.len (indirectTarget x s.me) s

/-- RET, base form (04 R102). -/
def execRet (s : State) : Host.Outcome State Fault Refusal := retFrom 0 s

/-- RET, extended form (04 R102). -/
def execRetX (s : State) : Host.Outcome State Fault Refusal := retFrom 2 s

end Sys2Proof.Machine
end

