-- ==== Sys2Proof/Machine/Record.lean ====
section
/-! DEFINITION. Record and replay: the entries of a record buffer, and an event that is recorded in record mode and
waits for its entry in replay mode (20 R392 to R394). -/

namespace Sys2Proof.Machine

/-- Fields of a record entry (20 Table 20.8). -/
def recType (e : Nat) : Nat := bits e 63 56
/-- WHO of a record entry. -/
def recWho (e : Nat) : Nat := bits e 55 28
/-- AUX of a record entry. -/
def recAux (e : Nat) : Nat := bits e 127 64
/-- PAYLOAD of a record entry. -/
def recPayload (e : Nat) : Nat := bits e 191 128

/-- Continuation entries that follow an entry: 44 after a packet arrival, one per 8 groups after an admission. -/
def continuations (e : Nat) : Nat :=
  if recType e = 1 then 44 else if recType e = 3 then (recPayload e + 7) / 8 else 0

/-- The entries of a partition's record buffer with their places, from place i; the buffer ends at RSIZE, where the partition's ranges
end, at an entry of type 0xFE or at one that was never written. An entry whose continuations reach the last place was cut short by
the entry of type 0xFE there, and is none of them. -/
def State.entriesFrom (s : State) (p : Nat) : Nat → Nat → List (Nat × Nat)
  | 0, _ => []
  | fuel + 1, i =>
    let a := (s.part p).rbase + 32 * i
    if (s.part p).rsize ≤ i || !s.inRange p a 32 then []
    else
      let e := s.read a 32
      let last := (s.part p).rsize - 1
      if recType e = 0 then []
      else if 0 < continuations e ∧ last ≤ i + continuations e then
        (if s.inRange p ((s.part p).rbase + 32 * last) 32 && recType (s.read ((s.part p).rbase + 32 * last) 32) == 0xFE then
          [(last, s.read ((s.part p).rbase + 32 * last) 32)] else [])
      else (i, e) :: (if recType e = 0xFE then [] else s.entriesFrom p fuel (i + 1 + continuations e))

/-- The entries of a partition's record. -/
def State.entries (s : State) (p : Nat) : List (Nat × Nat) := s.entriesFrom p (s.part p).rsize 0

/-- Whether a partition replays a record (20 R394). -/
def State.replays (s : State) (p : Nat) : Bool := (s.part p).rmode == 2

/-- Whether a record ends in a truncation entry: past it the launch runs unenforced (20 R394). -/
def State.recordCut (s : State) (p : Nat) : Bool := (s.entries p).any fun e => recType e.2 == 0xFE

/-- The next entry of a stream that no event has been held to yet. -/
def State.nextEntry (s : State) (p : Nat) (inStream : Nat → Bool) : Option (Nat × Nat) :=
  (s.entries p).find? fun e => inStream e.2 && !(s.part p).applied.contains e.1

/-- An entry is applied: RHEAD counts it (20 Table 20.7). -/
def State.applyEntry (s : State) (p i : Nat) : State :=
  let q := s.part p
  s.setPart p { q with applied := i :: q.applied, rhead := q.rhead + 1, lastApplied := s.refCount }

/-- Whether events of a stream are held to the record: in replay mode, up to the entry of a truncated record past which the launch
runs unenforced (20 R394). -/
def State.enforced (s : State) (p : Nat) (inStream : Nat → Bool) : Bool :=
  s.replays p && ((s.nextEntry p inStream).isSome || !s.recordCut p)

/-- An event of a stream: recorded in record mode; in replay mode it takes place only when the record names it next in
its stream, and waits (`none`) otherwise (20 R393, R394). -/
def State.event (s : State) (p type stream who payload aux : Nat) (inStream : Nat → Bool) : Option State :=
  if s.enforced p inStream then
    match s.nextEntry p inStream with
    | some (i, e) =>
      if recType e = type ∧ recWho e = who % 2 ^ 28 ∧ recPayload e = payload % 2 ^ 64 ∧ recAux e = aux % 2 ^ 64 then
        some (s.applyEntry p i)
      else none
    | none => none
  else some (s.record p type stream who payload aux)

/-- Continuation entries hold the bits of a value, 32 bytes each (20 Table 20.8). -/
def State.continueRecord (s : State) (p : Nat) (v : Nat) : Nat → State
  | 0 => s
  | n + 1 =>
    let q := s.part p
    if q.rmode ≠ 1 then s
    else if q.truncated then s.loseEntries p (n + 1)
    else if q.rhead + 1 ≥ q.rsize then (s.record p 0 0 0 0 0).loseEntries p n
    else
      State.continueRecord ((s.physWrite p (q.rbase + 32 * q.rhead) 32 v).setPart p { q with rhead := q.rhead + 1 }) p (v / 2 ^ 256) n

/-- A deque grant of a core (type 0x05): the kind and the entries moved, and the thief (log 38). -/
def State.dequeEvent (s : State) (c : CtxId) (kind moved thief : Nat) : Option State :=
  match s.owner c.core with
  | none => some s
  | some p =>
    let core := coreIdBits { c with num := 0 }
    s.event p 5 core (coreIdBits c) (kind + 256 * moved) thief fun e => recType e == 5 && recWho e / 64 == core / 64

/-- Whether a core may have acted for a launch: it runs no other. -/
def State.actsFor (s : State) (j : Nat) (k : CoreId) : Bool := (s.core k).job.all fun x => x.launch == j

/-- A ring ticket reserved or taken (types 0x06, 0x07) by the acting context; entries of cores of other launches belong to rings of
theirs (log 30). -/
def State.ringEvent (s : State) (taken : Bool) (ring ticket : Nat) : Option State :=
  match s.owner s.cur.core with
  | none => some s
  | some p =>
    let l := ((s.core s.cur.core).job.map (·.launch)).getD 0
    s.event p (if taken then 7 else 6) (16 * l + ring) (coreIdBits s.cur) ticket ring fun e =>
      (recType e == 6 || recType e == 7) && recAux e == ring &&
        s.actsFor l { big := bits (recWho e) 27 27 == 1, die := bits (recWho e) 26 21, row := bits (recWho e) 20 14, col := bits (recWho e) 13 6 }

/-- Whether an entry is an event of a context itself: a grant, a ticket, a mailbox arrival or a timeout. -/
def ofContext (w e : Nat) : Bool := recWho e == w && [5, 6, 7, 8, 12].contains (recType e)

/-- A blocking instruction of the acting context whose deadline has passed, or not, times out (type 0x0C). In replay mode it does so
only where the record names it, and then when the context reaches that entry, whatever its deadline (20 R394). -/
def State.timesOut (s : State) (expired : Bool) : Option State :=
  match s.owner s.cur.core with
  | none => if expired then some s else none
  | some p =>
    let w := coreIdBits s.cur
    if s.enforced p (ofContext w) then
      match s.nextEntry p (ofContext w) with
      | some (i, e) => if recType e = 12 ∧ recPayload e = s.me.pc.toNat then some (s.applyEntry p i) else none
      | none => none
    else if expired then some (s.record p 12 w w s.me.pc.toNat 0) else none

/-- A die applies a message of another die for a partition (type 0x09). In replay mode it does so only where the record names a message
of that die next for it (20 R393, R394; log 119). -/
def State.messageEvent (s : State) (p die src no : Nat) : Option State :=
  let w := coreIdBits { core := { big := false, die := die, row := 0, col := 0 }, num := 0 }
  let mine (e : Nat) : Bool := recType e == 9 && recWho e == w
  if s.enforced p mine then
    match s.nextEntry p mine with
    | some (i, e) => if recPayload e = src then some (s.applyEntry p i) else none
    | none => none
  else some (s.record p 9 die w src no)

end Sys2Proof.Machine
end

