-- ==== Sys2Proof/Machine/Coherence.lean ====
section
/-! DEFINITION. The L1 lines, the cache directory, cross-die messages and the fence sequencer (10 R234, R235, R242 to R250).
Memory itself is one copy (log 6); which caches hold a line, and how, is what these operations change. -/

namespace Sys2Proof.Machine

/-! ## Slices (10 R243, R246) -/

/-- A partition's slices of a die in increasing number (R243). -/
def State.slicesOf (s : State) (die p : Nat) : List Nat :=
  (List.range 384).filter fun j => ((s.die die).sliceOwner.find? fun e => e.1 == j).any fun e => e.2 == p

/-- H of R243 for a physical address. -/
def sliceHash (pa : Nat) : Nat :=
  bits pa 16 7 ^^^ bits pa 26 17 ^^^ bits pa 36 27 ^^^ bits pa 46 37 ^^^ bits pa 56 47

/-- The slice that serves a physical address on a die for a partition (R243). -/
def State.homeSlice (s : State) (die p pa : Nat) : Option Nat :=
  let l := s.slicesOf die p
  l[sliceHash pa % l.length]?

/-- L2SPLIT of a slice (Table 10.2). -/
def State.l2splitOf (s : State) (die j : Nat) : Word := lookup l2splitReset j (s.die die).l2split

/-- The element of a list with the least key, the first of equals. -/
def leastBy {α : Type} (key : α → Nat) : List α → Option α
  | [] => none
  | x :: xs =>
    match leastBy key xs with
    | none => some x
    | some y => if key x ≤ key y then some x else some y

/-- The nearest slice that takes replicas for a hive (R246). -/
def State.nearestSlice (s : State) (die p hive : Nat) : Option Nat :=
  leastBy (fun j => Config.hops j hive)
    ((s.slicesOf die p).filter fun j =>
      (s.l2splitOf die j).getLsbD 4 && decide (bits (s.l2splitOf die j).toNat 3 0 < 12))

/-- The partition in whose ranges a line lies. -/
def State.lineOwner (s : State) (line : Nat) : Option Nat := (List.range 64).find? fun p => s.inRange p (128 * line) 128

/-- The home or proxy slice of a line on a die (R243). -/
def State.sliceOf (s : State) (die line : Nat) : Option Nat := (s.lineOwner line).bind fun p => s.homeSlice die p (128 * line)

/-- Whether two lines fall in the same set of the same slice of a die. -/
def State.sameSet (s : State) (die a b : Nat) : Bool :=
  Config.sliceSet a % 512 == Config.sliceSet b % 512 && s.sliceOf die a == s.sliceOf die b

/-! ## Entries (10 Table 10.3) -/

/-- A directory pointer (R247). -/
def pointerOf (k : CoreId) : Nat := if k.big then 32768 + hiveIndex (coreHive k) else 192 * k.row + k.col

/-- The core a pointer names. -/
def pointerCore (die ptr : Nat) : CoreId :=
  if ptr < 32768 then { big := false, die := die, row := ptr / 192, col := ptr % 192 } else bigCore (hiveOf die (ptr - 32768))

/-- The coarse bit of a core's hive. -/
def coarseBit (k : CoreId) : BitVec 64 := BitVec.ofNat 64 (2 ^ (hiveIndex (coreHive k) / 9))

/-- Whether a line is homed on a die (R243, 17 R349). -/
def homedOn (die line : Nat) : Bool := homeDie (128 * line) == die

/-- The home or proxy entry of a line on a die. -/
def State.entry (s : State) (die line : Nat) : DirEntry :=
  lookup DirEntry.reset line (if homedOn die line then (s.die die).home else (s.die die).proxy)

/-- Replace the entry of a line on a die. -/
def State.setEntry (s : State) (die line : Nat) (e : DirEntry) : State :=
  let d := s.die die
  s.setDie die (if homedOn die line then { d with home := store line e d.home } else { d with proxy := store line e d.proxy })

/-- The entries of a die of the kind that a line has there, homed or proxy. -/
def State.entriesLike (s : State) (die line : Nat) : Assoc Nat DirEntry :=
  if homedOn die line then (s.die die).home else (s.die die).proxy

/-- Add a sharer: a pointer, or the coarse form when four are used (R248). -/
def DirEntry.share (e : DirEntry) (die : Nat) (k : CoreId) : DirEntry :=
  let e := { e with state := .shared }
  if e.coarse then { e with groups := e.groups ||| coarseBit k }
  else if e.ptrs.contains (pointerOf k) then e
  else if e.ptrs.length < 4 then { e with ptrs := e.ptrs ++ [pointerOf k] }
  else { e with coarse := true, ptrs := [],
                groups := e.ptrs.foldl (fun g q => g ||| coarseBit (pointerCore die q)) (coarseBit k) }

/-- A core holds its line no more: its pointer is removed, and the last one leaves the entry uncached (R248). -/
def DirEntry.unshare (e : DirEntry) (k : CoreId) : DirEntry :=
  if e.coarse then e
  else
    let ptrs := e.ptrs.filter fun q => q != pointerOf k
    { e with ptrs := ptrs, state := if ptrs.isEmpty && e.state != .busy then .uncached else e.state }

/-- Whether an entry covers a copy in a core's L1. -/
def DirEntry.covers (e : DirEntry) (k : CoreId) : Bool :=
  if e.coarse then e.groups &&& coarseBit k != 0 else e.ptrs.contains (pointerOf k)

/-- The hives that a write invalidates (R248): all that the entry covers, but not for a copy of the writer alone, if it is a core. -/
def DirEntry.targets (e : DirEntry) (die : Nat) (k : Option CoreId) : List HiveId :=
  if e.coarse then ((List.range 576).filter fun i => e.groups.getLsbD (i / 9)).map (hiveOf die)
  else ((e.ptrs.filter fun q => some q != k.map pointerOf).map fun q => coreHive (pointerCore die q)).eraseDups

/-- The dies a directory vector names. -/
def dvDies (dv : BitVec 36) : List Nat := (List.range 36).filter fun k => dv.getLsbD k

/-! ## Cross-die messages (10 R234) -/

/-- A die's counter for die k. -/
def Die.counter (d : Die) (k : Nat) : Nat := lookup 0 k d.clock

/-- The 36 counters of a die. -/
def Die.counters (d : Die) : List Nat := (List.range 36).map d.counter

/-- Send a message from die a to die b; it takes the next message number, which has 48 bits (log 131), and a clock beat is then owed
to every other die. -/
def State.sendX (s : State) (a b : Nat) (kind : XKind) : State :=
  let d := s.die a
  let no := (d.msgNo + 1) % 2 ^ 48
  let t := s.setDie a { d with msgNo := no, unbeaten := (List.range 36).filter fun k => k != a }
  let e := t.die b
  t.setDie b { e with inbox := e.inbox ++ [{ src := a, no := no, clock := d.counters, kind := kind }] }

/-- Send a message to each die of a list. -/
def State.sendAll (s : State) (a : Nat) (kind : XKind) (ds : List Nat) : State := ds.foldl (fun s b => s.sendX a b kind) s

/-! ## Copies (10 R242, R245, R246) -/

/-- A line of a core's L1. -/
def State.l1Line (s : State) (k : CoreId) (line : Nat) : Option L1Line := (s.core k).l1.find? fun e => e.line == line

/-- Whether a core's L1 holds a line. -/
def State.holdsLine (s : State) (k : CoreId) (line : Nat) : Bool := (s.core k).l1.any fun e => e.line == line

/-- Whether a core's L1 holds a line exclusive. -/
def State.ownsLine (s : State) (k : CoreId) (line : Nat) : Bool := (s.core k).l1.any fun e => e.line == line && e.own

/-- A line leaves a core's L1. -/
def State.dropLine (s : State) (k : CoreId) (line : Nat) : State :=
  let c := s.core k
  s.setCore k { c with l1 := c.l1.filter fun e => e.line != line }

/-- A line that a core's L1 holds changes how it is held. -/
def State.markLine (s : State) (k : CoreId) (line : Nat) (own dirty : Bool) : State :=
  let c := s.core k
  s.setCore k { c with l1 := c.l1.map fun e => if e.line = line then { e with own := own, dirty := dirty } else e }

/-- Every copy of a line in the L1s of a die, but for one core's, is invalidated, and so are those on their way (R250). -/
def State.dropOthers (s : State) (die line : Nat) (keep : Option CoreId) : State :=
  { s with
    cores := s.cores.map fun (e : CoreId × Core) =>
      if e.1.die = die ∧ some e.1 ≠ keep then (e.1, { e.2 with l1 := e.2.l1.filter fun x => x.line != line }) else e
    hives := s.hives.map fun (e : HiveId × Hive) =>
      if e.1.die = die then (e.1, { e.2 with replies := e.2.replies.filter fun x => x.2 != line }) else e }

/-- Remove every copy of a line on a die, its replica and its sharers. -/
def State.dropCopies (s : State) (die line : Nat) : State :=
  let s := s.dropOthers die line none
  let e := s.entry die line
  s.setEntry die line
    (if e.state = .busy then { e with replica := none }
     else { e with state := .uncached, coarse := false, ptrs := [], groups := 0, replica := none })

/-- An element of a list, which one is left open (log 2). -/
def State.pickOne {α : Type} (s : State) (l : List α) : Option α := l[Config.choose s.free % l.length]?

/-- A slice takes a replica of a line: where its remote-data ways of the set are full, another line's replica is dropped (R244,
R246). -/
def State.keepReplica (s : State) (die j line : Nat) : State :=
  let held := (s.die die).proxy.filter fun x =>
    x.2.replica == some j && x.1 != line && Config.sliceSet x.1 % 512 == Config.sliceSet line % 512
  let t := if held.length < 12 - bits (s.l2splitOf die j).toNat 3 0 then s
    else match s.pickOne held with
      | none => s
      | some x => { s.setEntry die x.1 { x.2 with replica := none } with free := s.free + 1 }
  t.setEntry die line { t.entry die line with replica := some j }

/-- An evicted line of another die is offered to the nearest slice, which keeps it unless the proxy entry records a replica
already (R246); while that entry is busy it is dropped (log 24). -/
def State.offer (s : State) (k : CoreId) (line : Nat) : State :=
  let e := s.entry k.die line
  match e.replica, (s.owner k).bind fun p => s.nearestSlice k.die p (hiveIndex (coreHive k)) with
  | none, some j => if e.state = .busy then s else s.keepReplica k.die j line
  | _, _ => s

/-- A core evicts a line: a dirty one is written back, a clean one is told of, and one homed on another die is offered as a
replica (R246, R248). -/
def State.evict (s : State) (k : CoreId) (line : Nat) : State :=
  if s.holdsLine k line then
    let t := s.dropLine k line
    let t := t.setEntry k.die line ((t.entry k.die line).unshare k)
    if homedOn k.die line then t else t.offer k line
  else s

/-- The sets of a core's L1 (R242, 16 R335). -/
def l1Sets (k : CoreId) : Nat := if k.big then 128 else 32

/-- The ways of a core's L1: 4, or in a big core the units of its array that are no scratch (R242, 16 R335). -/
def State.l1Ways (s : State) (k : CoreId) : List Nat :=
  if k.big then (List.range 20).drop (s.hive (coreHive k)).split else [0, 1, 2, 3]

/-- A line enters a way of its set in a core's L1. -/
def State.putLine (s : State) (k : CoreId) (x : L1Line) : State :=
  let c := s.core k
  s.setCore k { c with l1 := x :: c.l1 }

/-- A core's L1 holds a line: in a free way of its set, or in place of a line it evicts, which one left open (log 2). -/
def State.install (s : State) (k : CoreId) (line : Nat) (own dirty : Bool) : State :=
  if s.holdsLine k line then s.markLine k line own dirty
  else
    let inSet := (s.core k).l1.filter fun e => e.line % l1Sets k == line % l1Sets k
    match (s.l1Ways k).find? fun w => inSet.all fun e => e.way != w with
    | some w => s.putLine k { line := line, way := w, own := own, dirty := dirty }
    | none =>
      match s.pickOne (s.l1Ways k) with
      | none => s
      | some w =>
        ((inSet.filter fun e => e.way == w).foldl (fun (t : State) e => t.evict k e.line) { s with free := s.free + 1 }).putLine k
          { line := line, way := w, own := own, dirty := dirty }

/-- A slice evicts a home or proxy entry: every copy it covers on its die is invalidated, a dirty one written back (R245); a home
entry's other dies are sent invalidations (log 117). -/
def State.evictEntry (s : State) (die line : Nat) : State :=
  let e := s.entry die line
  let t := s.dropOthers die line none
  let t := if homedOn die line then t.sendAll die (.invalidate line) (dvDies e.dv) else t
  t.setEntry die line DirEntry.reset

/-- A line gets an entry in use: where its set of the slice has no room, another entry is evicted (R244, R245). -/
def State.makeEntry (s : State) (die line : Nat) : State :=
  let used := (s.entriesLike die line).filter fun x => x.1 != line && x.2.state != .uncached && s.sameSet die line x.1
  let room := match homedOn die line, s.sliceOf die line with
    | true, some j => bits (s.l2splitOf die j).toNat 3 0
    | _, _ => Config.proxyWays + 1
  if used.length < room then s
  else match s.pickOne (used.filter fun x => x.2.state != .busy) with
    | none => s
    | some x => { s.evictEntry die x.1 with free := s.free + 1 }

/-! ## Requests (10 R248, R249) -/

/-- A data reply sets out for a core's L1 (R250). -/
def State.reply (s : State) (k : CoreId) (line : Nat) : State :=
  let h := s.hive (coreHive k)
  s.setHive (coreHive k) { h with replies := h.replies ++ [(k, line)] }

/-- Recall a line from the core that holds it exclusive, which keeps a shared copy (R248). -/
def State.recall (s : State) (die line : Nat) : State :=
  let e := s.entry die line
  match e.state, e.ptrs with
  | .exclusive, [q] => (s.markLine (pointerCore die q) line false false).setEntry die line { e with state := .shared }
  | _, _ => s

/-- Serve a read miss at an entry that is not busy: from the home or a replica, else by a read request to the home die (R246,
R248). -/
def State.serveRead (s : State) (die line : Nat) (k : CoreId) : State :=
  let s := (s.makeEntry die line).recall die line
  let e := s.entry die line
  let s := s.setEntry die line (e.share die k)
  if homedOn die line || e.replica.isSome then s.reply k line else s.sendX die (homeDie (128 * line)) (.readRequest line k)

/-- A write performs at an entry when no other copy is left on the die (R231, R248, R249): `k` is the core whose L1 has it. -/
def State.performWrite (s : State) (die line : Nat) (k : Option CoreId) (dirty : Bool) : State :=
  let e := { s.entry die line with state := .uncached, coarse := false, ptrs := [], groups := 0, replica := none }
  match k with
  | none => s.setEntry die line e
  | some k =>
    if homedOn die line then
      (s.setEntry die line { e with state := .exclusive, ptrs := [pointerOf k] }).install k line true dirty
    else if s.holdsLine k line then s.setEntry die line { e with state := .shared, ptrs := [pointerOf k] }
    else s.setEntry die line e

/-- The first message of a die's inbox from a sender has been applied: it leaves, and the counter rises (R234). -/
def State.applied (s : State) (die src no : Nat) : State :=
  let d := s.die die
  s.setDie die { d with
    inbox := d.inbox.eraseP fun m => m.src == src
    clock := store src (max (d.counter src) no) d.clock }

/-- The core whose L1 a request's write is for. -/
def LineReq.core? : LineReq → Option CoreId
  | .read _ => none
  | .own k => some k
  | .far _ _ => none

/-- The write of the request being served performs (R248); a write-through of the die goes on to the home die (R249). -/
def State.finishWrite (s : State) (die line : Nat) : State :=
  let e := s.entry die line
  match e.waiting with
  | [] => s
  | r :: rest =>
    let t := (s.setEntry die line { e with acks := [], behind := [], waiting := rest }).performWrite die line r.core? false
    match r with
    | .far src no => t.applied die src no
    | .own _ => if homedOn die line then t else t.sendX die (homeDie (128 * line)) (.write line)
    | .read _ => t

/-- The data replies on their way to some hives that the slice of a line has sent (R250). -/
def State.repliesOf (s : State) (die line : Nat) (hs : List HiveId) : List (CoreId × Nat) :=
  hs.flatMap fun h => (s.hive h).replies.filter fun x => s.sliceOf die x.2 == s.sliceOf die line

/-- Begin a write at an entry that is not busy: invalidations go out, to the other dies as well; it performs at once where none
is needed. -/
def State.beginWrite (s : State) (die line : Nat) (r : LineReq) : State :=
  let s := s.makeEntry die line
  let e := s.entry die line
  let t := e.targets die r.core?
  let s := s.setEntry die line { e with state := .busy, dv := 0, replica := none, acks := t,
                                            behind := s.repliesOf die line t, waiting := r :: e.waiting }
  let s := if homedOn die line then s.sendAll die (.invalidate line) (dvDies e.dv) else s
  if t.isEmpty then s.finishWrite die line else s

/-- Serve a read request of another die (R234, R248): an owner is recalled, and the die's DV bit set. -/
def State.serveFarRead (s : State) (die line src : Nat) : State :=
  let s := s.recall die line
  let e := s.entry die line
  s.setEntry die line { e with dv := e.dv ||| BitVec.ofNat 36 (2 ^ src) }

/-- The line a message is about, if an entry serves it. -/
def XKind.line? : XKind → Option Nat
  | .write line => some line
  | .invalidate line => some line
  | .atomic line => some line
  | .readRequest line _ => some line
  | .engineRead line => some line
  | .localAccess _ => none
  | .beat _ => none

/-- Serve a message of another die at an entry that is not busy. -/
def State.serveFar (s : State) (die line src no : Nat) : State :=
  match (s.die die).inbox.find? fun m => m.src == src with
  | some m =>
    match m.kind with
    | .readRequest _ k => ((s.serveFarRead die line src).reply k line).applied die src no
    | .engineRead _ => (s.serveFarRead die line src).applied die src no
    | _ => s.beginWrite die line (.far src no)
  | none => s

/-- Serve a request at an entry that is not busy. -/
def State.serve (s : State) (die line : Nat) (r : LineReq) : State :=
  match r with
  | .read k => s.serveRead die line k
  | .own _ => s.beginWrite die line r
  | .far src no => s.serveFar die line src no

/-- Serve the waiting requests up to the first that makes the entry busy again (R248). -/
def State.serveWaiting (die line : Nat) : List LineReq → State → State
  | [], s => s
  | r :: rest, s =>
    let e := s.entry die line
    if e.state = .busy then s
    else State.serveWaiting die line rest ((s.setEntry die line { e with waiting := rest }).serve die line r)

/-- A request that finds the entry busy waits (R248), once; else it is served. -/
def State.request (s : State) (die line : Nat) (r : LineReq) : State :=
  let e := s.entry die line
  if e.state = .busy then
    if e.waiting.contains r then s else s.setEntry die line { e with waiting := e.waiting ++ [r] }
  else s.serve die line r

/-- Invalidate a line in the L1s of a hive except one core's (R248). -/
def State.invalidateHive (s : State) (h : HiveId) (line : Nat) (except : Option CoreId) : State :=
  (hiveCores h).foldl (fun s k => if some k = except || !s.holdsLine k line then s else s.dropLine k line) s

/-! ## Accesses whole (log 6): their requests, invalidations and acknowledgements take place within one step -/

/-- Whether the entry of a line on a die is busy; an access that needs it waits (R248). -/
def State.lineBusy (s : State) (die line : Nat) : Bool := (s.entry die line).state == .busy

/-- A load of a core reads a line: a miss is served, and its reply sets out (R242, R246). -/
def State.readLine (s : State) (k : CoreId) (line : Nat) : State :=
  if s.holdsLine k line || (s.hive (coreHive k)).replies.contains (k, line) then s else s.serveRead k.die line k

/-- A write to a line performs on a die (R231, R248, R249): in a core's L1, or at the slice where `k` is none; `msg` is what the
home die is sent. -/
def State.writeLine (s : State) (die line : Nat) (k : Option CoreId) (msg : XKind) : State :=
  if k.any fun k => s.ownsLine k line then (k.map fun k => s.markLine k line true true).getD s
  else
    let home := homedOn die line
    let s := s.makeEntry die line
    let e := s.entry die line
    let s := if home then (s.setEntry die line { e with dv := 0 }).sendAll die (.invalidate line) (dvDies e.dv) else s
    let s := (s.dropOthers die line k).performWrite die line k true
    if home then s else s.sendX die (homeDie (128 * line)) msg

/-- An atomic on a line by a core (09 Table 9.6): at scope .hive on a line homed on its die, in its L1; else at the home slice. -/
def State.atomicLine (s : State) (k : CoreId) (hive : Bool) (line : Nat) : State :=
  if homedOn k.die line then s.writeLine k.die line (if hive then some k else none) (.atomic line)
  else s.sendX k.die (homeDie (128 * line)) (.atomic line)

/-- The lines that bytes of global memory lie in. -/
def linesOf (a n : Nat) : List Nat :=
  if a < 2 ^ 52 ∧ 0 < n then (List.range ((a + n - 1) / 128 - a / 128 + 1)).map fun i => a / 128 + i else []

/-- The die whose core's local memory or scratch holds a resolved address. -/
def localDie (a : Nat) : Option Nat :=
  if bits a 63 60 = 8 then some (localCore a).die else if bits a 63 60 = 10 then some (bits a 34 29) else none

/-- The core that a resolved local or scratch address names. -/
def portCore (a : Nat) : CoreId :=
  if bits a 63 60 = 8 then localCore a
  else bigCore { die := bits a 34 29, row := bits a 28 24, col := bits a 23 19 }

/-- An access to bytes of another die's local memory or scratch crosses the die boundary (R232, R234). -/
def State.crossLocal (s : State) (die a : Nat) : State :=
  match localDie a with
  | some d => if d = die then s else s.sendX die d (.localAccess (portCore a))
  | none => s

/-- Writes by an engine of a die to byte ranges perform: copies of their lines are invalidated, and messages to other dies set out
(R231, R249). -/
def State.engineWrites (s : State) (die : Nat) (rs : List (Nat × Nat)) : State :=
  let t := (rs.flatMap fun r => linesOf r.1 r.2).eraseDups.foldl (fun (t : State) l => t.writeLine die l none (.write l)) s
  rs.foldl (fun (t : State) r => t.crossLocal die r.1) t

/-- An engine of a die reads a line, of which it keeps no copy: an owner is recalled, and a line of another die comes from the replica or
by a read request to its home (R234, R246, R248). -/
def State.engineReadLine (s : State) (die line : Nat) : State :=
  if homedOn die line then s.recall die line
  else if (s.entry die line).replica.isSome then s
  else s.sendX die (homeDie (128 * line)) (.engineRead line)

/-- Reads by an engine of a die of byte ranges perform: lines are recalled, and messages to other dies set out (R232, R234). -/
def State.engineReads (s : State) (die : Nat) (rs : List (Nat × Nat)) : State :=
  let t := (rs.flatMap fun r => linesOf r.1 r.2).eraseDups.foldl (fun (t : State) l => t.engineReadLine die l) s
  (rs.map fun r => portOf r.1).eraseDups.foldl (fun (t : State) a => t.crossLocal die a) t
where
  /-- An address that stands for the array of a local or scratch address. -/
  portOf (a : Nat) : Nat := a / 2 ^ 19 * 2 ^ 19

/-- Whether an entry that some byte ranges need is busy. -/
def State.rangesBusy (s : State) (die : Nat) (rs : List (Nat × Nat)) : Bool :=
  rs.any fun r => (linesOf r.1 r.2).any (s.lineBusy die)

/-! ## Messages and clocks (10 R234) -/

/-- The number a message raises its receiver's counter to. -/
def XMsg.raises (m : XMsg) : Nat := match m.kind with | .beat no => no | _ => m.no

/-- Whether a die may apply the n-th message of its inbox: it is the first of its sender there, and the counter of every other
die has reached the message's (R234). -/
def State.mayApply (s : State) (die n : Nat) (m : XMsg) : Bool :=
  let d := s.die die
  (d.inbox.take n).all (fun x => x.src != m.src) &&
    (List.range 36).all fun k => k == die || decide (m.clock.getD k 0 ≤ d.counter k)

/-- The partition a message serves: the owner of its line or of the core it reaches. -/
def State.messagePart (s : State) (kind : XKind) : Option Nat :=
  match kind with
  | .localAccess k => s.owner k
  | _ => kind.line?.bind s.lineOwner

/-- A message that may be applied is taken up: recorded, or, in a replay, held until the record names it (20 R393, R394). -/
def State.takeMessage (s : State) (die : Nat) (m : XMsg) : Option State :=
  match s.messagePart m.kind with
  | none => some s
  | some p => s.messageEvent p die m.src m.no

/-- Whether a message waits at its line's entry already. -/
def State.messageWaits (s : State) (die : Nat) (m : XMsg) : Bool :=
  m.kind.line?.any fun line => (s.entry die line).waiting.contains (.far m.src m.no)

/-- Apply the n-th message of a die's inbox, or let it wait at its line's entry. -/
def State.receiveX (s : State) (die n : Nat) : State :=
  match (s.die die).inbox[n]? with
  | none => s
  | some m =>
    if !s.mayApply die n m || s.messageWaits die m then s
    else match s.takeMessage die m with
      | none => s
      | some t =>
        match m.kind.line? with
        | some line => t.request die line (.far m.src m.no)
        | none => t.applied die m.src m.raises

/-! ## Fences across dies (10 R235) -/

/-- Step 2: every other die's vector clock dominates a die's own, given by its message number and counters. -/
def State.dominated (s : State) (die msgNo : Nat) (clock : List Nat) : Bool :=
  (List.range 36).all fun o =>
    o == die || (decide (msgNo ≤ (s.die o).counter die) &&
      (List.range 36).all fun k => k == o || k == die || decide (clock.getD k 0 ≤ (s.die o).counter k))

/-- A context's fence whose step 1 ends now. -/
def State.fenceNow (s : State) (c : CtxId) : FenceWait :=
  { ctx := c, msgNo := (s.die c.core.die).msgNo, clock := (s.die c.core.die).counters }

/-- Whether a fence has finished step 2. -/
def State.fenceSeen (s : State) (w : FenceWait) : Bool := s.dominated w.ctx.core.die w.msgNo w.clock

/-- Whether a context's fence may have the next ticket: it is the first waiting one and its step 2 is done. -/
def State.fenceReady (s : State) (c : CtxId) : Bool :=
  match s.fence.waiting with
  | [] => s.fenceSeen (s.fenceNow c)
  | w :: _ => w.ctx == c && s.fenceSeen w

/-- FENCESC of the acting context: it takes the next ticket, or waits for it (R225, R235). -/
def fenceSc (i : Instr) (len : BitVec 2) (s : State) : Host.Outcome State Fault Refusal :=
  finish len
    (if s.fenceReady s.cur then
      .ok { s.setMe s.me.dropSpec with
            fence := { ticket := s.fence.ticket + 1, waiting := s.fence.waiting.filter fun w => w.ctx != s.cur } }
     else
      let f := s.fence
      .error (.hold { s.blockIn i none 0 with
        fence := { f with waiting := if f.waiting.any fun w => w.ctx == s.cur then f.waiting else f.waiting ++ [s.fenceNow s.cur] } }))

/-! ## Events -/

/-- CROSS_DIE_MESSAGE_APPLY (R234). -/
def execCrossDieMessageApply (die n : Nat) (s : State) : Host.Outcome State Fault Refusal := .next (s.receiveX die n)

/-- CLOCK_BEAT (R234): a die that owes another a beat sends it its latest message number. -/
def execClockBeat (src dst : Nat) (s : State) : Host.Outcome State Fault Refusal :=
  let d := s.die src
  if d.unbeaten.contains dst then
    let t := s.setDie src { d with unbeaten := d.unbeaten.filter fun k => k != dst }
    let e := t.die dst
    .next (t.setDie dst { e with inbox := e.inbox ++ [{ src := src, no := d.msgNo, clock := d.counters, kind := .beat d.msgNo }] })
  else .next s

/-- DIRECTORY_READ_MISS (R248) of a core of the die. -/
def execDirectoryReadMiss (die line : Nat) (k : CoreId) (s : State) : Host.Outcome State Fault Refusal :=
  .next (if k.die = die then s.request die line (.read k) else s)

/-- OWNERSHIP_REQUEST (R248); a line homed elsewhere is never held exclusive (R242). -/
def execOwnershipRequest (die line : Nat) (k : CoreId) (s : State) : Host.Outcome State Fault Refusal :=
  .next (if k.die = die ∧ homedOn die line then s.request die line (.own k) else s)

/-- PROXY_WRITE_THROUGH (R249). -/
def execProxyWriteThrough (die line : Nat) (k : CoreId) (s : State) : Host.Outcome State Fault Refusal :=
  .next (if k.die = die ∧ !homedOn die line then s.request die line (.own k) else s)

/-- The core whose request is being served at a busy entry. -/
def DirEntry.requester (e : DirEntry) : Option CoreId := e.waiting.head?.bind LineReq.core?

/-- HIVE_INVALIDATION (R248). -/
def execHiveInvalidation (die line : Nat) (h : HiveId) (s : State) : Host.Outcome State Fault Refusal :=
  let e := s.entry die line
  .next (if e.state = .busy && e.acks.contains h then s.invalidateHive h line e.requester else s)

/-- Whether a hive can acknowledge an invalidation of a line (R248, R250): the replies that its slice sent before are installed, and
no L1 but the requester's holds it. -/
def State.hiveClear (s : State) (h : HiveId) (line : Nat) (e : DirEntry) : Bool :=
  !((s.hive h).replies.any fun x => x.2 == line || e.behind.contains x) &&
    (hiveCores h).all fun k => some k == e.requester || !s.holdsLine k line

/-- INVALIDATION_ACK (R248, R250): counted once the hive can give it; after the last one the write performs and the waiting
requests are served. -/
def execInvalidationAck (die line : Nat) (h : HiveId) (s : State) : Host.Outcome State Fault Refusal :=
  let e := s.entry die line
  if e.state = .busy && e.acks.contains h && s.hiveClear h line e then
    let acks := e.acks.filter fun x => x != h
    let t := s.setEntry die line { e with acks := acks }
    .next (if acks.isEmpty then (t.finishWrite die line).serveWaiting die line e.waiting.tail else t)
  else .next s

/-- CLEAN_EVICTION_NOTICE (R246, R248, R250): a core evicts a line that is not dirty; a coarse entry discards the notice. -/
def execCleanEvictionNotice (die line : Nat) (k : CoreId) (s : State) : Host.Outcome State Fault Refusal :=
  .next (if k.die = die ∧ ((s.l1Line k line).any fun x => !x.dirty) then s.evict k line else s)

/-- DIRTY_WRITE_BACK (R248): an owner evicts a dirty line. -/
def execDirtyWriteBack (die line : Nat) (k : CoreId) (s : State) : Host.Outcome State Fault Refusal :=
  .next (if k.die = die ∧ ((s.l1Line k line).any fun x => x.dirty) then s.evict k line else s)

/-- REPLICA_OFFER (R246): a core evicts a line homed on another die, and the nearest slice keeps it unless the proxy records a
replica already. -/
def execReplicaOffer (die line : Nat) (k : CoreId) (s : State) : Host.Outcome State Fault Refusal :=
  .next (if k.die = die ∧ !homedOn die line then s.evict k line else s)

/-- FENCE_SEQUENCER_TICKET (R235): the first waiting fence of the module, if it is of this die and its step 2 is done,
takes the next ticket and completes. -/
def execFenceSequencerTicket (die : Nat) (s : State) : Host.Outcome State Fault Refusal :=
  match s.fence.waiting with
  | [] => .next s
  | w :: rest =>
    if w.ctx.core.die = die && s.fenceSeen w then
      let m := s.ctx w.ctx
      let t := match m.blocked with
        | some b => s.setCtx w.ctx (m.dropSpec.advance (((encode b.instr).headD 0).extractLsb' 0 2))
        | none => s
      .next { t with fence := { ticket := s.fence.ticket + 1, waiting := rest } }
    else .next s

/-- Whether a data reply is the first on its way of those that its slice has sent to its hive: they arrive in the order sent
(R250). -/
def State.replyNext (s : State) (k : CoreId) (line : Nat) : Bool :=
  let rs := (s.hive (coreHive k)).replies
  rs.contains (k, line) &&
    (rs.takeWhile fun x => x != (k, line)).all fun x => s.sliceOf k.die x.2 != s.sliceOf k.die line

/-- A data reply arrives (R250): its line is installed if the entry still covers it. -/
def State.fillLine (s : State) (k : CoreId) (line : Nat) : State :=
  let h := s.hive (coreHive k)
  if s.replyNext k line then
    let t := s.setHive (coreHive k) { h with replies := h.replies.erase (k, line) }
    if (t.entry k.die line).covers k && !t.holdsLine k line then t.install k line false false else t
  else s

/-- Whether a resolved address may be cached: local memory and scratch never are (08 R206). -/
def cacheable (a : Nat) : Bool := bits a 63 60 == 0 && decide (a < 2 ^ 52)

/-- Bring the 128-byte line of a resolved address into an instruction cache (02 R32, 01 Table 1.1). A line whose home copy is
uncorrectable is logged and not cached: a fetch from it finds the error again (20 R384, R385). -/
def State.fillCode (s : State) (k : CoreId) (a : Nat) : State :=
  let line := a / 128 * 128
  if !cacheable a then s
  else match s.poison line 128 with
    | some b => s.logFound b
    | none =>
      let c := s.core k
      let kept := c.icache.filter fun e => e.1 / 128 * 128 != line
      s.setCore k { c with icache := (List.range 128).map (fun j => (line + j, s.byte (line + j))) ++ kept }

/-- READ_REPLY (R250, 02 R32, 08 R206): a data line is installed in the L1, a code line in the instruction cache, which holds
lines of global memory only; the value itself landed with the access (log 6). -/
def execReadReply (k : CoreId) (line : Nat) (dest : ReplyTo) (s : State) : Host.Outcome State Fault Refusal :=
  match dest with
  | .uncached => .next s
  | .codeLine => .next (s.fillCode k (128 * line))
  | .dataLine => .next (s.fillLine k line)

/-- LOCAL_MEMORY_PORT_ACCESS (R232, 08 R206): an access of `off` from outside performs at the target's array; a write
that reaches a present window range marks it dirty (11 R265). An offset past the array reaches nothing. -/
def execLocalMemoryPortAccess (k : CoreId) (off : Nat) (scratch : Bool) (a : PortAccess) (s : State) :
    Host.Outcome State Fault Refusal :=
  match a with
  | .read _ => .next s
  | .write data =>
    if off + data.length ≤ 2 ^ 19 && (scratch || !k.big) && (s.core k).status != .fenced then
      let base := if scratch then scratchAddr (coreHive k) off else localAddr k off
      .next ((s.writeBytes base data).markDirty base data.length)
    else .next s

end Sys2Proof.Machine
end

