-- ==== Sys2Proof/Machine/Vector.lean ====
section
/-! DEFINITION. Vector integer, permute, reduction and predicate instructions (05 R118 to R130). -/

namespace Sys2Proof.Machine

/-! ## Operands -/

/-- Lanes of a type (05 R118). -/
def IntTy.lanes (t : IntTy) : Nat := 512 / t.w

/-- Lane i of operand B in VINT: the literal in every lane, or V[B] (05 R122). -/
def VForm.laneB (x : VForm) (m : Context) (w i : Nat) : Nat :=
  match x.form.literal? with
  | some l => l.toNat % 2 ^ w
  | none => laneOf w (m.getV x.b) i

/-- The immediate of VINTI: the literal, sext(E2) in extended form, or the sign-extended B field (05 R122). VCMP keeps
its condition in E2 (05 R124). -/
def VForm.imm (x : VForm) (compare : Bool) : Word :=
  match x.form.literal? with
  | some l => l
  | none => if x.form.isExt && !compare then x.form.disp else x.b.signExtend 64

/-- Lane operand B of VINTI. -/
def VForm.laneI (x : VForm) (compare : Bool) (w : Nat) (_ : Nat) : Nat := (VForm.imm x compare).toNat % 2 ^ w

/-- The scalar operand B of VPERM and PSET: the literal or S[B] (05 R126, R130). -/
def VForm.scalarB (x : VForm) (m : Context) : Word := x.form.literal?.getD (m.getS x.b)

/-- The low L bits of a predicate result: an active bit is new, another is kept or zero; the bits above are 0 (05 R120). -/
def predLanes (n : Nat) (mask : Word) (zero : Bool) (old : Word) (new : Nat → Bool) : Word :=
  BitVec.ofNat 64 (packLanes 1 ((List.range n).map fun i =>
    if mask.getLsbD i then (new i).toNat else if zero then 0 else (old.getLsbD i).toNat))

/-! ## VINT and VINTI (05 R122 to R125) -/

/-- An exact lane result from the raw lanes a and b and lane i of the third source. -/
abbrev LaneFn := IntTy → Nat → Nat → Nat → Int

/-- The active lanes' new values and flags of R123. -/
def intLane (t : IntTy) (sat : Bool) (f : LaneFn) (a b c : Nat) : Nat × Flags := t.narrow sat (f t a b c)

/-- The effect of R123. -/
def vint (x : VForm) (opB : Nat → Nat) (f : LaneFn) (s : State) : Host.Outcome State Fault Refusal :=
  let t := tyInt x.ty
  let m := s.me
  let mask := x.mask m
  let res (i : Nat) : Nat × Flags :=
    intLane t x.form.sat f (laneOf t.w (m.getV x.a) i) (opB i) (laneOf t.w (m.getV x.form.c) i)
  let fl := unionFlags (((List.range t.lanes).filter fun i => mask.getLsbD i).map fun i => (res i).2)
  finish x.form.len
    (.ok (s.setMe ((m.setV x.d (mergeLanes t.w mask x.form.zeroes (m.getV x.d) fun i => (res i).1)).mergeFlags fl)))

/-- VINT: operand B is V[B] or the literal. -/
def vintV (x : VForm) (f : LaneFn) (s : State) : Host.Outcome State Fault Refusal :=
  vint x (VForm.laneB x s.me (tyInt x.ty).w) f s

/-- VINTI: operand B is the immediate. -/
def vintI (x : VForm) (f : LaneFn) (s : State) : Host.Outcome State Fault Refusal :=
  vint x (VForm.laneI x false (tyInt x.ty).w) f s

/-- a + b. -/
def laneAdd : LaneFn := fun t a b _ => t.val a + t.val b
/-- a − b. -/
def laneSub : LaneFn := fun t a b _ => t.val a - t.val b
/-- a · b. -/
def laneMul : LaneFn := fun t a b _ => t.val a * t.val b
/-- ⌊a · b / 2^w⌋. -/
def laneMulh : LaneFn := fun t a b _ => t.val a * t.val b / (2 ^ t.w : Nat)
/-- a · b + V[C]. -/
def laneMadd : LaneFn := fun t a b c => t.val a * t.val b + t.val c
/-- a AND b. -/
def laneAnd : LaneFn := fun _ a b _ => (a &&& b : Nat)
/-- a OR b. -/
def laneOr : LaneFn := fun _ a b _ => (a ||| b : Nat)
/-- a XOR b. -/
def laneXor : LaneFn := fun _ a b _ => (a ^^^ b : Nat)
/-- a shifted left by the low log₂w bits of b. -/
def laneSll : LaneFn := fun t a b _ => (a * 2 ^ (b % t.w) : Nat)
/-- a shifted right, zeros in. -/
def laneSrl : LaneFn := fun t a b _ => (a / 2 ^ (b % t.w) : Nat)
/-- a shifted right, copies of bit w − 1 in. -/
def laneSra : LaneFn := fun t a b _ => IntTy.val { t with signed := true } a / (2 ^ (b % t.w) : Nat)
/-- The smaller of a and b. -/
def laneMin : LaneFn := fun t a b _ => min (t.val a) (t.val b)
/-- The larger of a and b. -/
def laneMax : LaneFn := fun t a b _ => max (t.val a) (t.val b)
/-- |a|. -/
def laneAbs : LaneFn := fun t a _ _ => ((t.val a).natAbs : Int)

/-- The condition of VCMP (05 R124). -/
def laneCond (cc : Nat) (a b : Int) : Bool :=
  match cc with
  | 0 => a == b
  | 1 => a != b
  | 2 => decide (a < b)
  | 3 => decide (a ≤ b)
  | 4 => decide (b < a)
  | _ => decide (b ≤ a)

/-- VCMP (05 R124). -/
def vcmp (x : VForm) (opB : Nat → Nat) (s : State) : Host.Outcome State Fault Refusal :=
  let t := tyInt x.ty
  let m := s.me
  let d := x.d.setWidth 3
  let new (i : Nat) : Bool :=
    laneCond (bits x.form.e2.toNat 2 0) (t.val (laneOf t.w (m.getV x.a) i)) (t.val (opB i))
  finish x.form.len (.ok (s.setMe (m.setP d (predLanes t.lanes (x.mask m) x.form.zeroes (m.getP d) new))))

/-- VADD (05 Table 5.2). -/
def execVadd (x : VForm) (s : State) : Host.Outcome State Fault Refusal := vintV x laneAdd s

/-- VSUB (05 Table 5.2). -/
def execVsub (x : VForm) (s : State) : Host.Outcome State Fault Refusal := vintV x laneSub s

/-- VMUL (05 Table 5.2). -/
def execVmul (x : VForm) (s : State) : Host.Outcome State Fault Refusal := vintV x laneMul s

/-- VMULH (05 Table 5.2). -/
def execVmulh (x : VForm) (s : State) : Host.Outcome State Fault Refusal := vintV x laneMulh s

/-- VMADD (05 Table 5.2). -/
def execVmadd (x : VForm) (s : State) : Host.Outcome State Fault Refusal := vintV x laneMadd s

/-- VAND (05 Table 5.2). -/
def execVand (x : VForm) (s : State) : Host.Outcome State Fault Refusal := vintV x laneAnd s

/-- VOR (05 Table 5.2). -/
def execVor (x : VForm) (s : State) : Host.Outcome State Fault Refusal := vintV x laneOr s

/-- VXOR (05 Table 5.2). -/
def execVxor (x : VForm) (s : State) : Host.Outcome State Fault Refusal := vintV x laneXor s

/-- VSLL (05 Table 5.2). -/
def execVsll (x : VForm) (s : State) : Host.Outcome State Fault Refusal := vintV x laneSll s

/-- VSRL (05 Table 5.2). -/
def execVsrl (x : VForm) (s : State) : Host.Outcome State Fault Refusal := vintV x laneSrl s

/-- VSRA (05 Table 5.2). -/
def execVsra (x : VForm) (s : State) : Host.Outcome State Fault Refusal := vintV x laneSra s

/-- VMIN (05 Table 5.2). -/
def execVmin (x : VForm) (s : State) : Host.Outcome State Fault Refusal := vintV x laneMin s

/-- VMAX (05 Table 5.2). -/
def execVmax (x : VForm) (s : State) : Host.Outcome State Fault Refusal := vintV x laneMax s

/-- VABS (05 Table 5.2). -/
def execVabs (x : VForm) (s : State) : Host.Outcome State Fault Refusal := vintV x laneAbs s

/-- VADD, VINTI (05 Table 5.2). -/
def execVaddi (x : VForm) (s : State) : Host.Outcome State Fault Refusal := vintI x laneAdd s

/-- VSUB, VINTI (05 Table 5.2). -/
def execVsubi (x : VForm) (s : State) : Host.Outcome State Fault Refusal := vintI x laneSub s

/-- VMUL, VINTI (05 Table 5.2). -/
def execVmuli (x : VForm) (s : State) : Host.Outcome State Fault Refusal := vintI x laneMul s

/-- VAND, VINTI (05 Table 5.2). -/
def execVandi (x : VForm) (s : State) : Host.Outcome State Fault Refusal := vintI x laneAnd s

/-- VOR, VINTI (05 Table 5.2). -/
def execVori (x : VForm) (s : State) : Host.Outcome State Fault Refusal := vintI x laneOr s

/-- VXOR, VINTI (05 Table 5.2). -/
def execVxori (x : VForm) (s : State) : Host.Outcome State Fault Refusal := vintI x laneXor s

/-- VSLL, VINTI (05 Table 5.2). -/
def execVslli (x : VForm) (s : State) : Host.Outcome State Fault Refusal := vintI x laneSll s

/-- VSRL, VINTI (05 Table 5.2). -/
def execVsrli (x : VForm) (s : State) : Host.Outcome State Fault Refusal := vintI x laneSrl s

/-- VSRA, VINTI (05 Table 5.2). -/
def execVsrai (x : VForm) (s : State) : Host.Outcome State Fault Refusal := vintI x laneSra s

/-- VMIN, VINTI (05 Table 5.2). -/
def execVmini (x : VForm) (s : State) : Host.Outcome State Fault Refusal := vintI x laneMin s

/-- VMAX, VINTI (05 Table 5.2). -/
def execVmaxi (x : VForm) (s : State) : Host.Outcome State Fault Refusal := vintI x laneMax s

/-- VCMP, VINT (05 R124). -/
def execVcmp (x : VForm) (s : State) : Host.Outcome State Fault Refusal := vcmp x (VForm.laneB x s.me (tyInt x.ty).w) s

/-- VCMP, VINTI (05 R124). -/
def execVcmpi (x : VForm) (s : State) : Host.Outcome State Fault Refusal := vcmp x (VForm.laneI x true (tyInt x.ty).w) s

/-- VSEL (05 R125): the mask selects between A and B in every lane. -/
def execVsel (x : VForm) (s : State) : Host.Outcome State Fault Refusal :=
  let w := (tyInt x.ty).w
  let m := s.me
  let mask := x.mask m
  finish x.form.len
    (.ok (s.setMe (m.setV x.d (ofLanes w ((List.range (512 / w)).map fun i =>
      if mask.getLsbD i then laneOf w (m.getV x.a) i else VForm.laneB x m w i)))))

/-! ## VPERM (05 R126 to R128) -/

/-- A masked permute: each active lane takes its new value. -/
def permute (x : VForm) (new : Nat → Nat) (s : State) : Host.Outcome State Fault Refusal :=
  let m := s.me
  finish x.form.len
    (.ok (s.setMe (m.setV x.d (mergeLanes (tyInt x.ty).w (x.mask m) x.form.zeroes (m.getV x.d) new))))

/-- A scalar result of a vector instruction, extended by the type (05 R121, R126). -/
def extendTy (t : IntTy) (v : Nat) : Word := BitVec.ofInt 64 (t.val v)

/-- Active lanes below i. -/
def activeBelow (mask : Word) (i : Nat) : Nat := ((List.range i).filter fun j => mask.getLsbD j).length

/-- VBCAST. -/
def execVbcast (x : VForm) (s : State) : Host.Outcome State Fault Refusal := permute x (fun _ => (VForm.scalarB x s.me).toNat) s

/-- VINS: unmasked. -/
def execVins (x : VForm) (s : State) : Host.Outcome State Fault Refusal :=
  let w := (tyInt x.ty).w
  let m := s.me
  let k := (VForm.scalarB x m).toNat
  finish x.form.len
    (.ok (s.setMe (m.setV x.d (ofLanes w ((List.range (512 / w)).map fun i =>
      if i = k then (m.getS x.a).toNat else laneOf w (m.getV x.d) i)))))

/-- VEXT: unmasked. -/
def execVext (x : VForm) (s : State) : Host.Outcome State Fault Refusal :=
  let t := tyInt x.ty
  let m := s.me
  let k := (VForm.scalarB x m).toNat
  finish x.form.len (.ok (s.setMe (m.setS x.d (if k < t.lanes then extendTy t (laneOf t.w (m.getV x.a) k) else 0))))

/-- VPERM: indices from V[B], unsigned. -/
def execVperm (x : VForm) (s : State) : Host.Outcome State Fault Refusal :=
  let w := (tyInt x.ty).w
  let m := s.me
  permute x (fun i =>
    let k := laneOf w (m.getV x.b) i
    if k < 512 / w then laneOf w (m.getV x.a) k else 0) s

/-- VSLIDE: k := i + S[B], signed. -/
def execVslide (x : VForm) (s : State) : Host.Outcome State Fault Refusal :=
  let w := (tyInt x.ty).w
  let m := s.me
  permute x (fun i =>
    let k : Int := i + (VForm.scalarB x m).toInt
    if 0 ≤ k ∧ k < (512 / w : Nat) then laneOf w (m.getV x.a) k.toNat else 0) s

/-- The reduction operators, by code: identity and step (05 R127). -/
def redIdentity (op : Nat) (t : IntTy) : Nat :=
  match op with
  | 1 => 2 ^ t.w - 1
  | 4 => t.wrap t.hi
  | 5 => t.wrap t.lo
  | _ => 0

/-- One step of a reduction on raw lanes. -/
def redStep (op : Nat) (t : IntTy) (a b : Nat) : Nat :=
  match op with
  | 0 => (a + b) % 2 ^ t.w
  | 1 => a &&& b
  | 2 => a ||| b
  | 3 => a ^^^ b
  | 4 => if t.val b < t.val a then b else a
  | _ => if t.val a < t.val b then b else a

/-- The reduction of the active lanes below n. -/
def reduceLanes (op : Nat) (t : IntTy) (mask : Word) (v : VWord) (n : Nat) : Nat :=
  (((List.range n).filter fun i => mask.getLsbD i).map (laneOf t.w v)).foldl (redStep op t) (redIdentity op t)

/-- VRED: the operator code is the B field. -/
def execVred (x : VForm) (s : State) : Host.Outcome State Fault Refusal :=
  let t := tyInt x.ty
  let m := s.me
  finish x.form.len
    (.ok (s.setMe (m.setS x.d (extendTy t (reduceLanes x.b.toNat t (x.mask m) (m.getV x.a) t.lanes)))))

/-- VSCAN. -/
def execVscan (x : VForm) (s : State) : Host.Outcome State Fault Refusal :=
  let t := tyInt x.ty
  let m := s.me
  permute x (fun i => reduceLanes x.b.toNat t (x.mask m) (m.getV x.a) (i + 1)) s

/-- VIOTA. -/
def execViota (x : VForm) (s : State) : Host.Outcome State Fault Refusal :=
  let mask := x.mask s.me
  permute x (activeBelow mask) s

/-- VCMPRS (05 R128): the active lanes packed low, zeros above. -/
def execVcmprs (x : VForm) (s : State) : Host.Outcome State Fault Refusal :=
  let w := (tyInt x.ty).w
  let m := s.me
  let mask := x.mask m
  finish x.form.len
    (.ok (s.setMe (m.setV x.d (ofLanes w (((List.range (512 / w)).filter fun i => mask.getLsbD i).map (laneOf w (m.getV x.a)))))))

/-- VEXPND. -/
def execVexpnd (x : VForm) (s : State) : Host.Outcome State Fault Refusal :=
  let w := (tyInt x.ty).w
  let m := s.me
  let mask := x.mask m
  permute x (fun i => laneOf w (m.getV x.a) (activeBelow mask i)) s

/-! ## PRED (05 R129, R130) -/

/-- The operators of PLOG, by TY3. -/
def plogOp (op : Nat) (a b : Bool) : Bool :=
  match op with
  | 0 => a && b
  | 1 => a || b
  | 2 => xor a b
  | 3 => a && !b
  | 4 => a || !b
  | 5 => !(a && b)
  | 6 => !(a || b)
  | _ => !(xor a b)

/-- PLOG: per bit, all 64 bits. -/
def execPlog (x : VForm) (s : State) : Host.Outcome State Fault Refusal :=
  let m := s.me
  let d := x.d.setWidth 3
  let a := m.getP (x.a.setWidth 3)
  let b := m.getP (x.b.setWidth 3)
  finish x.form.len
    (.ok (s.setMe (m.setP d (mergeBits 64 (x.mask m) x.form.zeroes (m.getP d) fun i =>
      plogOp x.ty.toNat (a.getLsbD i) (b.getLsbD i)))))

/-- Lanes of a PRED type. -/
def predCount (x : VForm) : Nat := 512 / (8 * 2 ^ x.ty.toNat)

/-- The bits PPOPC counts and PFIRST searches. -/
def filtered (x : VForm) (m : Context) : List Nat :=
  (List.range (predCount x)).filter fun i => (m.getP (x.a.setWidth 3)).getLsbD i && (x.mask m).getLsbD i

/-- PPOPC. -/
def execPpopc (x : VForm) (s : State) : Host.Outcome State Fault Refusal :=
  finish x.form.len (.ok (s.setMe (s.me.setS x.d (BitVec.ofNat 64 (filtered x s.me).length))))

/-- PFIRST. -/
def execPfirst (x : VForm) (s : State) : Host.Outcome State Fault Refusal :=
  finish x.form.len
    (.ok (s.setMe (s.me.setP (x.d.setWidth 3)
      (match (filtered x s.me).head? with
       | some i => BitVec.ofNat 64 (2 ^ i)
       | none => 0))))

/-- PSET: unmasked. -/
def execPset (x : VForm) (s : State) : Host.Outcome State Fault Refusal :=
  let n := min (VForm.scalarB x s.me).toNat (predCount x)
  finish x.form.len (.ok (s.setMe (s.me.setP (x.d.setWidth 3) (BitVec.ofNat 64 (2 ^ n - 1)))))

end Sys2Proof.Machine
end

