-- ==== Sys2Proof/Machine/Float.lean ====
section
/-! DEFINITION. Floating-point arithmetic, fused multiply-add, conversions, quantisation, interleaves and the XFN
functions (05 R131 to R147), on jobs that the acting core runs itself or ships (06 R149, R150). -/

namespace Sys2Proof.Machine

/-! ## Running a job -/

/-- The widths in which an operation reads its first operand and writes a lane (05 R118, R139, R141). -/
def FpOp.widths : FpOp → Nat × Nat
  | .arith _ f | .fma _ _ f | .minMax _ _ f | .abs f | .neg f | .sgnj f | .cmp _ f | .classify f | .rint f
  | .xfn _ f | .reduce f => (f.width, f.width)
  | .dot2 _ => (32, 32)
  | .toFp src dst => (src.width, dst.width)
  | .toInt src t => (src.width, t.w)
  | .fromInt t dst => (t.w, dst.width)
  | .intToInt src dst => (src.w, dst.w)
  | .dequant q4 f => (if q4 then 4 else 8, f.width)
  | .quant q4 f => (f.width, if q4 then 4 else 8)
  | .toScale => (32, 32)
  | .fromScale => (32, 32)

/-- Lanes of an operation. -/
def FpOp.lanes (op : FpOp) : Nat := 512 / max op.widths.1 op.widths.2

/-- How the final narrowing overflows (03 R70). -/
def FpJob.rule (j : FpJob) : OverflowRule := if j.sat then .saturate else .final

/-- The rounding mode of a job. -/
def FpJob.mode (j : FpJob) : RMode := RMode.ofCode j.rm.toNat

/-- The result of lane i and its flags (05 R132 to R145). -/
def FpJob.lane (j : FpJob) (i : Nat) : Nat × Flags :=
  let w := j.op.widths.1
  let a := laneOf w j.a i
  let b := laneOf w j.b i
  let c := laneOf w j.c i
  let r := j.mode
  let rule := j.rule
  match j.op with
  | .arith op f => fpArith op f r rule a b
  | .fma np nc f => fpFma np nc f r rule a b c
  | .minMax mx prop f => fpMinMax mx prop f a b
  | .abs f => (a % 2 ^ (f.width - 1), 0)
  | .neg f => (a ^^^ 2 ^ (f.width - 1), 0)
  | .sgnj f => (a % 2 ^ (f.width - 1) + b / 2 ^ (f.width - 1) * 2 ^ (f.width - 1), 0)
  | .cmp cc f => ((fpCmp cc f a b).1.toNat, (fpCmp cc f a b).2)
  | .classify f => (fpClass f a, 0)
  | .rint f => fpRoundInt f r a
  | .dot2 f =>
    fpDot2 f r rule (laneOf 16 j.a (2 * i)) (laneOf 16 j.a (2 * i + 1)) (laneOf 16 j.b (2 * i))
      (laneOf 16 j.b (2 * i + 1)) c
  | .reduce _ => (0, 0)
  | .toFp src dst => fpToFp src dst r rule a
  | .toInt src t => fpToInt src t r a
  | .fromInt t dst => intToFp dst r rule (t.val a)
  | .intToInt src dst => dst.narrow j.sat (src.val a)
  | .dequant q4 f => qdeq f r rule (groupRecord q4 (laneOf 32 j.b 0)) a
  | .quant q4 f => qquant f r (groupRecord q4 (laneOf 32 j.b 0)) (if q4 then 15 else 255) a
  | .toScale => f32ToS20 r a
  | .fromScale => s20ToF32 a
  | .xfn op f => fpXfn op f r rule a

/-- What a job gives: the destination's value, and the flags lane by lane; a scalar or a sum has one lane. -/
structure FpOut where
  value : VWord
  flags : List Flags
  deriving DecidableEq, Repr

/-- A scalar result, extended (05 R121). -/
def FpOp.extend (op : FpOp) (v : Nat) : Word :=
  match op with
  | .toInt _ t => extendTy t v
  | .intToInt _ t => extendTy t v
  | _ => BitVec.ofNat 64 v

/-- FREDS: the active lanes, lowest first, then S[B] (05 R137). -/
def FpJob.sum (j : FpJob) (f : Fmt) : FpOut :=
  let xs := ((List.range (512 / f.width)).filter fun i => j.mask.getLsbD i).map (laneOf f.width j.a)
  let r := fpSum f j.mode j.rule (xs ++ [laneOf f.width j.b 0])
  { value := BitVec.ofNat 512 r.1, flags := [r.2] }

/-- Run a job (05 R132, R133, R139). -/
def FpJob.run (j : FpJob) : FpOut :=
  match j.op with
  | .reduce f => j.sum f
  | _ =>
    if j.scalar then { value := (j.op.extend (j.lane 0).1).setWidth 512, flags := [(j.lane 0).2] }
    else
      let w := match j.dest with | .p _ => 1 | _ => j.op.widths.2
      let rs := (List.range j.op.lanes).map fun i =>
        if j.mask.getLsbD i then j.lane i else (if j.zero then 0 else laneOf w j.old i, 0)
      { value := ofLanes w (rs.map (·.1)), flags := rs.map (·.2) }

/-- The FP trap of a job's flags against the enables (03 R79). -/
def FpOut.trap? (o : FpOut) (en : Flags) : Option Trap :=
  let fl := unionFlags o.flags
  if traps en fl then some { cause := .fp, tval := fpTval fl (o.flags.findIdx (traps en)) } else none

/-! ## From an instruction to its job -/

/-- The floating type of TY3 (05 R131). -/
def tyFp (ty : BitVec 3) : Fmt :=
  match ty.toNat with
  | 0 => .f16 | 1 => .bf16 | 2 => .f32 | _ => .f64

/-- A value in every lane. -/
def splat (w : Nat) (v : Word) : VWord := ofLanes w (List.replicate (512 / w) v.toNat)

/-- A scalar or vector register as an operand. -/
def Context.operand (m : Context) (scalar : Bool) (r : Reg) : VWord := if scalar then (m.getS r).setWidth 512 else m.getV r

/-- The old value of a destination. -/
def Context.oldDest (m : Context) (d : Dest) : VWord :=
  match d with
  | .s r => (m.getS r).setWidth 512
  | .v r => m.getV r
  | .p r => (m.getP r).setWidth 512

/-- The register of the addend: E1.C in extended form, D in base form (05 R135). -/
def VForm.addend (x : VForm) : Reg := if x.form.isExt then x.form.c else x.d

/-- A job with its captured operands (06 R150); `w` is the lane width a literal fills (02 R42). -/
def VForm.job (x : VForm) (m : Context) (op : FpOp) (dest : Dest) (scalar : Bool) (w : Nat) : FpJob where
  op := op
  dest := dest
  scalar := scalar
  a := m.operand scalar x.a
  b := match x.form.literal? with
    | some l => if scalar then l.setWidth 512 else splat w l
    | none => m.operand scalar x.b
  c := m.operand scalar (VForm.addend x)
  old := m.oldDest dest
  mask := x.mask m
  zero := x.form.zeroes
  rm := x.form.rmCode m
  sat := x.form.sat

/-- Run a job on the acting core: it traps, or writes and merges its flags (05 R132). -/
def runHere (j : FpJob) (s : State) : Run State :=
  let o := j.run
  match o.trap? (enables s.me.fctl) with
  | some t => .error (.trap t s)
  | none => .ok (s.setMe ((s.me.setDest j.dest o.value).mergeFlags (unionFlags o.flags)))

/-- Whether an operation is heavy: it works on .f64, or is an XFN form (05 R146). -/
def FpOp.heavy : FpOp → Bool
  | .xfn _ _ => true
  | .arith _ f | .fma _ _ f | .minMax _ _ f | .abs f | .neg f | .sgnj f | .cmp _ f | .classify f | .rint f
  | .dot2 f | .reduce f => f == .f64
  | .toFp src dst => src == .f64 || dst == .f64
  | .toInt src _ => src == .f64
  | .fromInt _ dst => dst == .f64
  | _ => false

/-- Execute a job, here or by shipping it; a sender with enabled traps is held (06 R149, R157). -/
def runOrShip (i : Instr) (j : FpJob) (s : State) : Run State :=
  if s.ships && j.op.heavy then s.ship i (.float j) (enables s.me.fctl != 0) else runHere j s

/-- A scalar form: inactive, it leaves its destination or zeroes it (02 R39). -/
def floatScalar (x : VForm) (i : Instr) (op : FpOp) (s : State) : Host.Outcome State Fault Refusal :=
  finish x.form.len
    (if (x.mask s.me).getLsbD 0 then runOrShip i (VForm.job x s.me op (.s x.d) true op.widths.1) s
     else .ok (s.skipScalar x.form x.d))

/-- A vector form. -/
def floatVector (x : VForm) (i : Instr) (op : FpOp) (s : State) : Host.Outcome State Fault Refusal :=
  finish x.form.len (runOrShip i (VForm.job x s.me op (.v x.d) false op.widths.1) s)

/-- FCMP of vectors writes a predicate (05 R133). -/
def floatCompare (x : VForm) (i : Instr) (op : FpOp) (s : State) : Host.Outcome State Fault Refusal :=
  finish x.form.len (runOrShip i (VForm.job x s.me op (.p (x.d.setWidth 3)) false op.widths.1) s)

/-- The condition of FCMP, E2<2:0>. -/
def VForm.cc (x : VForm) : Nat := bits x.form.e2.toNat 2 0

/-! ## FPS and FPV (05 R131 to R134) -/

/-- FADD, FPS (05 Table 5.5). -/
def execFpsFadd (x : VForm) (s : State) : Host.Outcome State Fault Refusal := floatScalar x (.fpsFadd x) (.arith .add (tyFp x.ty)) s

/-- FSUB, FPS (05 Table 5.5). -/
def execFpsFsub (x : VForm) (s : State) : Host.Outcome State Fault Refusal := floatScalar x (.fpsFsub x) (.arith .sub (tyFp x.ty)) s

/-- FMUL, FPS (05 Table 5.5). -/
def execFpsFmul (x : VForm) (s : State) : Host.Outcome State Fault Refusal := floatScalar x (.fpsFmul x) (.arith .mul (tyFp x.ty)) s

/-- FDIV, FPS (05 Table 5.5). -/
def execFpsFdiv (x : VForm) (s : State) : Host.Outcome State Fault Refusal := floatScalar x (.fpsFdiv x) (.arith .div (tyFp x.ty)) s

/-- FSQRT, FPS (05 Table 5.5). -/
def execFpsFsqrt (x : VForm) (s : State) : Host.Outcome State Fault Refusal := floatScalar x (.fpsFsqrt x) (.arith .sqrt (tyFp x.ty)) s

/-- FMIN, FPS (05 Table 5.5). -/
def execFpsFmin (x : VForm) (s : State) : Host.Outcome State Fault Refusal := floatScalar x (.fpsFmin x) (.minMax false false (tyFp x.ty)) s

/-- FMAX, FPS (05 Table 5.5). -/
def execFpsFmax (x : VForm) (s : State) : Host.Outcome State Fault Refusal := floatScalar x (.fpsFmax x) (.minMax true false (tyFp x.ty)) s

/-- FMINM, FPS (05 Table 5.5). -/
def execFpsFminm (x : VForm) (s : State) : Host.Outcome State Fault Refusal := floatScalar x (.fpsFminm x) (.minMax false true (tyFp x.ty)) s

/-- FMAXM, FPS (05 Table 5.5). -/
def execFpsFmaxm (x : VForm) (s : State) : Host.Outcome State Fault Refusal := floatScalar x (.fpsFmaxm x) (.minMax true true (tyFp x.ty)) s

/-- FABS, FPS (05 Table 5.5). -/
def execFpsFabs (x : VForm) (s : State) : Host.Outcome State Fault Refusal := floatScalar x (.fpsFabs x) (.abs (tyFp x.ty)) s

/-- FNEG, FPS (05 Table 5.5). -/
def execFpsFneg (x : VForm) (s : State) : Host.Outcome State Fault Refusal := floatScalar x (.fpsFneg x) (.neg (tyFp x.ty)) s

/-- FSGNJ, FPS (05 Table 5.5). -/
def execFpsFsgnj (x : VForm) (s : State) : Host.Outcome State Fault Refusal := floatScalar x (.fpsFsgnj x) (.sgnj (tyFp x.ty)) s

/-- FCMP, FPS (05 R133). -/
def execFpsFcmp (x : VForm) (s : State) : Host.Outcome State Fault Refusal := floatScalar x (.fpsFcmp x) (.cmp (VForm.cc x) (tyFp x.ty)) s

/-- FCLASS, FPS (05 R134). -/
def execFpsFclass (x : VForm) (s : State) : Host.Outcome State Fault Refusal := floatScalar x (.fpsFclass x) (.classify (tyFp x.ty)) s

/-- FRND, FPS (05 Table 5.5). -/
def execFpsFrnd (x : VForm) (s : State) : Host.Outcome State Fault Refusal := floatScalar x (.fpsFrnd x) (.rint (tyFp x.ty)) s

/-- FADD, FPV (05 Table 5.5). -/
def execFpvFadd (x : VForm) (s : State) : Host.Outcome State Fault Refusal := floatVector x (.fpvFadd x) (.arith .add (tyFp x.ty)) s

/-- FSUB, FPV (05 Table 5.5). -/
def execFpvFsub (x : VForm) (s : State) : Host.Outcome State Fault Refusal := floatVector x (.fpvFsub x) (.arith .sub (tyFp x.ty)) s

/-- FMUL, FPV (05 Table 5.5). -/
def execFpvFmul (x : VForm) (s : State) : Host.Outcome State Fault Refusal := floatVector x (.fpvFmul x) (.arith .mul (tyFp x.ty)) s

/-- FDIV, FPV (05 Table 5.5). -/
def execFpvFdiv (x : VForm) (s : State) : Host.Outcome State Fault Refusal := floatVector x (.fpvFdiv x) (.arith .div (tyFp x.ty)) s

/-- FSQRT, FPV (05 Table 5.5). -/
def execFpvFsqrt (x : VForm) (s : State) : Host.Outcome State Fault Refusal := floatVector x (.fpvFsqrt x) (.arith .sqrt (tyFp x.ty)) s

/-- FMIN, FPV (05 Table 5.5). -/
def execFpvFmin (x : VForm) (s : State) : Host.Outcome State Fault Refusal := floatVector x (.fpvFmin x) (.minMax false false (tyFp x.ty)) s

/-- FMAX, FPV (05 Table 5.5). -/
def execFpvFmax (x : VForm) (s : State) : Host.Outcome State Fault Refusal := floatVector x (.fpvFmax x) (.minMax true false (tyFp x.ty)) s

/-- FMINM, FPV (05 Table 5.5). -/
def execFpvFminm (x : VForm) (s : State) : Host.Outcome State Fault Refusal := floatVector x (.fpvFminm x) (.minMax false true (tyFp x.ty)) s

/-- FMAXM, FPV (05 Table 5.5). -/
def execFpvFmaxm (x : VForm) (s : State) : Host.Outcome State Fault Refusal := floatVector x (.fpvFmaxm x) (.minMax true true (tyFp x.ty)) s

/-- FABS, FPV (05 Table 5.5). -/
def execFpvFabs (x : VForm) (s : State) : Host.Outcome State Fault Refusal := floatVector x (.fpvFabs x) (.abs (tyFp x.ty)) s

/-- FNEG, FPV (05 Table 5.5). -/
def execFpvFneg (x : VForm) (s : State) : Host.Outcome State Fault Refusal := floatVector x (.fpvFneg x) (.neg (tyFp x.ty)) s

/-- FSGNJ, FPV (05 Table 5.5). -/
def execFpvFsgnj (x : VForm) (s : State) : Host.Outcome State Fault Refusal := floatVector x (.fpvFsgnj x) (.sgnj (tyFp x.ty)) s

/-- FCMP, FPV (05 R133). -/
def execFpvFcmp (x : VForm) (s : State) : Host.Outcome State Fault Refusal := floatCompare x (.fpvFcmp x) (.cmp (VForm.cc x) (tyFp x.ty)) s

/-- FCLASS, FPV (05 R134). -/
def execFpvFclass (x : VForm) (s : State) : Host.Outcome State Fault Refusal := floatVector x (.fpvFclass x) (.classify (tyFp x.ty)) s

/-- FRND, FPV (05 Table 5.5). -/
def execFpvFrnd (x : VForm) (s : State) : Host.Outcome State Fault Refusal := floatVector x (.fpvFrnd x) (.rint (tyFp x.ty)) s

/-! ## FMA (05 R135 to R137) -/

/-- FFMA, vector (05 Table 5.6). -/
def execFfmaVector (x : VForm) (s : State) : Host.Outcome State Fault Refusal := floatVector x (.ffmaVector x) (.fma false false (tyFp x.ty)) s

/-- FFMA, scalar (05 Table 5.6). -/
def execFfmaScalar (x : VForm) (s : State) : Host.Outcome State Fault Refusal := floatScalar x (.ffmaScalar x) (.fma false false (tyFp x.ty)) s

/-- FFMS, vector (05 Table 5.6). -/
def execFfmsVector (x : VForm) (s : State) : Host.Outcome State Fault Refusal := floatVector x (.ffmsVector x) (.fma false true (tyFp x.ty)) s

/-- FFMS, scalar (05 Table 5.6). -/
def execFfmsScalar (x : VForm) (s : State) : Host.Outcome State Fault Refusal := floatScalar x (.ffmsScalar x) (.fma false true (tyFp x.ty)) s

/-- FNFMA, vector (05 Table 5.6). -/
def execFnfmaVector (x : VForm) (s : State) : Host.Outcome State Fault Refusal := floatVector x (.fnfmaVector x) (.fma true false (tyFp x.ty)) s

/-- FNFMA, scalar (05 Table 5.6). -/
def execFnfmaScalar (x : VForm) (s : State) : Host.Outcome State Fault Refusal := floatScalar x (.fnfmaScalar x) (.fma true false (tyFp x.ty)) s

/-- FNFMS, vector (05 Table 5.6). -/
def execFnfmsVector (x : VForm) (s : State) : Host.Outcome State Fault Refusal := floatVector x (.fnfmsVector x) (.fma true true (tyFp x.ty)) s

/-- FNFMS, scalar (05 Table 5.6). -/
def execFnfmsScalar (x : VForm) (s : State) : Host.Outcome State Fault Refusal := floatScalar x (.fnfmsScalar x) (.fma true true (tyFp x.ty)) s

/-- FDOT2 (05 R136): a literal fills every 16-bit element. -/
def execFdot2 (x : VForm) (s : State) : Host.Outcome State Fault Refusal :=
  finish x.form.len (runOrShip (.fdot2 x) (VForm.job x s.me (.dot2 (tyFp x.ty)) (.v x.d) false 16) s)

/-- A job whose second operand is one scalar, S[B] or the literal. -/
def VForm.jobScalarB (x : VForm) (m : Context) (op : FpOp) (dest : Dest) : FpJob :=
  { VForm.job x m op dest false 64 with b := (VForm.scalarB x m).setWidth 512 }

/-- FREDS (05 R137): not masked as a scalar. -/
def execFreds (x : VForm) (s : State) : Host.Outcome State Fault Refusal :=
  finish x.form.len (runOrShip (.freds x) (VForm.jobScalarB x s.me (.reduce (tyFp x.ty)) (.s x.d)) s)

/-! ## FCVT, QDEQ, QQUANT, SCVT, ILVP, ILVU (05 R138 to R143) -/

/-- The integer type of a type code below 8 (05 R139). -/
def codeInt (c : Nat) : IntTy := { signed := decide (c < 4), w := 8 * 2 ^ (c % 4) }

/-- The floating type of a type code from 8 (05 R139). -/
def codeFp (c : Nat) : Fmt :=
  match c with
  | 8 => .e4m3 | 9 => .e5m2 | 10 => .f16 | 11 => .bf16 | 12 => .f32 | _ => .f64

/-- The conversion of a pair of type codes (05 R140). -/
def convOp (src dst : Nat) : FpOp :=
  if src < 8 then (if dst < 8 then .intToInt (codeInt src) (codeInt dst) else .fromInt (codeInt src) (codeFp dst))
  else if dst < 8 then .toInt (codeFp src) (codeInt dst) else .toFp (codeFp src) (codeFp dst)

/-- The conversion E2 names: source in bits 12:8, destination in bits 4:0. -/
def VForm.conv (x : VForm) : FpOp := convOp (bits x.form.e2.toNat 12 8) (bits x.form.e2.toNat 4 0)

/-- FCVT, vector. -/
def execFcvtVector (x : VForm) (s : State) : Host.Outcome State Fault Refusal := floatVector x (.fcvtVector x) (VForm.conv x) s

/-- FCVT, scalar. -/
def execFcvtScalar (x : VForm) (s : State) : Host.Outcome State Fault Refusal := floatScalar x (.fcvtScalar x) (VForm.conv x) s

/-- The floating type of QDEQ and QQUANT (05 R141). -/
def quantFp (ty : BitVec 3) : Fmt :=
  match (ty.extractLsb' 0 2).toNat with
  | 0 => .f32 | 1 => .f16 | _ => .bf16

/-- QDEQ (05 R141). -/
def execQdeq (x : VForm) (s : State) : Host.Outcome State Fault Refusal :=
  finish x.form.len
    (runOrShip (.qdeq x) (VForm.jobScalarB x s.me (.dequant (x.ty.getLsbD 2) (quantFp x.ty)) (.v x.d)) s)

/-- QQUANT (05 R141). -/
def execQquant (x : VForm) (s : State) : Host.Outcome State Fault Refusal :=
  finish x.form.len
    (runOrShip (.qquant x) (VForm.jobScalarB x s.me (.quant (x.ty.getLsbD 2) (quantFp x.ty)) (.v x.d)) s)

/-- SCVT (05 R142). -/
def execScvt (x : VForm) (s : State) : Host.Outcome State Fault Refusal :=
  floatScalar x (.scvt x) (if x.ty = 0 then .toScale else .fromScale) s

/-- Element width and half selector of ILVP and ILVU (05 R143). -/
def VForm.interleave (x : VForm) : Nat × Nat := (8 * 2 ^ x.ty.toNat, bits x.form.e2.toNat 0 0)

/-- ILVP: element 2i from A, 2i + 1 from B. -/
def execIlvp (x : VForm) (s : State) : Host.Outcome State Fault Refusal :=
  let w := (VForm.interleave x).1
  let h := (VForm.interleave x).2
  let n := 512 / w
  let m := s.me
  finish x.form.len
    (.ok (s.setMe (m.setV x.d (ofLanes w ((List.range n).map fun i =>
      laneOf w (m.getV (if i % 2 = 0 then x.a else x.b)) (i / 2 + h * (n / 2)))))))

/-- ILVU: every second element of A followed by B. -/
def execIlvu (x : VForm) (s : State) : Host.Outcome State Fault Refusal :=
  let w := (VForm.interleave x).1
  let h := (VForm.interleave x).2
  let n := 512 / w
  let m := s.me
  finish x.form.len
    (.ok (s.setMe (m.setV x.d (ofLanes w ((List.range n).map fun i =>
      if 2 * i + h < n then laneOf w (m.getV x.a) (2 * i + h) else laneOf w (m.getV x.b) (2 * i + h - n))))))

/-! ## XFN (05 R144, R145) -/

/-- A vector or scalar XFN form. -/
def transcendental (scalar : Bool) (x : VForm) (i : Instr) (op : XfnOp) (s : State) : Host.Outcome State Fault Refusal :=
  if scalar then floatScalar x i (.xfn op (tyFp x.ty)) s else floatVector x i (.xfn op (tyFp x.ty)) s

/-- FEXP2 (05 R145). -/
def execFexp2 (scalar : Bool) (x : VForm) (s : State) : Host.Outcome State Fault Refusal :=
  transcendental scalar x (.fexp2 scalar x) .exp2 s

/-- FEXP (05 R145). -/
def execFexp (scalar : Bool) (x : VForm) (s : State) : Host.Outcome State Fault Refusal :=
  transcendental scalar x (.fexp scalar x) .exp s

/-- FLOG2 (05 R145). -/
def execFlog2 (scalar : Bool) (x : VForm) (s : State) : Host.Outcome State Fault Refusal :=
  transcendental scalar x (.flog2 scalar x) .log2 s

/-- FSIN (05 R145). -/
def execFsin (scalar : Bool) (x : VForm) (s : State) : Host.Outcome State Fault Refusal :=
  transcendental scalar x (.fsin scalar x) .sin s

/-- FCOS (05 R145). -/
def execFcos (scalar : Bool) (x : VForm) (s : State) : Host.Outcome State Fault Refusal :=
  transcendental scalar x (.fcos scalar x) .cos s

/-- FTANH (05 R145). -/
def execFtanh (scalar : Bool) (x : VForm) (s : State) : Host.Outcome State Fault Refusal :=
  transcendental scalar x (.ftanh scalar x) .tanh s

/-- FRSQ (05 R145). -/
def execFrsq (scalar : Bool) (x : VForm) (s : State) : Host.Outcome State Fault Refusal :=
  transcendental scalar x (.frsq scalar x) .rsq s

/-- FRCP (05 R145). -/
def execFrcp (scalar : Bool) (x : VForm) (s : State) : Host.Outcome State Fault Refusal :=
  transcendental scalar x (.frcp scalar x) .rcp s

end Sys2Proof.Machine
end

