-- ==== Sys2Proof/Machine/MatArith.lean ====
section
/-! DEFINITION. The arithmetic of the matrix engine: operand types, one step of a product in either order, what a
completed product adds to the slot, loads and drains of rows (07 R168, R172 to R185, 03 R81 to R83). -/

namespace Sys2Proof.Machine

/-! ## Types (07 Tables 7.4, 7.6) -/

/-- An operand type: floating, two's complement, or unsigned code less a zero point. -/
inductive MatTy where
  | fp (f : Fmt)
  | int (w : Nat)
  | code (w zp : Nat)
  deriving DecidableEq, Repr

/-- Bits of an element. -/
def MatTy.width : MatTy → Nat
  | .fp f => f.width
  | .int w => w
  | .code w _ => w

/-- The value of an element of an integer type. -/
def MatTy.ival : MatTy → Nat → Int
  | .fp _, _ => 0
  | .int w, x => IntTy.val { signed := true, w := w } x
  | .code _ zp, x => (x : Int) - zp

/-- An integer as an exact value. -/
def FVal.ofInt (z : Int) : FVal := .fin (decide (z < 0)) z.natAbs 0

/-- The value of an element. -/
def MatTy.fval (t : MatTy) (x : Nat) : FVal :=
  match t with
  | .fp f => f.decode x
  | _ => FVal.ofInt (t.ival x)

/-- The types of A and B and the slot kind of a TMMA (Table 7.4). -/
def tmmaTypes (md zp : Nat) : MatTy × MatTy × AccKind :=
  match md with
  | 0 => (.fp .e4m3, .fp .e4m3, .ax36)
  | 1 => (.fp .e5m2, .fp .e5m2, .ax36)
  | 2 => (.fp .e4m3, .fp .e5m2, .ax36)
  | 3 => (.fp .e5m2, .fp .e4m3, .ax36)
  | 4 => (.fp .f16, .fp .f16, .ax36)
  | 5 => (.fp .bf16, .fp .bf16, .ax36)
  | 6 => (.fp .f32, .fp .f32, .ax36)
  | 7 => (.fp .f64, .fp .f64, .f64)
  | 8 => (.int 8, .int 8, .i48)
  | 9 => (.int 8, .code 8 zp, .i48)
  | 10 => (.int 4, .int 4, .i48)
  | _ => (.int 4, .code 4 zp, .i48)

/-- The type of A of a TMMAQ (R180). -/
def tmmaqType (md : Nat) : MatTy :=
  match md with
  | 0 => .fp .e4m3 | 1 => .fp .e5m2 | 4 => .fp .f16 | 5 => .fp .bf16 | _ => .int 8

/-- The data types of Table 7.6: a floating format, or .i32. -/
def slotType (md : Nat) : Option Fmt :=
  match md with
  | 0 => some .e4m3 | 1 => some .e5m2 | 4 => some .f16 | 5 => some .bf16 | 6 => some .f32 | 7 => some .f64 | _ => none

/-- Bytes of an element of a data type. -/
def slotBytes (md : Nat) : Nat := match slotType md with | some f => f.width / 8 | none => 4

/-- Whether a data type may leave a slot of a kind (Table 7.6). -/
def mayDrain (md : Nat) (k : AccKind) : Bool :=
  match k with
  | .i48 => md == 9
  | _ => md != 9

/-- Whether a data type may be loaded into a slot of a kind (Table 7.6). -/
def mayLoad (md : Nat) (k : AccKind) : Bool :=
  match k with
  | .i48 => md == 9
  | .ax36 => md != 9 && md != 7
  | .f64 => md != 9

/-! ## Rounding inside the engine -/

/-- The engine produces only the canonical NaN (03 R72). -/
def Exact.canon : Exact → Exact
  | .nan _ _ _ => .nan false 1 1
  | x => x

/-- An intermediate RoundOdd into a format. -/
def roundOdd (f : Fmt) (x : Exact) : Nat × Flags := x.canon.narrow f .rod .intermediate

/-- The exact sum of products (R81, R73). -/
def dotExact (r : RMode) (xs : List (FVal × FVal)) (more : List FVal) : Exact :=
  let ops := xs.flatMap (fun p => [p.1, p.2]) ++ more
  let pr (p : FVal × FVal) : Exact := if p.1.isNan || p.2.isNan then .nan false 1 1 else mulVal p.1 p.2
  sumExact r ops (xs.map pr ++ more.map FVal.exact)

/-- RoundOdd(x + y, AX36) of two AX36 patterns (R81). -/
def axAdd (x y : Nat) : Nat × Flags := roundOdd .ax36 (dotExact .rod [] [Fmt.ax36.decode x, Fmt.ax36.decode y])

/-- A post-addition (R176, R177): two infinities give the canonical NaN with NV. -/
def axPost (sub : Bool) (x y : Nat) : Nat × Flags :=
  let a := Fmt.ax36.decode x
  let b := Fmt.ax36.decode y
  if a.isInf && b.isInf then (Fmt.ax36.canonicalNan, fNV)
  else roundOdd .ax36 (dotExact .rod [] [a, if sub then b.negate else b])

/-- Add one run of products to an AX36 element (R81). -/
def axRun (acc : Nat) (xs : List (FVal × FVal)) : Nat × Flags :=
  let r := roundOdd .ax36 (dotExact .rod xs [])
  let a := axAdd acc r.1
  (a.1, r.2 ||| a.2)

/-- Add one run of products to an .f64 element with one RoundEven (03 R82). -/
def f64Run (acc : Nat) (xs : List (FVal × FVal)) : Nat × Flags :=
  (dotExact .rne xs [Fmt.f64.decode acc]).canon.narrow .f64 .rne .final

/-- Clamp48 (03 R83), and whether it clamped. -/
def clamp48 (x : Int) : Int × Bool :=
  let t : IntTy := { signed := true, w := 48 }
  (t.sat x, t.sat x != x)

/-- Flags a slot keeps: NV and NX (Table 7.9). -/
def slotFlags (f : Flags) : Flags := f &&& (fNV ||| fNX)

/-! ## Operand access (R168) -/

/-- Raw element idx, of width w bits, of the row at byte offset `row` from a base. -/
def State.matRaw (s : State) (p : Option Nat) (pages : List (Nat × Nat)) (base : Word) (row w idx : Nat) : Nat :=
  let at_ := engineAddr pages ((shiftAddr base ((row + idx * w / 8 : Nat) : Int)).getD base)
  if w = 4 then s.engineLoad p at_ 1 / 16 ^ (idx % 2) % 16 else s.engineLoad p at_ (w / 8)

/-- What the steps of a command read from memory: A(m, k), B(k, j), and the record of (g, j). -/
structure MatOps where
  a : Nat → Nat → Nat
  b : Nat → Nat → Nat
  grp : Nat → Nat → Nat

/-- Pitches PA and PB. -/
def MatCmd.pa (c : MatCmd) : Nat := bits c.c.toNat 31 0
/-- PB. -/
def MatCmd.pb (c : MatCmd) : Nat := bits c.c.toNat 63 32

/-- Whether a command is a TMMAQ. -/
def MatCmd.quantised (c : MatCmd) : Bool := c.fn == 5

/-- The type of A. -/
def MatCmd.tyA (c : MatCmd) : MatTy := if c.quantised then tmmaqType c.mode.toNat else (tmmaTypes c.mode.toNat c.zp).1

/-- The type of B: of a TMMAQ, the raw codes. -/
def MatCmd.tyB (c : MatCmd) : MatTy :=
  if c.quantised then (match c.desc with | some d => .code (if d.q4 then 4 else 8) 0 | none => .code 8 0)
  else (tmmaTypes c.mode.toNat c.zp).2.1

/-- The slot kind of a product. -/
def MatCmd.kind (c : MatCmd) : AccKind := if c.quantised then .ax36 else (tmmaTypes c.mode.toNat c.zp).2.2

/-- Group size of the descriptor. -/
def MatCmd.g (c : MatCmd) : Nat := (c.desc.map (·.g)).getD 32

/-- Steps of a command (R174, R190). -/
def MatCmd.total (c : MatCmd) : Nat :=
  if c.fn = 4 ∨ c.fn = 5 then
    if !c.classical then c.k / 16 else if c.quantised then c.k / c.g else c.k / 8
  else if c.fn = 3 ∨ c.fn = 7 ∨ c.fn = 8 then 64 else 1

/-- Whether what an operand's fetch merges with is decided: operand B or A. -/
def Fetch.got (f : Fetch) (b : Bool) : Bool := if b then f.gotB else f.gotA

/-- The bytes a fetch read of an operand. -/
def Fetch.data (f : Fetch) (b : Bool) : List (Nat × Byte) := if b then f.b else f.a

/-- A fetch whose operand has these bytes. -/
def Fetch.take (f : Fetch) (b : Bool) (bs : List (Nat × Byte)) : Fetch :=
  if b then { f with b := bs, gotB := true } else { f with a := bs, gotA := true }

/-- Whether MSEL selects operand A or B. -/
def MatCmd.selects (c : MatCmd) (b : Bool) : Bool := c.msel.getLsbD b.toNat

/-- Whether a command's multicast fetch of a selected operand is not decided yet (R184). -/
def MatCmd.waitsMerge (c : MatCmd) : Bool := c.fetch.any fun f => [false, true].any fun b => c.selects b && !f.got b

/-- The inner positions step n of a product reads (07 R174, R180). -/
def MatCmd.positions (c : MatCmd) : List Nat :=
  if c.classical then
    let w := if c.quantised then c.g else 8
    (List.range w).map fun t => w * c.step + t
  else (List.range 8).flatMap fun t => [8 * c.step + t, c.k / 2 + 8 * c.step + t]

/-- Where the record of (g, j) lies. -/
def MatCmd.recordAddr (c : MatCmd) (d : QDesc) (g j : Nat) : Nat :=
  engineAddr c.pages ((shiftAddr d.base ((g * d.pitch + 4 * j : Nat) : Int)).getD d.base)

/-- The groups that a product's step needs and whose records the engine has not read yet. -/
def MatCmd.newGroups (c : MatCmd) : List Nat :=
  if c.desc.isNone then []
  else ((c.positions.map fun k => k / c.g).eraseDups).filter fun g => !c.groups.any fun e => e.1 == g

/-- A command with the records of its step's groups: each record is read once (R169, 01 R12). -/
def State.readGroups (s : State) (p : Option Nat) (c : MatCmd) : MatCmd :=
  match c.desc with
  | none => c
  | some d => { c with groups := c.groups ++ c.newGroups.map fun g =>
      (g, (List.range 64).map fun j => s.engineLoad p (c.recordAddr d g j) 4) }

/-- What a command's multicast fetch read of an operand; nothing where no merge gave it. -/
def MatCmd.merged (c : MatCmd) (b : Bool) : List (Nat × Byte) :=
  match c.fetch with
  | some f => if f.got b then f.data b else []
  | none => []

/-- Memory with some bytes as a fetch read them. -/
def State.overlay (s : State) (bs : List (Nat × Byte)) : State := bs.foldl (fun t b => t.write b.1 1 b.2.toNat) s

/-- Operand access of a command: a merged fetch gives what it read (R184), and the group records are those the command holds. -/
def State.matOps (s : State) (p : Option Nat) (c : MatCmd) : MatOps where
  a := fun m k => (s.overlay (c.merged false)).matRaw p c.pages c.a (m * c.pa) c.tyA.width k
  b := fun k j => (s.overlay (c.merged true)).matRaw p c.pages c.b (k * c.pb) c.tyB.width j
  grp := fun g j => (lookup [] g c.groups).getD j 0

/-! ## Classical order (R175, R180) -/

/-- Element i of a slot, as a pattern. -/
def Slot.pattern (x : Slot) (i : Nat) : Nat := (x.elems.getD i 0).toNat

/-- Rewrite all elements of a slot, with the union of the flags raised. -/
def Slot.remake (x : Slot) (f : Nat → Nat × Flags) : Slot × Flags :=
  let rs := (List.range 4096).map f
  ({ x with elems := (rs.map fun r => BitVec.ofNat 64 r.1).toArray }, unionFlags (rs.map (·.2)))

/-- Whether an element of a kind is an infinity or a NaN. -/
def AccKind.nonFinite (k : AccKind) (x : Nat) : Bool :=
  match k with
  | .ax36 => (Fmt.ax36.decode x).isInf || (Fmt.ax36.decode x).isNan
  | .f64 => (Fmt.f64.decode x).isInf || (Fmt.f64.decode x).isNan
  | .i48 => false

/-- Set NF by the elements, and the sticky bits by raised flags (Table 7.9). -/
def Slot.mark (x : Slot) (f : Flags) (sx : Bool) : Slot :=
  { x with
    nv := x.nv || f &&& fNV != 0
    nx := x.nx || f &&& fNX != 0
    sx := x.sx || sx
    nf := x.elems.any fun e => x.kind.nonFinite e.toNat }

/-- The eight products of run n at (i, j). -/
def MatCmd.run8 (c : MatCmd) (o : MatOps) (n i j : Nat) : List (FVal × FVal) :=
  (List.range 8).map fun t => (c.tyA.fval (o.a i (8 * n + t)), c.tyB.fval (o.b (8 * n + t) j))

/-- The scale of a record; −0 is +0 (03 R65). -/
def GroupRecord.value (g : GroupRecord) : FVal := if g.scale.isZero then .fin false 0 0 else g.scale

/-- One group of a classical TMMAQ at (i, j) (R180). -/
def MatCmd.group (c : MatCmd) (o : MatOps) (g i j acc : Nat) : Nat × Flags :=
  let q4 := (c.desc.map (·.q4)).getD false
  let r := groupRecord q4 (o.grp g j)
  if r.skip then (acc, 0)
  else
    let xs := (List.range c.g).map fun t =>
      (c.tyA.fval (o.a i (c.g * g + t)), FVal.ofInt ((o.b (c.g * g + t) j : Int) - r.zp))
    let d := roundOdd .ax36 (dotExact .rod xs [])
    let st := roundOdd .ax36 (dotExact .rod [(r.value, Fmt.ax36.decode d.1)] [])
    let a := axAdd acc st.1
    (a.1, d.2 ||| st.2 ||| a.2)

/-- A step of a floating product in classical order writes the slot. -/
def MatCmd.classicalStep (c : MatCmd) (o : MatOps) (x : Slot) : Slot :=
  let r := x.remake fun e =>
    let i := e / 64
    let j := e % 64
    if c.quantised then c.group o c.step i j (x.pattern e)
    else if c.kind = .f64 then f64Run (x.pattern e) (c.run8 o c.step i j)
    else axRun (x.pattern e) (c.run8 o c.step i j)
  r.1.mark (slotFlags r.2) false

/-- A step of an integer product in classical order: the exact contribution so far (R175). -/
def MatCmd.integerStep (c : MatCmd) (o : MatOps) : Array Int :=
  ((List.range 4096).map fun e =>
    (List.range 8).foldl (fun z t =>
      z + c.tyA.ival (o.a (e / 64) (8 * c.step + t)) * c.tyB.ival (o.b (8 * c.step + t) (e % 64))) (c.parts.getD e 0)).toArray

/-! ## Recombined order (R176 to R178) -/

/-- One factor of a block product: a quadrant (row half, column half), and a second one added or subtracted. -/
structure Factor where
  r : Nat
  c : Nat
  more : Option (Bool × Nat × Nat)

/-- The left factors of M1 to M7. -/
def leftFactor : Nat → Factor
  | 0 => { r := 0, c := 0, more := some (false, 1, 1) }
  | 1 => { r := 1, c := 0, more := some (false, 1, 1) }
  | 2 => { r := 0, c := 0, more := none }
  | 3 => { r := 1, c := 1, more := none }
  | 4 => { r := 0, c := 0, more := some (false, 0, 1) }
  | 5 => { r := 1, c := 0, more := some (true, 0, 0) }
  | _ => { r := 0, c := 1, more := some (true, 1, 1) }

/-- The right factors of M1 to M7. -/
def rightFactor : Nat → Factor
  | 0 => { r := 0, c := 0, more := some (false, 1, 1) }
  | 1 => { r := 0, c := 0, more := none }
  | 2 => { r := 0, c := 1, more := some (true, 1, 1) }
  | 3 => { r := 1, c := 0, more := some (true, 0, 0) }
  | 4 => { r := 1, c := 1, more := none }
  | 5 => { r := 0, c := 0, more := some (false, 0, 1) }
  | _ => { r := 1, c := 0, more := some (false, 1, 1) }

/-- An element of a factor over floating values: a pre-sum is rounded to odd into PA24 (Table 7.7). -/
def Factor.fval (f : Factor) (v : Nat → Nat → FVal) (hr hc i j : Nat) : FVal × Flags :=
  let x := v (f.r * hr + i) (f.c * hc + j)
  match f.more with
  | none => (x, 0)
  | some (neg, r, c) =>
    let y := v (r * hr + i) (c * hc + j)
    let p := roundOdd .pa24 (dotExact .rod [] [x, if neg then y.negate else y])
    (Fmt.pa24.decode p.1, p.2)

/-- An element of a factor over integers. -/
def Factor.ival (f : Factor) (v : Nat → Nat → Int) (hr hc i j : Nat) : Int :=
  let x := v (f.r * hr + i) (f.c * hc + j)
  match f.more with
  | none => x
  | some (neg, r, c) => if neg then x - v (r * hr + i) (c * hc + j) else x + v (r * hr + i) (c * hc + j)

/-- B(k, j) of a TMMAQ in recombined order: s · (q − z) rounded to odd into PA24, or +0 (R180). -/
def MatCmd.dequantised (c : MatCmd) (o : MatOps) (k j : Nat) : FVal × Flags :=
  let q4 := (c.desc.map (·.q4)).getD false
  let r := groupRecord q4 (o.grp (k / c.g) j)
  let p := roundOdd .pa24 (quantValue r (o.b k j)).exact
  (Fmt.pa24.decode p.1, p.2)

/-- B(k, j) as a floating value, with the flags of its own rounding. -/
def MatCmd.bVal (c : MatCmd) (o : MatOps) (k j : Nat) : FVal × Flags :=
  if c.quantised then c.dequantised o k j else (c.tyB.fval (o.b k j), 0)

/-- The flags of the roundings of the B elements a factor uses. -/
def MatCmd.bFlags (c : MatCmd) (o : MatOps) (f : Factor) (h i j : Nat) : Flags :=
  (c.bVal o (f.r * h + i) (f.c * 32 + j)).2 |||
    match f.more with
    | some (_, r, k) => (c.bVal o (r * h + i) (k * 32 + j)).2
    | none => 0

/-- Step n of the block products over floating values: each product element and the flags raised. -/
def MatCmd.blockStep (c : MatCmd) (o : MatOps) : Array Int × Flags :=
  let h := c.k / 2
  let rs := (List.range 7168).map fun e =>
    let i := e / 1024
    let r := e / 32 % 32
    let j := e % 32
    let terms := (List.range 8).map fun t =>
      let k := 8 * c.step + t
      let x := (leftFactor i).fval (fun m k => c.tyA.fval (o.a m k)) 32 h r k
      let y := (rightFactor i).fval (fun k j => (c.bVal o k j).1) h 32 k j
      ((x.1, y.1), x.2 ||| y.2 ||| c.bFlags o (rightFactor i) h k j)
    let a := axRun (c.parts.getD e 0).toNat (terms.map (·.1))
    ((a.1 : Int), a.2 ||| unionFlags (terms.map (·.2)))
  ((rs.map (·.1)).toArray, unionFlags (rs.map (·.2)))

/-- Step n of the block products over integers, exact. -/
def MatCmd.blockStepInt (c : MatCmd) (o : MatOps) : Array Int :=
  let h := c.k / 2
  ((List.range 7168).map fun e =>
    let i := e / 1024
    let r := e / 32 % 32
    let j := e % 32
    (List.range 8).foldl (fun z t =>
      let k := 8 * c.step + t
      z + (leftFactor i).ival (fun m k => c.tyA.ival (o.a m k)) 32 h r k *
        (rightFactor i).ival (fun k j => c.tyB.ival (o.b k j)) h 32 k j) (c.parts.getD e 0)).toArray

/-- The post-additions of a quadrant, in order: the first product, then (subtract, product) (R176). -/
def postOrder : Nat → Nat × List (Bool × Nat)
  | 0 => (0, [(false, 3), (true, 4), (false, 6)])
  | 1 => (2, [(false, 4)])
  | 2 => (1, [(false, 3)])
  | _ => (0, [(true, 1), (false, 2), (false, 5)])

/-- The quadrant, and the place in it, of element (i, j) of the slot. -/
def quadrantOf (e : Nat) : Nat × Nat := (e / 2048 * 2 + e % 64 / 32, e / 64 % 32 * 32 + e % 32)

/-- What the completed block products add at an element, floating (R176, R177). -/
def MatCmd.postFloat (c : MatCmd) (e : Nat) : Nat × Flags :=
  let (q, at_) := quadrantOf e
  let m (i : Nat) : Nat := (c.parts.getD (1024 * i + at_) 0).toNat
  (postOrder q).2.foldl (fun x y => let r := axPost y.1 x.1 (m y.2); (r.1, x.2 ||| r.2)) (m (postOrder q).1, 0)

/-- What the completed block products add at an element, exact. -/
def MatCmd.postInt (c : MatCmd) (e : Nat) : Int :=
  let (q, at_) := quadrantOf e
  let m (i : Nat) : Int := c.parts.getD (1024 * i + at_) 0
  (postOrder q).2.foldl (fun x y => if y.1 then x - m y.2 else x + m y.2) (m (postOrder q).1)

/-! ## What completion writes -/

/-- The slot after integer contributions are added with clamping (03 R83). -/
def Slot.addInt (x : Slot) (z : Nat → Int) : Slot :=
  let rs := (List.range 4096).map fun e => clamp48 ((x.elems.getD e 0).toInt + z e)
  ({ x with elems := (rs.map fun r => BitVec.ofInt 64 r.1).toArray } : Slot).mark 0 (rs.any (·.2))

/-- The slot after a recombined floating product is added (R176). -/
def Slot.addBlocks (x : Slot) (c : MatCmd) : Slot :=
  let r := x.remake fun e =>
    let y := c.postFloat e
    let a := axAdd (x.pattern e) y.1
    (a.1, y.2 ||| a.2)
  r.1.mark (slotFlags (r.2 ||| c.flags)) false

/-- The slot after the completion of a product. -/
def MatCmd.complete (c : MatCmd) (x : Slot) : Slot :=
  if c.kind = .i48 then x.addInt (if c.classical then fun e => c.parts.getD e 0 else c.postInt)
  else if c.classical then x else x.addBlocks c

/-! ## Rows: TLOAD, TSTORE, TDRAIN (R172, R185) -/

/-- An element of a data type loaded into a slot kind (R172). -/
def loadInto (md : Nat) (k : AccKind) (x : Nat) : Word :=
  match slotType md with
  | none => BitVec.ofInt 64 (IntTy.val { signed := true, w := 32 } x)
  | some f =>
    let dst : Fmt := if k = .f64 then .f64 else .ax36
    BitVec.ofNat 64 ((f.decode x).exact.canon.narrow dst .rne .final).1

/-- An element of a slot converted to a data type, with its flags (R185). -/
def drainElem (md : Nat) (sat : Bool) (k : AccKind) (x : Word) : Nat × Flags :=
  match k, slotType md with
  | .i48, _ =>
    let t : IntTy := { signed := true, w := 32 }
    (t.wrap (t.sat x.toInt), if t.sat x.toInt = x.toInt then 0 else fSX)
  | _, none => (0, 0)
  | _, some f =>
    let src : Fmt := if k = .f64 then .f64 else .ax36
    if src = f then (x.toNat, 0) else (src.decode x.toNat).exact.canon.narrow f .rne (if sat then .saturate else .final)

/-- Row m of a slot converted. -/
def Slot.drainRow (x : Slot) (md : Nat) (sat : Bool) (m : Nat) : List Nat × Flags :=
  let rs := (List.range 64).map fun j => drainElem md sat x.kind (x.elems.getD (64 * m + j) 0)
  (rs.map (·.1), unionFlags (rs.map (·.2)))

/-- The sticky flags a drain raises (R185). -/
def Slot.sticky (x : Slot) : Flags := (if x.nv then fNV else 0) ||| (if x.nx then fNX else 0) ||| (if x.sx then fSX else 0)

/-- Replace row m of a slot. -/
def Slot.setRow (x : Slot) (m : Nat) (row : List Word) : Slot :=
  { x with elems := ((List.range 4096).map fun e => if e / 64 = m then row.getD (e % 64) 0 else x.elems.getD e 0).toArray }

/-- A slot of a kind with every element zero and status 0 (R171). -/
def Slot.zeroed (owner : Option CtxId) (k : AccKind) : Slot := { Slot.reset with owner := owner, kind := k }

/-! ## Rows in memory (R172, R186) -/

/-- The address of element j of row m of a TLOAD or TSTORE. -/
def MatCmd.rowAddr (c : MatCmd) (m j : Nat) : Nat :=
  engineAddr c.pages
    ((shiftAddr c.a ((m * bits c.b.toNat 31 0 + j * slotBytes c.mode.toNat : Nat) : Int)).getD c.a)

/-- The byte ranges a command writes: the rows of a TSTORE. -/
def MatCmd.writes (c : MatCmd) : List (Nat × Nat) :=
  if c.fn = 8 then (List.range 64).map fun m => (c.rowAddr m 0, 64 * slotBytes c.mode.toNat) else []

end Sys2Proof.Machine
end

