-- ==== Sys2Proof/Machine/Mat.lean ====
section
/-! DEFINITION. Matrix instructions: queries, and the acceptance of commands (07 R163 to R188, 14 R314). -/

namespace Sys2Proof.Machine

/-! ## Fields of E1 (07 Table 7.3) -/

/-- SAT. -/
def XForm.matSat (x : XForm) : Bool := x.e1.getLsbD 16
/-- MSEL. -/
def XForm.matSel (x : XForm) : BitVec 2 := x.e1.extractLsb' 14 2
/-- MCAST. -/
def XForm.matCast (x : XForm) : BitVec 4 := x.e1.extractLsb' 10 4
/-- CL. -/
def XForm.matCl (x : XForm) : Bool := x.e1.getLsbD 9
/-- ACC. -/
def XForm.matAcc (x : XForm) : Fin 16 := ⟨bits x.e1.toNat 8 5, Nat.mod_lt _ (by decide)⟩
/-- C. -/
def XForm.c (x : XForm) : Reg := x.e1.extractLsb' 0 5

/-! ## The engine as its contexts see it -/

/-- The number of a matrix context, and of a copy context: 11 times the core index plus the context number (17 Table 17.4). -/
def matIndex (c : CtxId) : Nat := 11 * coreIndex c.core + c.num.val

/-- How far a context of a hive lies behind the one that a round-robin pointer names, cyclically over the 363 numbers (07 R166, 11
R252). -/
def engineBehind (turn : Nat) (c : CtxId) : Nat := (matIndex c + 363 - turn % 363) % 363

/-- A matrix context. -/
def State.mat (s : State) (c : CtxId) : MatCtx := lookup MatCtx.reset c (s.hive (coreHive c.core)).mats

/-- Replace a matrix context. -/
def State.setMat (s : State) (c : CtxId) (x : MatCtx) : State :=
  let h := s.hive (coreHive c.core)
  s.setHive (coreHive c.core) { h with mats := store c x h.mats }

/-- A slot of a hive. -/
def State.slot (s : State) (h : HiveId) (n : Fin 16) : Slot := (s.hive h).slots[n]

/-- Replace a slot. -/
def State.setSlot (s : State) (h : HiveId) (n : Fin 16) (x : Slot) : State :=
  let e := s.hive h
  s.setHive h { e with slots := e.slots.set n x }

/-- Deliver a fault that stopped the matrix timeline: the trap advances the timeline to the last accepted number and
discards the queue (R188). A double trap is no trap taken (04 R117). -/
def State.deliverMat (s : State) : Run Unit :=
  match s.me.matTl.fault with
  | none => .ok ()
  | some t =>
    if s.me.tinh then .error (.trap t s)
    else
      let m := s.me
      let u := s.setMe { m with matTl := { m.matTl with value := m.matTl.last, fault := none } }
      .error (.trap t (u.setMat s.cur { u.mat s.cur with queue := [] }))

/-- Whether the acting context owns a slot as all earlier accepted commands leave it (R164). -/
def State.ownsSlot (s : State) (n : Fin 16) : Bool :=
  (s.slot s.myHive n).owner == some s.cur && (s.mat s.cur).queue.all fun c => !(c.fn == 1 && c.acc == n)

/-- Commands accepted and not started (Table 7.1). -/
def MatCtx.waiting (x : MatCtx) : Nat := (x.queue.filter fun c => c.step == 0).length

/-- A 64-bit register pair of an operand: base (absolute, and as the program gave it) and pitch, checked as rows of a length in
bytes, `rows` of them. -/
structure MatOperand where
  acc : Acc
  base : Word
  shown : Word
  pitch : Nat
  rows : Nat
  len : Nat
  deriving DecidableEq, Repr

/-- The accesses of an operand, 8 bytes at a time and the rest of a row at once. -/
def MatOperand.accesses (o : MatOperand) : List RecAccess :=
  (List.range o.rows).flatMap fun r =>
    (List.range ((o.len + 7) / 8)).map fun j =>
      { acc := o.acc, base := o.base, shown := o.shown, delta := ((r * o.pitch + 8 * j : Nat) : Int) }

/-- Steps 2 to 4 of 09 R209 for an access of the engine: local memory must lie on the engine's die (R167). -/
def State.denyMat (s : State) (x : RecAccess) : Option Deny :=
  match x.addr with
  | none => some (.cause .access)
  | some a =>
    match s.place s.cur.core a.toNat with
    | .ok (.here b) => if bits b 63 60 = 8 && (localCore b).die ≠ s.cur.core.die then some (.cause .access) else none
    | .ok (.global _) => s.denyPermission s.cur.core s.me.sup x
    | .error d => some d

/-- The denied access with the least address (R165: each byte in increasing address order). -/
def State.worst (s : State) (xs : List RecAccess) : Option (Deny × Word) :=
  (leastBy (fun e : Deny × Word => e.2.toNat) (xs.filterMap fun x => (s.denyMat x).map fun d => (d, x.tval)))
where
  /-- The element with the least key, the first of equals. -/
  leastBy (key : Deny × Word → Nat) : List (Deny × Word) → Option (Deny × Word)
    | [] => none
    | x :: xs =>
      match leastBy key xs with
      | none => some x
      | some y => if key x ≤ key y then some x else some y

/-- Check the operands in order: MISALIGNED for a base or pitch, then each byte (R165, R167). -/
def State.checkMat (s : State) : List MatOperand → Run (List (Nat × Nat))
  | [] => .ok []
  | o :: os =>
    if o.base.toNat % 8 ≠ 0 || o.pitch % 8 ≠ 0 then trapAt s .misaligned o.shown
    else match s.worst o.accesses with
      | some (d, v) => .error (d.stop v s)
      | none => (s.checkMat os).map fun ps => addPages (s.pagesOf s.cur.core s.me.sup o.accesses) ps

/-- The window accesses of an acceptance: an absent window of the issuing core is touched first (11 R265). -/
def State.touchAll (s : State) : List RecAccess → Run Unit
  | [] => .ok ()
  | x :: xs => (s.touchAt x.target 8).bind fun _ => s.touchAll xs

/-- The descriptor of the latest earlier accepted TQDESC (14 R314). -/
def State.acceptedDesc (s : State) : Option QDesc :=
  ((s.mat s.cur).queue.foldl (fun d c => if c.fn = 6 then c.desc else d) (s.mat s.cur).desc)

/-- Slot checks of R164: reason 1, then reason 2. -/
def State.checkSlot (s : State) (n : Fin 16) (fits : AccKind → Bool) : Run Unit :=
  if !s.ownsSlot n then engineFault s n.val 1
  else if !fits (s.slot s.myHive n).kind then engineFault s n.val 2
  else .ok ()

/-- Append a command with the next number; S[D] receives it (R165). -/
def State.acceptMat (s : State) (d : Reg) (c : MatCmd) : State :=
  let m := s.me
  let n := m.matTl.last + 1
  let t := s.setMe ({ m with matTl := { m.matTl with last := n } }.setS d (BitVec.ofNat 64 n))
  let q := t.mat s.cur
  t.setMat s.cur { q with queue := q.queue ++ [{ c with seq := n }] }

/-- A command as its instruction gives it (06 R150): relative addresses turn absolute (R167); a handler entry, a pitch
and a handler's argument stay as they are. -/
def XForm.matCmd (x : XForm) (fn : Nat) (s : State) : MatCmd where
  seq := 0
  fn := fn
  mode := x.mod
  acc := XForm.matAcc x
  classical := XForm.matCl x
  sat := XForm.matSat x
  msel := XForm.matSel x
  mcast := XForm.matCast x
  k := bits x.e2.toNat 10 0
  zp := bits x.e2.toNat 18 11
  a := if fn = 7 then s.me.getS x.a else absForm s.cur.core (s.me.getS x.a)
  b := if fn = 4 ∨ fn = 5 then absForm s.cur.core (s.me.getS x.b) else s.me.getS x.b
  c := s.me.getS (XForm.c x)
  en := enables s.me.fctl
  desc := none
  pages := []
  step := 0
  parts := #[]
  flags := 0
  groups := []
  fetch := none
  handlers := []

/-- Accept a command (R165): its faults are delivered first (R188); it waits in the instruction while the queue is full;
the checks follow in order, and a first touch of a window it reads. -/
def matAccept (x : XForm) (i : Instr) (fn : Nat) (checks : MatCmd → Run (List MatOperand)) (s : State) :
    Host.Outcome State Fault Refusal :=
  finish 2
    (s.deliverMat.bind fun _ =>
      if decide (4 ≤ (s.mat s.cur).waiting) then .error (.hold (s.blockIn i none 0))
      else
        let c := { XForm.matCmd x fn s with desc := if fn = 5 then s.acceptedDesc else none }
        (checks c).bind fun os => (s.checkMat os).bind fun pages =>
          (s.touchAll (os.flatMap (·.accesses))).map fun _ => s.acceptMat x.d { c with pages := pages })

/-- A query waits until every earlier command of its context has completed (R165). -/
def matQuery (i : Instr) (f : State → State) (s : State) : Host.Outcome State Fault Refusal :=
  finish 2
    (s.deliverMat.bind fun _ =>
      if (s.mat s.cur).queue.isEmpty then .ok (f s) else .error (.hold (s.blockIn i none 0)))

/-! ## Meanings -/

/-- The kind of TALLOC (Table 7.2). -/
def tallocKind (md : BitVec 4) : AccKind :=
  match md.toNat with
  | 0 => .ax36 | 1 => .f64 | _ => .i48

/-- TALLOC (R171). -/
def execTalloc (x : XForm) (s : State) : Host.Outcome State Fault Refusal :=
  let n := XForm.matAcc x
  matQuery (.talloc x) (fun s =>
    let o := (s.slot s.myHive n).owner
    if o == none || o == some s.cur then
      (s.setSlot s.myHive n (Slot.zeroed (some s.cur) (tallocKind x.mod))).setMe (s.me.setS x.d 1)
    else s.setMe (s.me.setS x.d 0)) s

/-- TFREE (R171): it frees the slot when it executes. -/
def execTfree (x : XForm) (s : State) : Host.Outcome State Fault Refusal :=
  matAccept x (.tfree x) 1 (fun c => (s.checkSlot c.acc fun _ => true).map fun _ => []) s

/-- TZERO (R171). -/
def execTzero (x : XForm) (s : State) : Host.Outcome State Fault Refusal :=
  matAccept x (.tzero x) 2 (fun c => (s.checkSlot c.acc fun _ => true).map fun _ => []) s

/-- The rows of TLOAD and TSTORE: 64 of 64 elements, pitch S[B]<31:0>, the base given as `a`. -/
def MatCmd.rows (c : MatCmd) (acc : Acc) (a : Word) : MatOperand :=
  { acc := acc, base := c.a, shown := a, pitch := bits c.b.toNat 31 0, rows := 64, len := 64 * slotBytes c.mode.toNat }

/-- TLOAD (R172). -/
def execTload (x : XForm) (s : State) : Host.Outcome State Fault Refusal :=
  matAccept x (.tload x) 3 (fun c =>
    (s.checkSlot c.acc (mayLoad c.mode.toNat)).map fun _ => [c.rows .load (s.me.getS x.a)]) s

/-- The operands A and B of a product (R168), their bases given as `a` and `b`. -/
def MatCmd.factors (c : MatCmd) (a b : Word) : List MatOperand :=
  [{ acc := .load, base := c.a, shown := a, pitch := c.pa, rows := 64, len := c.k * c.tyA.width / 8 },
   { acc := .load, base := c.b, shown := b, pitch := c.pb, rows := c.k, len := 64 * c.tyB.width / 8 }]

/-- TMMA (R173). -/
def execTmma (x : XForm) (s : State) : Host.Outcome State Fault Refusal :=
  matAccept x (.tmma x) 4 (fun c => (s.checkSlot c.acc fun k => k == c.kind).map fun _ => c.factors (s.me.getS x.a) (s.me.getS x.b)) s

/-- The group records of a TMMAQ (R179, R180). -/
def MatCmd.records (c : MatCmd) : List MatOperand :=
  match c.desc with
  | some d => [{ acc := .load, base := d.base, shown := d.shown, pitch := d.pitch, rows := c.k / d.g, len := 256 }]
  | none => []

/-- Whether the group size divides K, or K/2 in recombined order (R180). -/
def MatCmd.groupsFit (c : MatCmd) : Bool :=
  match c.desc with
  | some d => (if c.classical then c.k else c.k / 2) % d.g == 0
  | none => false

/-- TMMAQ (R180). -/
def execTmmaq (x : XForm) (s : State) : Host.Outcome State Fault Refusal :=
  matAccept x (.tmmaq x) 5 (fun c =>
    (s.checkSlot c.acc fun k => k == .ax36).bind fun _ =>
      if c.groupsFit then .ok (c.factors (s.me.getS x.a) (s.me.getS x.b) ++ c.records) else engineFault s c.acc.val 3) s

/-- The descriptor TQDESC sets (R179): bases and pitches are checked where they are used. -/
def XForm.qdesc (x : XForm) (s : State) : QDesc where
  base := absForm s.cur.core (s.me.getS x.a)
  shown := s.me.getS x.a
  pitch := bits (s.me.getS x.b).toNat 31 0
  g := 32 * 2 ^ bits x.mod.toNat 1 0
  q4 := x.mod.getLsbD 2

/-- TQDESC (R179): a command that names no slot. -/
def execTqdesc (x : XForm) (s : State) : Host.Outcome State Fault Refusal :=
  finish 2
    (s.deliverMat.bind fun _ =>
      if decide (4 ≤ (s.mat s.cur).waiting) then .error (.hold (s.blockIn (.tqdesc x) none 0))
      else .ok (s.acceptMat x.d { XForm.matCmd x 6 s with desc := some (XForm.qdesc x s) }))

/-- TDRAIN (R186): the alignment of the handler entry is checked at acceptance. -/
def execTdrain (x : XForm) (s : State) : Host.Outcome State Fault Refusal :=
  let entry := s.me.getS x.a
  finish 2
    (s.deliverMat.bind fun _ =>
      if decide (4 ≤ (s.mat s.cur).waiting) then .error (.hold (s.blockIn (.tdrain x) none 0))
      else
        let c := XForm.matCmd x 7 s
        (s.checkSlot c.acc (mayDrain c.mode.toNat)).bind fun _ =>
          if entry.toNat % 4 ≠ 0 then trapAt s .misaligned entry else .ok (s.acceptMat x.d c))

/-- TSTORE (R186). -/
def execTstore (x : XForm) (s : State) : Host.Outcome State Fault Refusal :=
  matAccept x (.tstore x) 8 (fun c =>
    (s.checkSlot c.acc (mayDrain c.mode.toNat)).map fun _ => [c.rows .store (s.me.getS x.a)]) s

/-- TSTAT's result (Table 7.9). -/
def Slot.stat (x : Slot) (c : CtxId) : Word :=
  let owns := x.owner == some c
  let kind := match x.owner, x.kind with
    | none, _ => 3 | _, .ax36 => 0 | _, .f64 => 1 | _, .i48 => 2
  let low := x.nx.toNat + x.nf.toNat * 2 + x.nv.toNat * 4 + x.sx.toNat * 8 + x.fault.toNat * 16
  BitVec.ofNat 64 ((if owns then low else 0) + kind * 64 + (!owns && x.owner.isSome).toNat * 256 + owns.toNat * 512)

/-- TSTAT (R187). -/
def execTstat (x : XForm) (s : State) : Host.Outcome State Fault Refusal :=
  matQuery (.tstat x) (fun s => s.setMe (s.me.setS x.d ((s.slot s.myHive (XForm.matAcc x)).stat s.cur))) s

end Sys2Proof.Machine
end

