-- ==== Sys2Proof/Machine/System.lean ====
section
/-! DEFINITION. The SYS major: NOP, TRAP, ERET, MFS, MTS, TIME, CYCLE, BEAT (04 R110 to R113, R116), and the system
registers (04 Table 4.12). -/

namespace Sys2Proof.Machine

/-! ## System registers -/

/-- TCAUSE as read (04 Table 4.15). -/
def Context.tcause (m : Context) : Word :=
  BitVec.ofNat 64 (m.tcode.toNat + m.tlen.toNat * 2 ^ 26 + m.sup.toNat * 2 ^ 29 + m.tpm.toNat * 2 ^ 30 + m.tinh.toNat * 2 ^ 31)

/-- A write of TCAUSE; CM is read-only (04 Table 4.15). -/
def Context.setTcause (m : Context) (v : Word) : Context :=
  { m with tinh := v.getLsbD 31, tpm := v.getLsbD 30, tlen := v.extractLsb' 26 2, tcode := v.extractLsb' 0 6 }

/-- A write of WINn: every field, a written STATE of 10 stores 01, reserved bit 19 reads 0 (11 R263, Table 11.5). -/
def winWrite (v : Word) : Word :=
  let v := v &&& ~~~(0x80000#64)
  if bits v.toNat 63 62 = 2 then (v &&& 0x3fffffffffffffff#64) ||| 0x4000000000000000#64 else v

/-- A write of BGn: every field, reserved bits 0 (12 Table 12.1). -/
def bgWrite (v : Word) : Word := v &&& ~~~(0x3fffc0000000#64)

/-- A write of GSHARE as M and K; M = 0 or K > M stores K = 1 and M = 2 (06 R153). -/
def gshareWrite (v : Word) : Nat × Nat :=
  let m := bits v.toNat 15 8
  let k := bits v.toNat 7 0
  if m = 0 ∨ m < k then (2, 1) else (m, k)

/-- The value of a system register (04 Table 4.12), by number. -/
def State.sysRead (s : State) (n : Nat) : Word :=
  let m := s.me
  let k := s.myCore
  if n = 0 then m.fctl
  else if n = 1 then BitVec.ofNat 64 (coreIdBits s.cur)
  else if n = 2 then m.lampcls.setWidth 64
  else if n = 8 then m.tvec
  else if n = 9 then m.tcause
  else if n = 10 then m.tpc
  else if n = 11 then m.tval
  else if n = 12 then m.tscr
  else if n = 16 then k.hbint.setWidth 64
  else if n = 17 then
    let h := s.hive s.myHive
    BitVec.ofNat 64 (h.gshareM * 256 + h.gshareK)
  else if n = 24 then m.rasp
  else if n = 25 then m.rasl
  else if n = 26 then m.rasn.setWidth 64
  else if n = 32 then k.ovfring
  else if n / 8 = 5 then (k.wins[n % 8]'(Nat.mod_lt _ (by decide))).word
  else if n / 4 = 12 then m.dist[n % 4]'(Nat.mod_lt _ (by decide))
  else if s.cur.core.big then 0
  else (k.bgs[n % 4]'(Nat.mod_lt _ (by decide))).word

/-- Write a system register (04 Table 4.12, R111); reserved bits are dropped (00 R7). A GSHARE write goes on its way to
the big core (06 R153). A big core has no barrier registers (12 R271). -/
def State.sysWrite (s : State) (n : Nat) (v : Word) : State :=
  let m := s.me
  let k := s.myCore
  if n = 0 then s.setMe { m with fctl := fctlWrite v }
  else if n = 8 then s.setMe { m with tvec := v &&& ~~~(3#64) }
  else if n = 9 then s.setMe (m.setTcause v)
  else if n = 10 then s.setMe { m with tpc := v }
  else if n = 11 then s.setMe { m with tval := v }
  else if n = 12 then s.setMe { m with tscr := v }
  else if n = 16 then s.setMyCore { k with hbint := v.setWidth 32 }
  else if n = 17 then
    let h := s.hive s.myHive
    s.setHive s.myHive { h with gshareNext := h.gshareNext ++ [((gshareWrite v).1, (gshareWrite v).2, s.dieCycle)] }
  else if n = 24 then s.setMe { m with rasp := v &&& ~~~(7#64) }
  else if n = 25 then s.setMe { m with rasl := v &&& ~~~(7#64) }
  else if n = 26 then s.setMe { m with rasn := v.setWidth 32 }
  else if n = 32 then s.setMyCore { k with ovfring := v &&& 0xfdffffffffffffe0#64 }
  else if n / 8 = 5 then
    let w := k.wins[n % 8]'(Nat.mod_lt _ (by decide))
    s.setMyCore { k with wins := k.wins.set (n % 8) { w with word := winWrite v } (Nat.mod_lt _ (by decide)) }
  else if n / 4 = 12 then
    s.setMe { m with dist := m.dist.set (n % 4) (v &&& 0x7ffffffffffff#64) (Nat.mod_lt _ (by decide)) }
  else if s.cur.core.big then s
  else
    let b := k.bgs[n % 4]'(Nat.mod_lt _ (by decide))
    s.setMyCore { k with bgs := k.bgs.set (n % 4) { b with word := bgWrite v } (Nat.mod_lt _ (by decide)) }

/-- Registers whose MFS is "—" for user mode (04 Table 4.12). -/
def supOnlyRead (n : Nat) : Bool := decide (8 ≤ n) && decide (n ≤ 12)

/-- Registers whose MTS raises PRIVILEGED in user mode (04 R111). -/
def supOnlyWrite (n : Nat) : Bool :=
  supOnlyRead n || n == 16 || n == 17 || n == 32 || n / 8 == 5 || n / 4 == 14

/-! ## Meanings -/

/-- NOP, base form (04 Table 4.11). -/
def execNop (s : State) : Host.Outcome State Fault Refusal := finish 0 (.ok s)

/-- NOP, extended form (04 Table 4.11). -/
def execNopX (s : State) : Host.Outcome State Fault Refusal := finish 2 (.ok s)

/-- TRAP (04 R110): Trap(BREAK, code), the code being MOD:B in base form and E2 in extended form. -/
def execTrap (x : RForm) (s : State) : Host.Outcome State Fault Refusal :=
  finish x.form.len
    (trapAt s .breakTrap (if x.form.isExt then x.form.e2.setWidth 64 else BitVec.ofNat 64 x.sysReg))

/-- ERET (04 R116): PRIVILEGED in user mode; MISALIGNED when TPC<1:0> is not 00. -/
def returnFrom (len : BitVec 2) (i : Instr) (s : State) : Host.Outcome State Fault Refusal :=
  settle len
    (if !s.me.sup then privileged s i
     else if s.me.tpc.toNat % 4 ≠ 0 then trapAt s .misaligned s.me.tpc
     else .ok (s.setMe s.me.leaveTrap))

/-- ERET, base form. -/
def execEret (s : State) : Host.Outcome State Fault Refusal := returnFrom 0 .eret s

/-- ERET, extended form. -/
def execEretX (s : State) : Host.Outcome State Fault Refusal := returnFrom 2 .eretX s

/-- MFS (04 R110, R111). FCTL waits until every earlier instruction has merged its flags (06 R158). -/
def execMfs (x : RForm) (s : State) : Host.Outcome State Fault Refusal :=
  finish x.form.len
    (if !s.me.sup && supOnlyRead x.sysReg then privileged s (.mfs x)
     else if x.sysReg = 0 && !s.me.flagQueue.isEmpty then .error (.hold s)
     else .ok (s.setMe (s.me.setS x.d (s.sysRead x.sysReg))))

/-- MTS (04 R110, R111). -/
def execMts (x : RForm) (s : State) : Host.Outcome State Fault Refusal :=
  finish x.form.len
    (if !s.me.sup && supOnlyWrite x.sysReg then privileged s (.mts x)
     else if x.sysReg = 0 && !s.me.flagQueue.isEmpty then .error (.hold s)
     else .ok (s.sysWrite x.sysReg (s.me.getS x.a)))

/-- TIME (04 R112): the reference count. -/
def execTime (x : RForm) (s : State) : Host.Outcome State Fault Refusal :=
  finish x.form.len (.ok (s.setMe (s.me.setS x.d (BitVec.ofNat 64 s.refCount))))

/-- CYCLE (04 R112): the core's cycle count. -/
def execCycle (x : RForm) (s : State) : Host.Outcome State Fault Refusal :=
  finish x.form.len (.ok (s.setMe (s.me.setS x.d (BitVec.ofNat 64 s.myCore.cycles))))

/-- BEAT (04 R113): the core's heartbeat timer is 0. -/
def beat (len : BitVec 2) (s : State) : Host.Outcome State Fault Refusal :=
  finish len (.ok (s.setMyCore { s.myCore with hbTimer := 0 }))

/-- BEAT, base form. -/
def execBeat (s : State) : Host.Outcome State Fault Refusal := beat 0 s

/-- BEAT, extended form. -/
def execBeatX (s : State) : Host.Outcome State Fault Refusal := beat 2 s

/-- ILLEGAL_ENCODING (02 R44, R45): a word that decodes to no instruction raises ILLEGAL with the words as TVAL. -/
def execIllegalEncoding (w : IWord) (len : BitVec 2) (s : State) : Host.Outcome State Fault Refusal :=
  .next (takeTrap { cause := .illegal, tval := w.setWidth 64 } len s)

/-- INSTRUCTION_FETCH_FAULT (02 R30): a word at `addr` cannot be fetched. -/
def execInstructionFetchFault (access : Bool) (addr : Word) (s : State) : Host.Outcome State Fault Refusal :=
  .next (takeTrap { cause := if access then .access else .pageFault, tval := addr } 0 s)

end Sys2Proof.Machine
end

