-- ==== Sys2Proof/Machine/Regs.lean ====
section
/-! DEFINITION. The registers an instruction reads and writes, registers pending a landing (06 R155), and faulty registers
(20 R385). -/

namespace Sys2Proof.Machine

/-! ## Operands by instruction -/

/-- The predicate a number of a format V field names. -/
def predReg (r : Reg) : Dest := .p (r.setWidth 3)

/-- Operand B of format R or V as a source: none where a literal stands in for it (02 R42). -/
def srcB (f : Form) (d : Dest) : List Dest := if f.literal?.isSome then [] else [d]

/-- A register and, for 16 bytes, the next one. -/
def pairFrom (sz : BitVec 3) (r : Reg) : List Dest := if sz = 4 then [.s r, .s (r + 1)] else [.s r]

/-- The sources of a format R instruction: A, B and E1.C. -/
def srcR (x : RForm) : List Dest := .s x.a :: (srcB x.form (.s x.b) ++ [.s x.form.c])

/-- V[A] and V[B] or the literal. -/
def srcV (x : VForm) : List Dest := .v x.a :: srcB x.form (.v x.b)

/-- S[A] and S[B] or the literal. -/
def srcS (x : VForm) : List Dest := .s x.a :: srcB x.form (.s x.b)

/-- The source registers of an instruction, its mask and kept destination apart. Of the atomics CAS and CAS2 alone read N (09 R219,
R220). -/
def sources (i : Instr) : List Dest :=
  match i with
  -- register fields that name no source
  | .trap _ | .mfs _ | .time _ | .cycle _ | .myid _ => []
  | .mts x => [.s x.a]
  | .bfi x => .s x.d :: srcR x
  -- memory
  | .st x => [.s x.a, .s x.d]
  | .stp x => [.s x.a, .s x.d, .s (x.d + 1)]
  | .vst x => [.s x.a, .v x.d]
  | .vlds x => [.s x.a, .s x.b]
  | .vsts x => [.s x.a, .s x.b, .v x.d]
  | .vldx x => [.s x.a, .v x.b]
  | .vstx x => [.s x.a, .v x.b, .v x.d]
  | .vldb x | .vldbWeak x => [.s x.a]
  -- control
  | .bp x => [predReg x.a]
  | .call _ => []
  -- VINTI and the one-source vector forms
  | .vabs x | .vaddi x | .vsubi x | .vmuli x | .vandi x | .vori x | .vxori x | .vslli x | .vsrli x | .vsrai x | .vmini x
  | .vmaxi x | .vcmpi x | .vred x | .vscan x | .vcmprs x | .vexpnd x
  | .fpvFsqrt x | .fpvFabs x | .fpvFneg x | .fpvFclass x | .fpvFrnd x | .fcvtVector x => [.v x.a]
  | .vmadd x => srcV x ++ [.v x.form.c]
  | .vbcast x => srcB x.form (.s x.b)
  | .vins x => [.s x.a, .v x.d] ++ srcB x.form (.s x.b)
  | .vext x | .vslide x | .freds x | .qdeq x | .qquant x => .v x.a :: srcB x.form (.s x.b)
  | .viota _ => []
  | .plog x => [predReg x.a, predReg x.b]
  | .ppopc x | .pfirst x => [predReg x.a]
  | .pset x => srcB x.form (.s x.b)
  -- floating point
  | .fpsFsqrt x | .fpsFabs x | .fpsFneg x | .fpsFclass x | .fpsFrnd x | .fcvtScalar x | .scvt x => [.s x.a]
  | .fpsFadd x | .fpsFsub x | .fpsFmul x | .fpsFdiv x | .fpsFmin x | .fpsFmax x | .fpsFminm x | .fpsFmaxm x | .fpsFsgnj x
  | .fpsFcmp x => srcS x
  | .ffmaVector x | .ffmsVector x | .fnfmaVector x | .fnfmsVector x | .fdot2 x => srcV x ++ [.v (VForm.addend x)]
  | .ffmaScalar x | .ffmsScalar x | .fnfmaScalar x | .fnfmsScalar x => srcS x ++ [.s (VForm.addend x)]
  | .fexp2 sc x | .fexp sc x | .flog2 sc x | .fsin sc x | .fcos sc x | .ftanh sc x | .frsq sc x | .frcp sc x =>
    if sc then [.s x.a] else [.v x.a]
  -- matrix
  | .talloc _ | .tfree _ | .tzero _ | .tstat _ => []
  | .tload x | .tqdesc x | .tdrain x | .tstore x => [.s x.a, .s x.b]
  | .tmma x | .tmmaq x => [.s x.a, .s x.b, .s (XForm.c x)]
  -- copies and windows
  | .copy x => [.v x.a, .v (x.a + 1)]
  | .winset x => [.v x.a, .v (x.a + 1), .s x.b]
  | .cseal _ | .cwait _ | .winadv _ | .winflush _ | .tlget _ => []
  -- barriers, tasks, messages
  | .bgset x | .bwait x | .xmit x | .taskget x | .rgpub x | .rgtake x | .rgdone x | .recv x | .rankOf x | .grpfree x =>
    [.s x.a]
  | .barr _ | .phase _ | .isel _ | .xrecv _ | .rgres _ | .rank _ | .rankN _ => []
  | .spawn x => [.v x.a]
  | .spawnat x => [.v x.a, .s x.b]
  | .send x => [.s x.a, .v x.b]
  | .coll x => [.v x.a, .s x.b, .s (XForm.c x)]
  | .grpjoin x => [.s x.a, .s x.b]
  | .start x => [.s x.a, .s x.b, .s (XForm.c x)]
  | .wait x => [.s x.a, .v x.b]
  -- the rest, by format
  | i =>
    match i.payload with
    | some (.r _ _ x) => srcR x
    | some (.i _ _ x) => [.s x.a]
    | some (.m _ x) => [.s x.a]
    | some (.b x) => [.s x.a, .s x.b]
    | some (.v _ _ x) => srcV x
    | some (.a op x) => .s x.a :: (pairFrom x.sz x.c ++ if op = 9 ∨ op = 41 then pairFrom x.sz x.n else [])
    | _ => []

/-- Registers an instruction writes. -/
def regsWritten (i : Instr) : List Dest :=
  match i with
  | .trap _ | .mts _ | .ji _ | .calli _ | .st _ | .stp _ | .fence _ | .fencesc | .fencescX | .fencescSys | .fencescSysX | .pref _ | .prefW _ | .cclean _ | .cflush _ | .cinv _
  | .vst _ | .vsts _ | .vstx _ => []
  | .ldp x => [.s x.d, .s (x.d + 1)]
  | .vld x => [.v x.d]
  | .vldb x | .vldbWeak x => [.v x.d, .v (x.d + 1), .v (x.d + 2), .v (x.d + 3)]
  | .vcmp x | .vcmpi x | .plog x | .pfirst x | .pset x | .fpvFcmp x => [predReg x.d]
  | .vext x | .vred x | .ppopc x | .freds x | .fcvtScalar x | .scvt x
  | .fpsFadd x | .fpsFsub x | .fpsFmul x | .fpsFdiv x | .fpsFsqrt x | .fpsFmin x | .fpsFmax x | .fpsFminm x | .fpsFmaxm x
  | .fpsFabs x | .fpsFneg x | .fpsFsgnj x | .fpsFcmp x | .fpsFclass x | .fpsFrnd x
  | .ffmaScalar x | .ffmsScalar x | .fnfmaScalar x | .fnfmsScalar x => [.s x.d]
  | .fexp2 sc x | .fexp sc x | .flog2 sc x | .fsin sc x | .fcos sc x | .ftanh sc x | .frsq sc x | .frcp sc x =>
    if sc then [.s x.d] else [.v x.d]
  | .bgset _ | .barr _ | .phase _ | .xmit _ | .isel _ | .spawn _ | .spawnat _ | .rgpub _ | .rgdone _ | .send _
  | .winset _ => []
  | .taskget x | .recv x => [.v x.d, .s (XForm.c x)]
  | .rgres x | .rgtake x => [.s x.d, .s (XForm.c x)]
  | i =>
    match i.payload with
    | some (.r _ _ x) => [.s x.d]
    | some (.i _ _ x) => [.s x.d]
    | some (.m _ x) => [.s x.d]
    | some (.v _ _ x) => [.v x.d]
    | some (.a _ x) => pairFrom x.sz x.d
    | some (.own _ _ x) => [.s x.d]
    | _ => []

/-! ## Masks -/

/-- The mask predicate an instruction reads (02 R37, R39). -/
def maskReg (i : Instr) : List Dest :=
  let ofForm (f : Form) : List Dest :=
    match f.e1? with
    | some x => [.p x.pred]
    | none => []
  match i.payload with
  | some (.r _ _ x) => ofForm x.form
  | some (.i _ _ x) => ofForm x.form
  | some (.m _ x) => ofForm x.form
  | some (.v _ _ x) => if x.form.isExt then ofForm x.form else [.p (x.pg.setWidth 3)]
  | _ => []

/-- How an instruction is masked: not at all, as a scalar by bit 0 of a mask (`zero` is Z = 1), or by lane (02 R37, R39, 05
R119). -/
inductive Masking where
  | whole
  | scalar (on : Context → Bool) (zero : Bool)
  | lanes (n : Nat) (mask : Context → Word) (kept : Bool)

/-- The masking of a format V instruction with n lanes whose inactive lanes keep their old value unless Z = 1. -/
def keptBy (x : VForm) (n : Nat) : Masking := .lanes n x.mask (!x.form.zeroes)

/-- The masking of a format V instruction with n lanes and no kept lanes. -/
def pickedBy (x : VForm) (n : Nat) : Masking := .lanes n x.mask false

/-- A scalar instruction of format R, I or M: in base form it is always active (02 R39). -/
def maskedBy (f : Form) : Masking := .scalar f.active f.zeroes

/-- A scalar instruction of format V: PG2 masks it in base form (02 R37, 05 R119). -/
def scalarBy (x : VForm) : Masking := .scalar (fun m => (x.mask m).getLsbD 0) x.form.zeroes

/-- The masking of an instruction. VSEL, PPOPC, PFIRST and FREDS write their destinations whatever their masks hold. -/
def masking (i : Instr) : Masking :=
  match i with
  | .vldb _ | .vldbWeak _ | .vsel _ | .vins _ | .vext _ | .ppopc _ | .pfirst _ | .pset _ | .freds _ | .ilvp _ | .ilvu _ => .whole
  | .vld x => .lanes (512 / (8 * 2 ^ x.sz.toNat)) (Form.laneMask x.form) (!x.form.zeroes)
  | .vst x => .lanes (512 / (8 * 2 ^ x.sz.toNat)) (Form.laneMask x.form) false
  | .vsts x | .vstx x | .vred x | .vcmprs x => pickedBy x (tyInt x.ty).lanes
  | .plog x => keptBy x 64
  | .fdot2 x => keptBy x 16
  | .fcvtVector x => keptBy x (VForm.conv x).lanes
  | .qdeq x => keptBy x (FpOp.dequant (x.ty.getLsbD 2) (quantFp x.ty)).lanes
  | .qquant x => keptBy x (FpOp.quant (x.ty.getLsbD 2) (quantFp x.ty)).lanes
  | .ffmaVector x | .ffmsVector x | .fnfmaVector x | .fnfmsVector x => keptBy x (512 / (tyFp x.ty).width)
  | .fexp2 sc x | .fexp sc x | .flog2 sc x | .fsin sc x | .fcos sc x | .ftanh sc x | .frsq sc x | .frcp sc x =>
    if sc then scalarBy x else keptBy x (512 / (tyFp x.ty).width)
  | i =>
    match i.payload with
    | some (.r _ _ x) => maskedBy x.form
    | some (.i _ _ x) => maskedBy x.form
    | some (.m _ x) => maskedBy x.form
    | some (.v major _ x) =>
      if major = 23 then keptBy x (512 / (tyFp x.ty).width)
      else if 22 ≤ major then scalarBy x
      else keptBy x (tyInt x.ty).lanes
    | _ => .whole

/-- Whether the masked instruction is active in some lane. -/
def Masking.active (k : Masking) (m : Context) : Bool :=
  match k with
  | .whole => true
  | .scalar on _ => on m
  | .lanes n mask _ => (List.range n).any fun j => (mask m).getLsbD j

/-- Whether some lane keeps its old value. -/
def Masking.keeps (k : Masking) (m : Context) : Bool :=
  match k with
  | .lanes n mask kept => kept && (List.range n).any fun j => !(mask m).getLsbD j
  | _ => false

/-- Whether the destination is written at all: an inactive scalar instruction writes it only under Z = 1. -/
def Masking.writes (k : Masking) (m : Context) : Bool :=
  match k with
  | .scalar on zero => on m || zero
  | _ => true

/-- The sources an instruction reads in a context: none where it, or every lane of it, is inactive (02 R37, R39: it reads no
operand that can fault). PPOPC and PFIRST with no active lane read no P[A], FREDS reads S[B] alone (05 R137), and the hints
PREF and PREF.w, which never trap beyond 02 R45, read nothing that could fault (09 R226). -/
def sourcesRead (m : Context) (i : Instr) : List Dest :=
  match i with
  | .freds x =>
    (if (pickedBy x (512 / (tyFp x.ty).width)).active m then [.v x.a] else []) ++ srcB x.form (.s x.b)
  | .ppopc x | .pfirst x => if (pickedBy x (predCount x)).active m then sources i else []
  | .pref _ | .prefW _ => []
  | i => if (masking i).active m then sources i else []

/-- Registers an instruction reads in a context: its mask, its sources, and its destination where lanes of it are kept (06
R150; log 15). -/
def regsRead (m : Context) (i : Instr) : List Dest :=
  maskReg i ++ sourcesRead m i ++ (if (masking i).keeps m then regsWritten i else [])

/-! ## Pending and faulty registers -/

/-- Whether a register is pending (06 R155). -/
def Context.pending (m : Context) (d : Dest) : Bool :=
  match d with
  | .s r => r != 0 && m.pendS.getLsbD r.toNat
  | .v r => m.pendV.getLsbD r.toNat
  | .p r => r != 0 && m.pendP.getLsbD r.toNat

/-- Whether an instruction waits for a landing: it names a pending register as a mask, a source or a destination, whatever its
mask holds (05 R147, 06 R155). -/
def hazard (m : Context) (i : Instr) : Bool := (maskReg i ++ sources i ++ regsWritten i).any m.pending

/-- Whether PRIVILEGED comes before a faulty register (02 R45). -/
def State.denies (s : State) (i : Instr) : Bool :=
  match i with
  | .mts x => !s.me.sup && supOnlyWrite x.sysReg
  | .start _ => s.cur.num != 0
  | .bgset _ | .xmit _ => s.cur.core.big || s.cur.num != 0
  | .bwait _ => s.cur.core.big
  | _ => false

/-- A faulty register the instruction reads (20 R385). -/
def State.badRead (s : State) (i : Instr) : Option Dest :=
  if s.denies i then none
  else (regsRead s.me i).find? fun d => s.badRegs.any fun b => b.1 == s.cur && b.2 == d

/-- Whether CHKLD finds its entry and so leaves its register alone (04 R109). -/
def State.checkKeeps (s : State) (i : Instr) : Bool :=
  match i with
  | .chkld x => s.checkHit x.d (x.addr 16 s.me) (szBytes s.me.tags[x.d.toNat])
  | _ => false

/-- Whether instruction i, issued or taken up again in state u, completed in state t: the context moved past it, and took no
trap. -/
def State.completed (t u : State) : Bool :=
  let m := t.ctx u.cur
  m.pc != u.me.pc && m.tinh == u.me.tinh

/-- Registers of a context that have been written lose their fault marks (20 R385). -/
def State.mend (s : State) (c : CtxId) (ds : List Dest) : State :=
  { s with badRegs := s.badRegs.filter fun b => !(b.1 == c && ds.contains b.2) }

/-- All registers of a context have been written. -/
def State.mendAll (s : State) (c : CtxId) : State := { s with badRegs := s.badRegs.filter fun b => b.1 != c }

/-- Registers that instruction i, run in state u, has written in state t lose their fault marks. -/
def State.mendRegs (t u : State) (i : Instr) : State :=
  if t.completed u && (masking i).writes u.me && !u.checkKeeps i then t.mend u.cur (regsWritten i) else t

end Sys2Proof.Machine
end

