-- ==== Sys2Proof/Machine/Park.lean ====
section
/-! DEFINITION. Groups, which contexts may issue, parking at release points, and what issuing or completing an
instruction does to the rest of the core (08 R192, R198, 18 R370 to R375). -/

namespace Sys2Proof.Machine

/-! ## Groups (16) -/

/-- The group a core belongs to. -/
def groupOf (k : CoreId) : Group := { big := k.big, hive := coreHive k, row := if k.big then 0 else k.row % 4 }

/-- The cores of a group, in placement order. -/
def Group.cores (g : Group) : List CoreId :=
  if g.big then [bigCore g.hive] else (List.range 8).map fun j => littleCore g.hive (8 * g.row + j)

/-! ## Contexts of a core -/

/-- The live contexts of a core. -/
def Core.live (k : Core) : List (Fin 11) := ctxNums.filter fun i => (k.ctxs[i]).live

/-- Update one context of a core. -/
def Core.mapCtx (k : Core) (i : Fin 11) (f : Context → Context) : Core := { k with ctxs := k.ctxs.set i (f k.ctxs[i]) }

/-- The divider a core has, or goes back to after a transfer phase or a halt (18 R377). -/
def Core.ownDivider (k : Core) : Nat := if k.status = .running && k.transfer.isNone then k.divider else k.dividerKept

/-! ## Issue (08 R192) -/

/-- Whether a context's lamp class is shed (18 R363). -/
def State.shed (s : State) (m : Context) : Bool := decide (s.power.active ≤ m.lampcls.toNat)

/-- Whether a context has left every yield set: it is parked, or has ended (08 R198). -/
def Context.left (m : Context) : Bool := m.parked || !m.live

/-- YIELD's condition (08 R198): somebody of the yield set is left, and the limit has not come. -/
def Core.yields (k : Core) (m : Context) : Bool :=
  match m.yielding with
  | none => false
  | some y => (y.waiting.any fun i => !(k.ctxs[i]).left) && decide (k.cycles < y.limit)

/-- Instructions in which a context is blocked, rather than held or waiting to issue (04 R113). -/
def blocksIn : Instr → Bool
  | .wait _ => true
  | .bwait _ => true
  | .barr _ => true
  | .phase _ => true
  | .cwait _ => true
  | .recv _ => true
  | .taskget _ => true
  | .rgres _ => true
  | .rgtake _ => true
  | _ => false

/-- Whether a context is blocked, and not held: in an instruction of the list of 04 R113, or where it waits on replay order (phase
2; 20 R394). -/
def Context.isBlocked (m : Context) : Bool := m.blocked.any fun b => blocksIn b.instr || b.phase == 2

/-- Whether the acting context may issue: live, not stopped, parked, held or yielding, its core running, no helper inside a
transfer phase, and not before the cycle in which a release lets it go on (06 R149, 08 R192, R198, 12 R274, R279, 17 R339); in a
parked core no trap that waits is taken (06 R160, 18 R375). -/
def State.mayIssue (s : State) : Bool :=
  let k := s.myCore
  let m := s.me
  (k.status == .running || k.status == .halting) && m.live && !m.stopped && !m.parked && !k.yields m &&
    (m.pendingTrap.isNone || k.parkedSince.isNone) &&
    (k.transfer.isNone || s.cur.num == 0) &&
    (match m.blocked with | some b => b.phase != 1 | none => true) &&
    (match m.wakeAt with | some t => decide (t ≤ s.dieCycle) | none => true)

/-! ## Parking (18 R370, R375) -/

/-- Bits 39:20 of the reference count, as the throttle record keeps them (18 Table 18.7). -/
def throttleTime (now : Nat) : Nat := bits now 39 20

/-- A throttle record after a park: PTIME, NPARK, FORCED; SAVED is cleared (18 Table 18.7). -/
def throttlePark (t : Word) (now : Nat) (forced : Bool) (lc : Nat) : Word :=
  let n := min (bits t.toNat 23 8 + 1) 65535
  BitVec.ofNat 64 (bits t.toNat 63 44 * 2 ^ 44 + throttleTime now * 2 ^ 24 + n * 2 ^ 8 + forced.toNat * 2 ^ 7 + lc)

/-- A throttle record after a release: RTIME. -/
def throttleRelease (t : Word) (now : Nat) : Word :=
  BitVec.ofNat 64 (throttleTime now * 2 ^ 44 + bits t.toNat 43 0)

/-- A context parks (18 R370). -/
def Context.park (m : Context) (now : Nat) (forced : Bool) : Context :=
  if m.parked || !m.live then m
  else { m with parked := true, throttle := throttlePark m.throttle now forced m.lampcls.toNat }

/-- A context is released (18 R375). -/
def Context.unpark (m : Context) (now : Nat) : Context :=
  if m.parked then { m with parked := false, throttle := throttleRelease m.throttle now } else m

/-- Every live context is parked or blocked, and some context of a shed class is live (18 R370); one that is held for a shipped
result, an acceptance, a helper or room runs on. -/
def State.allParked (s : State) (k : CoreId) : Bool :=
  let c := s.core k
  c.live.any (fun i => s.shed c.ctxs[i]) && c.live.all fun i => (c.ctxs[i]).parked || (c.ctxs[i]).isBlocked

/-- Whether a core counts as parked for its group: parked, or running no context. -/
def State.parkedOrEmpty (s : State) (k : CoreId) : Bool := (s.core k).parkedSince.isSome || (s.core k).live.isEmpty

/-- The notice of a group that parks (18 R375): kind 5, WHO its first core, ADDR that core's PC. -/
def State.groupParked (s : State) (g : Group) (cause : Nat) : State :=
  match g.cores with
  | [] => s
  | k :: ks =>
    if (k :: ks).all s.parkedOrEmpty then
      s.notify { core := k, num := 0 } 5 cause ((s.core k).ctxs[0]).pc.toNat
    else s

/-- A core whose contexts have all come to a stop in a shed class is parked (18 R370); never inside a transfer phase. One that a forced
shed has asked to halt stays so marked (18 R371). -/
def State.settlePark (s : State) (k : CoreId) (forced : Bool) : State :=
  let c := s.core k
  if c.parkedSince.isNone && c.transfer.isNone && s.allParked k then
    (s.setCore k { c with parkedSince := some s.refCount, forcedPark := forced || c.forcedPark }).groupParked (groupOf k) (if forced then 11 else 0)
  else s

/-- Park one context. -/
def State.parkCtx (s : State) (c : CtxId) : State :=
  (s.setCtx c ((s.ctx c).park s.now false)).settlePark c.core false

/-! ## After an instruction -/

/-- Another context of the core leaves the yield sets when it issues, blocks, is held, parks or ends (08 R198). -/
def Context.dropYield (n : Fin 11) (m : Context) : Context :=
  match m.yielding with
  | none => m
  | some y => { m with yielding := some { y with waiting := y.waiting.filter fun j => j != n } }

/-- A context leaves the yield sets of its core. -/
def Core.leaveYields (k : Core) (n : Fin 11) : Core := { k with ctxs := k.ctxs.map (Context.dropYield n) }

/-- Whether a context stands at a release point: TASKGET, RGTAKE, or a compute arrival (18 R370). -/
def Context.atRelease (m : Context) : Bool :=
  match m.blocked with
  | some b =>
    (match b.instr with
     | .taskget _ => true
     | .rgtake _ => true
     | .barr _ => b.phase == 1
     | _ => false)
  | none => false

/-- The last running context of a core has ended: with it, the core's group may have come to be parked (18 R375). -/
def State.settleEmpty (s : State) (k : CoreId) : State :=
  if (s.core k).live.isEmpty && (groupOf k).cores.any fun m => (s.core m).parkedSince.isSome then s.groupParked (groupOf k) 0 else s

/-- The acting context has had its turn: the other contexts' yield sets lose it unless it only waits to issue for a credit (08
R198, 06 R152). A context of a shed class parks where it has arrived at a release point, and before its next instruction where
it has completed a blocked one; its core may now be parked (18 R370). -/
def State.afterIssue (s : State) (wasBlocked : Bool) : State :=
  let k := s.myCore
  let n := s.cur.num
  let s := if s.me.creditWait then s else s.setMyCore (k.leaveYields n)
  let m := s.me
  if !m.live then (if s.shed m then s.settlePark s.cur.core false else s).settleEmpty s.cur.core
  else if !s.shed m then s
  else if k.transfer.isNone && (m.atRelease || (wasBlocked && m.blocked.isNone)) then s.parkCtx s.cur
  else s.settlePark s.cur.core false

/-- Map over the next state. -/
def onNext (f : State → State) : Host.Outcome State Fault Refusal → Host.Outcome State Fault Refusal
  | .next s => .next (f s)
  | .fault r => .fault r
  | .refused r => .refused r

/-- The acting context reaches a release point: a context of a shed class parks there and takes nothing (18 R370). -/
def State.releasePoint (s : State) : Run Unit :=
  if s.shed s.me && s.myCore.transfer.isNone then .error (.hold (s.parkCtx s.cur)) else .ok ()

end Sys2Proof.Machine
end

