-- ==== Sys2Proof/Machine/Caching.lean ====
section
/-! DEFINITION. What an instruction's own accesses do to the caches and between dies (09 Table 9.6, 10 R231, R232, R234, R242,
R248, R249): the requests, invalidations and acknowledgements of an access take place within its step (log 6). -/

namespace Sys2Proof.Machine

/-! ## Overflow rings (13 R288, R291) -/

/-- OVFRING.EN. -/
def Core.spills (k : Core) : Bool := k.ovfring.getLsbD 63
/-- Capacity of the overflow ring. -/
def Core.ovfCap (k : Core) : Nat := 2 ^ bits k.ovfring.toNat 62 58
/-- The address of entry n of the overflow ring: BASE * 32 + 32 * n. -/
def Core.ovfAddr (k : Core) (n : Nat) : Word := BitVec.ofNat 64 (bits k.ovfring.toNat 56 5 * 32 + 32 * n)

/-! ## Conditions of WAIT (08 R200) -/

/-- A condition of WAIT: number, kind, qualifier, X and Y. -/
structure WaitCond where
  num : Nat
  kind : Nat
  qual : Nat
  x : Word
  y : Word
  deriving DecidableEq, Repr

/-- Condition i of a WAIT. -/
def XForm.cond (x : XForm) (m : Context) (i : Nat) : WaitCond where
  num := i
  kind := bits x.e1.toNat (4 * i + 3) (4 * i)
  qual := bits x.e1.toNat (4 * i + 19) (4 * i + 16)
  x := BitVec.ofNat 64 (laneOf 64 (m.getV x.b) (2 * i))
  y := BitVec.ofNat 64 (laneOf 64 (m.getV x.b) (2 * i + 1))

/-- The used conditions. -/
def XForm.conds (x : XForm) (m : Context) : List WaitCond :=
  ([0, 1, 2, 3].map (XForm.cond x m)).filter fun c => c.kind != 0

/-- Bytes of a memory condition. -/
def WaitCond.size (c : WaitCond) : Nat := if c.qual % 2 = 1 then 8 else 4

/-! ## The accesses of an instruction -/

/-- How an access uses its bytes: a load, a store, or an atomic, which may run within its hive (09 Table 9.6). -/
inductive Use where
  | load | store
  | atomic (hive : Bool)
  deriving DecidableEq, Repr

/-- An access of an instruction: how, the address as the program gives it, and its bytes. -/
structure UsedAt where
  use : Use
  va : Word
  bytes : Nat
  deriving DecidableEq, Repr

/-- An access by a scalar instruction, if it is active. -/
def Form.uses (f : Form) (m : Context) (u : UsedAt) : List UsedAt := if f.active m then [u] else []

/-- The accesses of the active lanes of a vector instruction. -/
def laneUses (u : Use) (w : Nat) (mask : Word) (addr : Nat → Word) : List UsedAt :=
  (activeLanes w mask addr).map fun e => { use := u, va := e.2, bytes := w / 8 }

/-- The spill of a call's push to a full return-address store (04 R104). -/
def Context.spillUses (m : Context) : List UsedAt := if m.ras.length < 16 then [] else [{ use := .store, va := m.rasp, bytes := 8 }]

/-- The refill of a return's pop from an empty return-address store (04 R104). -/
def Context.refillUses (m : Context) : List UsedAt := if m.ras.isEmpty then [{ use := .load, va := m.rasp - 8, bytes := 8 }] else []

/-- The spill of a push to a full deque (13 R291). -/
def Core.spillUses (k : Core) : List UsedAt :=
  if k.deque.length < 64 || !k.spills then [] else [{ use := .store, va := k.ovfAddr k.ovfTop, bytes := 32 }]

/-- The refill of an empty deque (13 R294). -/
def Core.refillUses (k : Core) : List UsedAt :=
  if k.deque.isEmpty then
    (List.range (min 32 k.ovfTop)).map fun i => { use := .load, va := k.ovfAddr (k.ovfTop - min 32 k.ovfTop + i), bytes := 32 }
  else []

/-- The loads of a WAIT's memory conditions (08 R201). -/
def WaitCond.uses (c : WaitCond) : List UsedAt :=
  if c.kind = 2 ∨ c.kind = 3 then [{ use := .load, va := c.x, bytes := c.size }] else []

/-- The memory accesses of an instruction of the acting context. -/
def State.uses (s : State) (i : Instr) : List UsedAt :=
  let m := s.me
  match i with
  | .ld x => Form.uses x.form m { use := .load, va := x.addr (szBytes x.sz) m, bytes := szBytes x.sz }
  | .ldp x => Form.uses x.form m { use := .load, va := x.addr 16 m, bytes := 16 }
  | .lds x =>
    match s.speculate (x.addr (szBytes x.sz) m) (szBytes x.sz) with
    | .ok (some _) => Form.uses x.form m { use := .load, va := x.addr (szBytes x.sz) m, bytes := szBytes x.sz }
    | _ => []
  | .chkld x =>
    let n := szBytes m.tags[x.d.toNat]
    if s.checkHit x.d (x.addr 16 m) n then [] else Form.uses x.form m { use := .load, va := x.addr 16 m, bytes := n }
  | .st x => Form.uses x.form m { use := .store, va := x.addr (szBytes x.sz) m, bytes := szBytes x.sz }
  | .stp x => Form.uses x.form m { use := .store, va := x.addr 16 m, bytes := 16 }
  | .vld x => laneUses .load (8 * 2 ^ x.sz.toNat) (Form.laneMask x.form m) (consecutive (x.addr (2 ^ x.sz.toNat) m) (8 * 2 ^ x.sz.toNat))
  | .vst x => laneUses .store (8 * 2 ^ x.sz.toNat) (Form.laneMask x.form m) (consecutive (x.addr (2 ^ x.sz.toNat) m) (8 * 2 ^ x.sz.toNat))
  | .vlds x => laneUses .load (tyInt x.ty).w (x.mask m) (stridedAddr x m)
  | .vsts x => laneUses .store (tyInt x.ty).w (x.mask m) (stridedAddr x m)
  | .vldx x => laneUses .load (tyInt x.ty).w (x.mask m) (indexedAddr x m)
  | .vstx x => laneUses .store (tyInt x.ty).w (x.mask m) (indexedAddr x m)
  | .vldb x => [{ use := .load, va := VForm.base x m, bytes := 256 }]
  | .vldbWeak x => [{ use := .load, va := VForm.base x m, bytes := 256 }]
  | .call _ => m.spillUses
  | .calli _ => m.spillUses
  | .ret => m.refillUses
  | .retX => m.refillUses
  | .spawn _ => s.myCore.spillUses
  | .spawnat _ => s.myCore.spillUses
  | .taskget _ => s.myCore.refillUses
  | .wait x => (XForm.conds x m).flatMap WaitCond.uses
  | i =>
    match i.payload with
    | some (.a op x) =>
      if s.ships && (decide (32 ≤ op) || (decide (16 ≤ op) && x.sz == 3)) then []
      else [{ use := .atomic (AForm.inHive x), va := AForm.addr x m, bytes := szBytes x.sz }]
    | _ => []

/-- An access kind for translation. -/
def Use.acc : Use → Acc
  | .load => .load
  | .store => .store
  | .atomic _ => .atomic

/-- The resolved accesses of an instruction. -/
def State.usedAt (s : State) (i : Instr) : List (Use × Nat × Nat) :=
  (s.uses i).filterMap fun u =>
    match s.resolve s.cur.core s.me.sup u.use.acc u.va.toNat with
    | .ok a => if inPort a then none else some (u.use, a, u.bytes)
    | .error _ => none

/-- Whether an instruction needs a line whose directory entry on its die is busy; it waits (10 R248). -/
def State.linesBusy (s : State) (i : Instr) : Bool :=
  s.rangesBusy s.cur.core.die ((s.usedAt i).map fun u => (u.2.1, u.2.2))

/-- One access by a core. -/
def State.useLine (s : State) (k : CoreId) (u : Use) (line : Nat) : State :=
  match u with
  | .load => s.readLine k line
  | .store => s.writeLine k.die line (some k) (.write line)
  | .atomic hive => s.atomicLine k hive line

/-- Whether instruction i, tried in state u, has led to state t with its accesses made: it completed, or it is a WAIT that has
looked at its conditions and waits on (08 R201). -/
def State.accessed (t u : State) (i : Instr) : Bool :=
  t.completed u ||
    (match i with
     | .wait _ => (t.ctx u.cur).blocked.isSome
     | _ => false)

/-- Instruction i, tried in state u, has led to state t: the caches are as its accesses leave them, and the accesses that cross to
another die have set out. -/
def State.cacheUses (t u : State) (i : Instr) : State :=
  if t.accessed u i then
    (u.usedAt i).foldl (fun (t : State) x =>
      ((linesOf x.2.1 x.2.2).foldl (fun (t : State) l => t.useLine u.cur.core x.1 l) t).crossLocal u.cur.core.die x.2.1) t
  else t

/-- What a completed instruction leaves besides its own effect: registers written are mended, and the caches are as its accesses
leave them. -/
def State.settled (t u : State) (i : Instr) : State := (t.mendRegs u i).cacheUses u i

/-! ## Instructions taken up again -/

/-- An event makes a context run the instruction it is blocked in again: `g` gives the instruction's meaning. It does
nothing where the context cannot issue, is not blocked, or needs a line that is busy (10 R248). -/
def retry (c : CtxId) (g : Instr → Option (State → Host.Outcome State Fault Refusal)) (s : State) :
    Host.Outcome State Fault Refusal :=
  let t := { s with cur := c }
  match t.me.blocked with
  | none => .next s
  | some b =>
    match g b.instr with
    | none => .next s
    | some f =>
      if t.mayIssue && !t.linesBusy b.instr then
        onNext (fun u => { (u.settled t b.instr).afterIssue t.me.isBlocked with cur := s.cur }) (f t)
      else .next s

/-- A context that a landing has led to m' while its core was halted: a trap taken there waits, and is taken first when the context
goes on (06 R160). -/
def Context.deferTrap (m m' : Context) : Context :=
  if m'.tinh && !m.tinh then
    { m' with
      pc := m.pc
      sup := m.sup
      tinh := m.tinh
      tpm := m.tpm
      tlen := m.tlen
      tcode := m.tcode
      tpc := m.tpc
      tval := m.tval
      blocked := none
      pendingTrap := some ({ cause := causeOf m'.tcode.toNat, tval := m'.tval }, some m'.tlen) }
  else m'

/-- As `retry`, for a context held for acceptance by an engine: acceptance goes on while the core is halted, saved or off, and lands in
the context's state (06 R160, 11 R269). -/
def retryHeld (c : CtxId) (g : Instr → Option (State → Host.Outcome State Fault Refusal)) (s : State) :
    Host.Outcome State Fault Refusal :=
  let t := { s with cur := c }
  let st := t.myCore.status
  if st == .halted || st == .saved || st == .off then
    match t.me.blocked with
    | none => .next s
    | some b =>
      match g b.instr with
      | none => .next s
      | some f =>
        if t.me.live && !t.me.stopped && !t.linesBusy b.instr then
          onNext (fun u =>
            let v := u.settled t b.instr
            { v.setCtx c (t.me.deferTrap (v.ctx c)) with cur := s.cur }) (f t)
        else .next s
  else retry c g s

end Sys2Proof.Machine
end

