-- ==== Sys2Proof/Machine/Tasks.lean ====
section
/-! DEFINITION. Range tasks and rings: the TASK major, deques, spills, steals and ring state (13 R286 to R301). -/

namespace Sys2Proof.Machine

/-! ## Stages -/

/-- The acting context's launch number, launch, stage number and stage. -/
def State.stageOf (s : State) (k : CoreId) : Option (Nat × Launch × Nat × Stage) :=
  match (s.core k).job with
  | none => none
  | some j =>
    match s.launch? j.launch with
    | none => none
    | some l => (l.stages[j.stage]?).map fun st => (j.launch, l, j.stage, st)

/-- Whether a stage of a launch is a pool stage (16 Table 16.2). -/
def Launch.pool (l : Launch) (st : Nat) : Bool := stageBits l.packet st 127 127 == 1

/-- Whether the acting context is of a pool stage (13 R293); outside every launch there is none (log 42). -/
def State.inPool (s : State) : Bool :=
  match s.stageOf s.cur.core with
  | some (_, l, st, _) => l.pool st
  | none => false

/-- The cores a stage holds. -/
def Stage.cores (st : Stage) : List CoreId := st.alloc.flatMap Group.cores

/-- Update a stage of a launch. -/
def State.mapStage (s : State) (l st : Nat) (f : Stage → Stage) : State :=
  match s.launch? l with
  | none => s
  | some x => s.setLaunch l { x with stages := x.stages.modify st f }

/-- Raise the work count C of a core's stage (R287). -/
def State.addWork (s : State) (k : CoreId) : State :=
  match s.stageOf k with
  | some (l, _, st, _) => s.mapStage l st fun x => { x with work := x.work + 1 }
  | none => s

/-- Lower the work count C of a core's stage. -/
def State.dropWork (s : State) (k : CoreId) : State :=
  match s.stageOf k with
  | some (l, _, st, _) => s.mapStage l st fun x => { x with work := x.work - 1 }
  | none => s

/-- The work count C of a core's stage. -/
def State.workCount (s : State) (k : CoreId) : Nat :=
  match s.stageOf k with
  | some (_, _, _, x) => x.work
  | none => 0

/-! ## Task records (R286) -/

/-- ENTRY, LO, HI, GRAIN and KIND of a record. -/
def taskLo (r : BitVec 256) : Nat := bits r.toNat 159 128
/-- HI. -/
def taskHi (r : BitVec 256) : Nat := bits r.toNat 191 160
/-- GRAIN. -/
def taskGrain (r : BitVec 256) : Nat := bits r.toNat 207 192
/-- Whether the record is a range task. -/
def taskRange (r : BitVec 256) : Bool := r.getLsbD 208

/-- Whether a record is valid. -/
def taskValid (r : BitVec 256) : Bool :=
  bits r.toNat 1 0 == 0 && bits r.toNat 255 209 == 0 &&
    (if taskRange r then decide (1 ≤ taskGrain r) && decide (taskLo r < taskHi r)
     else taskLo r == 0 && taskHi r == 0 && taskGrain r == 0)

/-- A record with another interval. -/
def taskWith (r : BitVec 256) (lo hi : Nat) : BitVec 256 :=
  BitVec.ofNat 256 (bits r.toNat 255 192 * 2 ^ 192 + hi * 2 ^ 160 + lo * 2 ^ 128 + bits r.toNat 127 0)

/-! ## Deques and overflow rings (R288, R291) -/

/-- Push a record at the newest end of a core's deque. -/
def State.pushDeque (s : State) (k : CoreId) (r : BitVec 256) : State :=
  let c := s.core k
  s.setCore k { c with deque := c.deque ++ [r] }

/-- SPILL_FULL's limit (R291): 4,096 ticks since issue; in replay mode only where the record says so. -/
def State.spillLate (s : State) : Bool :=
  match s.me.blocked with
  | some b => decide (b.issued + 4096 ≤ s.now)
  | none => false

/-- SPILL_FULL, or more waiting (R291). -/
def State.spillWait (s : State) (i : Instr) (a : Word) : Run State :=
  let t := s.blockIn i none 0
  match s.timesOut s.spillLate with
  | some u => trapAt u .spillFull a
  | none => .error (.hold t)

/-- The deque grants the acting context's push of a record, and C rises. In replay mode a push may have to wait. -/
def State.grantPush (s : State) (i : Instr) (r : BitVec 256) : Run State :=
  match s.dequeEvent s.cur 1 1 0 with
  | some t => .ok ((t.pushDeque s.cur.core r).addWork s.cur.core)
  | none => .error (.hold (s.blockIn i none 2))

/-- Push a record on the acting core's own deque, spilling its oldest entry when it is full (R291). -/
def State.pushTask (s : State) (i : Instr) (r : BitVec 256) : Run State :=
  let k := s.myCore
  if k.deque.length < 64 then s.grantPush i r
  else if k.spills && decide (k.ovfTop < k.ovfCap) then
    (s.checkAccess .store (k.ovfAddr k.ovfTop) 32 32).bind fun a =>
      (s.storeAt a 32 (k.deque.headD 0).toNat).bind fun t =>
        let c := t.myCore
        (t.setMyCore { c with deque := c.deque.tail, ovfTop := c.ovfTop + 1 }).grantPush i r
  else s.spillWait i (if k.spills then k.ovfAddr k.ovfTop else 0)

/-- SPAWN (R291, R293). -/
def execSpawn (x : XForm) (s : State) : Host.Outcome State Fault Refusal :=
  let r := (s.me.getV x.a).extractLsb' 0 256
  finish 2
    (if !s.inPool || !taskValid r then engineFault s 0 7 else s.pushTask (.spawn x) r)

/-! ## SPAWNAT (R292) -/

/-- Die distance. -/
def dieDistance (d e : Nat) : Nat :=
  ((d / 6 : Nat) - (e / 6 : Nat) : Int).natAbs + ((d % 6 : Nat) - (e % 6 : Nat) : Int).natAbs

/-- The order of a stage's hives for data at a physical address (R292): die distance; on the home die, network hops; die;
hive index. -/
def State.hiveOrder (s : State) (p pa : Nat) (h : HiveId) : Nat :=
  let home := homeDie pa
  let hops := if h.die = home then
    ((s.homeSlice home p pa).map fun j => Config.hops j (hiveIndex h) % 4096).getD 0 else 0
  ((dieDistance h.die home * 4096 + hops) * 64 + h.die) * 1024 + hiveIndex h

/-- The core of a hive's stage cores whose deque holds fewest entries, ties to the lower index. -/
def State.leastLoaded (s : State) (ks : List CoreId) : Option CoreId :=
  leastBy (fun k => (s.core k).deque.length * 64 + coreIndex k) ks

/-- The target of a SPAWNAT at a resolved address, before the check that it is of the stage (R292). -/
def State.spawnTarget (s : State) (st : Stage) (big : Bool) (a : Nat) : Option CoreId :=
  if bits a 63 60 = 8 then some (localCore a)
  else if bits a 63 60 = 10 then
    let h : HiveId := { die := bits a 34 29, row := bits a 28 24, col := bits a 23 19 }
    some (if big then bigCore h else littleCore h 0)
  else
    match s.owner s.cur.core with
    | none => none
    | some p =>
      match leastBy (s.hiveOrder p a) (st.alloc.map (·.hive)) with
      | none => none
      | some h => s.leastLoaded (st.cores.filter fun k => coreHive k == h)

/-- A valid record goes to a core (R292): sent to the target of a resolved address, if it is of the stage and its deque has room,
else pushed at home; one that waits is pushed at home. -/
def State.sendTask (s : State) (x : XForm) (big : Bool) (st : Stage) (r : BitVec 256) (a : Nat) : Run State :=
  match s.spawnTarget st big a with
  | none => s.pushTask (.spawnat x) r
  | some k =>
    if s.me.blocked.isNone && st.cores.contains k && decide ((s.core k).deque.length < 64) then
      let t := s.addWork s.cur.core
      .ok { t with spawns := t.spawns ++ [{ dest := k, by_ := s.cur, record := r }] }
    else s.pushTask (.spawnat x) r

/-- SPAWNAT (R292, R293): in a pool stage S[B] is checked first, then the record. -/
def execSpawnat (x : XForm) (s : State) : Host.Outcome State Fault Refusal :=
  let r := (s.me.getV x.a).extractLsb' 0 256
  finish 2
    (match s.stageOf s.cur.core with
     | none => engineFault s 0 7
     | some (_, l, n, st) =>
       if !l.pool n then engineFault s 0 7
       else (s.translate .load (s.me.getS x.b)).bind fun a =>
         if !taskValid r then engineFault s 0 7 else s.sendTask x (stageBits l.packet n 126 126 == 1) st r a)

/-! ## TASKGET and TASKEND (R294, R297) -/

/-- Read and check n overflow entries from number i up, as loads (R294). -/
def State.readOverflow (s : State) (i : Nat) : Nat → Run (List (BitVec 256))
  | 0 => .ok []
  | n + 1 =>
    (s.loadMem (s.myCore.ovfAddr i) 32 32).bind fun v =>
      (s.readOverflow (i + 1) n).map fun es => BitVec.ofNat 256 v.1 :: es

/-- Move up to 32 overflow entries back to an empty deque (R294). -/
def State.refill (s : State) : Run State :=
  let k := s.myCore
  if k.deque.isEmpty && k.ovfTop != 0 then
    let n := min 32 k.ovfTop
    (s.readOverflow (k.ovfTop - n) n).bind fun es =>
      if es.all taskValid then .ok (s.setMyCore { k with deque := es, ovfTop := k.ovfTop - n }) else engineFault s 0 7
  else .ok s

/-- What a take from an entry hands out, what stays, and whether C rises (R294). -/
def takeFrom (e : BitVec 256) : BitVec 256 × Option (BitVec 256) :=
  if taskRange e then
    let h := min (taskLo e + taskGrain e) (taskHi e)
    (taskWith e (taskLo e) h, if h = taskHi e then none else some (taskWith e h (taskHi e)))
  else (e, none)

/-- A take of the newest entry by the acting context; C rises for a range whose rest stays, and a plain task keeps its
count (R294). -/
def State.take (s : State) (e : BitVec 256) : State × BitVec 256 :=
  let k := s.myCore
  let r := takeFrom e
  let s := s.setMyCore { k with deque := k.deque.dropLast ++ r.2.toList }
  let s := if r.2.isSome then s.addWork s.cur.core else s
  (s.setMe { s.me with takes := s.me.takes + 1 }, r.1)

/-- TASKGET: C names the status register. -/
def execTaskget (x : XForm) (s : State) : Host.Outcome State Fault Refusal :=
  let d := s.deadline (s.me.getS x.a)
  let sc := x.e1.extractLsb' 0 5
  let wait (s : State) : Run State := .error (.hold (s.blockIn (.taskget x) (some d) 0))
  finish 2
    (if !s.inPool then engineFault s 0 7
     else s.releasePoint.bind fun _ => s.refill.bind fun s =>
       match s.myCore.deque.getLast? with
       | some e =>
         match s.dequeEvent s.cur 0 1 0 with
         | none => .error (.hold (s.blockIn (.taskget x) (some d) 2))
         | some t =>
           let r := t.take e
           .ok (r.1.setMe (((r.1.me.setV x.d (r.2.setWidth 512)).setS sc 0).dropSpec))
       | none =>
         if s.workCount s.cur.core = 0 then .ok (s.setMe (s.me.setS sc 1).dropSpec)
         else match s.timesOut (s.expired d) with
           | some t => .ok (t.setMe (t.me.setS sc 2))
           | none => wait s)

/-- TASKEND (R297). -/
def execTaskend (s : State) : Host.Outcome State Fault Refusal :=
  finish 2
    (if !s.inPool || s.me.takes = 0 then engineFault s 0 7
     else .ok ((s.setMe { s.me with takes := s.me.takes - 1 }).dropWork s.cur.core))

/-! ## Rings (R299, R300) -/

/-- A ring of a launch, if the packet defines it. -/
def Launch.ring? (l : Launch) (n : Nat) : Option Ring :=
  if n < 16 ∧ ringBits l.packet n 127 127 = 1 then some (lookup Ring.reset n l.rings) else none

/-- Slots of a ring: 2^LSLOT. -/
def Launch.slots (l : Launch) (n : Nat) : Nat := 2 ^ (ringBits l.packet n 116 113 + 1)

/-- The address of the slot of a ticket. -/
def Launch.slotAddr (l : Launch) (n ticket : Nat) : Word :=
  BitVec.ofNat 64 (ringBits l.packet n 56 0 + ticket % l.slots n * 2 ^ ringBits l.packet n 120 117)

/-- The acting context's ring n in a role: the launch number, the launch and the ring. -/
def State.roleRing (s : State) (consumer : Bool) (n : Nat) : Option (Nat × Launch × Ring) :=
  match s.stageOf s.cur.core with
  | none => none
  | some (j, l, st, _) =>
    match l.ring? n with
    | none => none
    | some r =>
      let role := if consumer then ringBits l.packet n 123 121 else ringBits l.packet n 126 124
      if role = st then some (j, l, r) else none

/-- Replace a ring of a launch. -/
def State.setRing (s : State) (j : Nat) (n : Nat) (r : Ring) : State :=
  match s.launch? j with
  | none => s
  | some l => s.setLaunch j { l with rings := store n r l.rings }

/-- Raise a frontier over marked tickets. -/
def raise (limit : Nat) (marks : List Nat) : Nat → Nat → Nat
  | 0, f => f
  | fuel + 1, f => if f < limit ∧ marks.contains f then raise limit marks fuel (f + 1) else f

/-- Publish a ticket and advance the publish frontier (R300). -/
def Ring.publish (r : Ring) (n : Nat) : Ring :=
  let marks := n :: r.published
  let f := raise r.res marks marks.length r.pubf
  { r with pubf := f, published := marks.filter fun t => decide (f ≤ t), reserved := r.reserved.filter fun e => e.1 != n }

/-- Mark a ticket done and advance the done frontier (R300). -/
def Ring.finish (r : Ring) (n : Nat) : Ring :=
  let marks := n :: r.done
  let f := raise r.take marks marks.length r.donef
  { r with donef := f, done := marks.filter fun t => decide (f ≤ t), taken := r.taken.filter fun e => e.1 != n }

/-- RGRES (R300): it waits while the ring is full. -/
def execRgres (x : XForm) (s : State) : Host.Outcome State Fault Refusal :=
  let n := x.mod.toNat
  finish 2
    (match s.roleRing false n with
     | none => engineFault s n 5
     | some (j, l, r) =>
       if l.slots n ≤ r.res - r.donef then .error (.hold (s.blockIn (.rgres x) none 0))
       else
         match s.ringEvent false n r.res with
         | none => .error (.hold (s.blockIn (.rgres x) none 2))
         | some t =>
           let t := t.setRing j n { r with res := r.res + 1, reserved := store r.res s.cur r.reserved }
           .ok (t.setMe ((t.me.setS (x.e1.extractLsb' 0 5) (BitVec.ofNat 64 r.res)).setS x.d (l.slotAddr n r.res))))

/-- RGPUB (R300): a release; the ticket must be reserved by the issuing context (Table 13.5). -/
def execRgpub (x : XForm) (s : State) : Host.Outcome State Fault Refusal :=
  let n := x.mod.toNat
  let t := (s.me.getS x.a).toNat
  finish 2
    (match s.roleRing false n with
     | none => engineFault s n 5
     | some (j, _, r) =>
       if r.res ≤ t || t < r.pubf || r.published.contains t || !(r.reserved.any fun e => e.1 == t && e.2 == s.cur) then
         engineFault s n 5
       else .ok (s.setRing j n (r.publish t)))

/-- RGTAKE (R300): a release point. -/
def execRgtake (x : XForm) (s : State) : Host.Outcome State Fault Refusal :=
  let n := x.mod.toNat
  let sc := x.e1.extractLsb' 0 5
  let d := s.deadline (s.me.getS x.a)
  let wait (s : State) : Run State := .error (.hold (s.blockIn (.rgtake x) (some d) 0))
  finish 2
    (match s.roleRing true n with
     | none => engineFault s n 5
     | some (j, l, r) =>
       s.releasePoint.bind fun _ =>
         if r.take < r.pubf then
           match s.ringEvent true n r.take with
           | none => .error (.hold (s.blockIn (.rgtake x) (some d) 2))
           | some t =>
             let t := t.setRing j n { r with take := r.take + 1, taken := store r.take s.cur r.taken }
             .ok (t.setMe ((t.me.setS sc (BitVec.ofNat 64 r.take)).setS x.d (l.slotAddr n r.take)).dropSpec)
         else
           let miss (s : State) : State :=
             s.setMe ((s.me.setS x.d 0).setS sc (if r.closed then 0xFFFFFFFFFFFFFFFF#64 else 0xFFFFFFFFFFFFFFFE#64)).dropSpec
           if r.closed && r.take == r.res then .ok (miss s)
           else match s.timesOut (s.expired d) with
             | some t => .ok (miss t)
             | none => wait s)

/-- RGDONE (R300): a release; the ticket must be taken by the issuing context (Table 13.5). -/
def execRgdone (x : XForm) (s : State) : Host.Outcome State Fault Refusal :=
  let n := x.mod.toNat
  let t := (s.me.getS x.a).toNat
  finish 2
    (match s.roleRing true n with
     | none => engineFault s n 5
     | some (j, _, r) =>
       if r.take ≤ t || t < r.donef || r.done.contains t || !(r.taken.any fun e => e.1 == t && e.2 == s.cur) then
         engineFault s n 5
       else .ok (s.setRing j n (r.finish t)))

/-! ## Events -/

/-- SPAWNAT_DELIVERY (R292): the n-th packet in flight is pushed; it waits while the target's deque is full (log 43), while the target
is fenced (20 R391), or, in replay mode, for its turn. -/
def execSpawnatDelivery (n : Nat) (s : State) : Host.Outcome State Fault Refusal :=
  match s.spawns[n]? with
  | none => .next s
  | some p =>
    if 64 ≤ (s.core p.dest).deque.length || (s.core p.dest).status = .fenced then .next s
    else
      match s.dequeEvent { core := p.dest, num := 0 } 1 1 (coreIdBits p.by_) with
      | none => .next s
      | some t => .next ({ t with spawns := t.spawns.eraseIdx n }.pushDeque p.dest p.record)

/-- xorshift64 (13 R295, 16 R329). -/
def xorshift (x : Word) : Word :=
  let x := x ^^^ (x <<< 13)
  let x := x ^^^ (x >>> 7)
  x ^^^ (x <<< 17)

/-- Place of a core in placement order (16 R326): die, router quad, hive index, index. -/
def placeKey (k : CoreId) : Nat :=
  let h := coreHive k
  ((k.die * 144 + 12 * (h.row / 2) + h.col / 2) * 576 + hiveIndex h) * 64 + coreIndex k

/-- Insert into a list sorted by a key. -/
def insertBy {α : Type} (key : α → Nat) (x : α) : List α → List α
  | [] => [x]
  | y :: ys => if key x ≤ key y then x :: y :: ys else y :: insertBy key x ys

/-- Sort by a key; equal keys keep their order from the right. -/
def sortBy {α : Type} (key : α → Nat) (xs : List α) : List α := xs.foldr (insertBy key) []

/-- The unit of a level that holds a core (0 a context, by context 0 of the core; 1 a core, 2 a hive, 3 a router quad,
4 a die), by its place in placement order (16 R326, Table 16.6). -/
def unitKey (lv : Nat) (k : CoreId) : Nat :=
  let h := coreHive k
  let quad := k.die * 144 + 12 * (h.row / 2) + h.col / 2
  match lv with
  | 0 => 16 * placeKey k
  | 1 => placeKey k
  | 2 => quad * 576 + hiveIndex h
  | 3 => quad
  | _ => k.die

/-- PLACE of field n of a stage (16 Table 16.3). -/
def fieldPlace (packet : BitVec 11264) (st n : Nat) : Nat :=
  stageBits packet st (128 + 48 * n + 40) (128 + 48 * n + 38)

/-- The highest level of a stage's fields that are not loops (16 R325). -/
def topLevel (packet : BitVec 11264) (st : Nat) : Nat :=
  ((List.range (stageBits packet st 125 123)).filterMap fun n =>
    if fieldPlace packet st n < 5 then some (fieldPlace packet st n) else none).foldl max 0

/-- The number of the unit of a pool stage that holds a core (16 R326). -/
def Stage.unitOf (st : Stage) (lv : Nat) (k : CoreId) : Option Nat := (st.units.find? fun e => e.2 == unitKey lv k).map (·.1)

/-- The cores of a stage that run a context, in allotment order (R295). -/
def Stage.victims (st : Stage) (lv : Nat) : List CoreId :=
  sortBy (fun k => ((st.unitOf lv k).getD (2 ^ 17)) * 2 ^ 40 + placeKey k) st.running

/-- Whether a core's steal unit runs: a context is blocked in TASKGET, and deque and overflow ring are empty (R295). At a halt, and
in a parked context, the TASKGET waits to be executed again (17 Table 17.1, 18 R374), and no context is blocked in it. -/
def Core.steals (k : Core) : Bool :=
  (k.status == .running || k.status == .halting) && k.deque.isEmpty && k.ovfTop == 0 && k.probe.isNone && k.live.any fun i =>
    !(k.ctxs[i]).parked &&
      match (k.ctxs[i]).blocked with
      | some b => (match b.instr with | .taskget _ => true | _ => false)
      | none => false

/-- STEAL_PROBE (R295): draw a victim; a draw of the core itself sends no probe. -/
def execStealProbe (k : CoreId) (s : State) : Host.Outcome State Fault Refusal :=
  let c := s.core k
  match s.stageOf k with
  | none => .next s
  | some (_, l, n, st) =>
    if !c.steals then .next s
    else
      let x := xorshift c.steal
      let vs := st.victims (topLevel l.packet n)
      let v := vs[x.toNat % vs.length]?
      .next (s.setCore k { c with steal := x, probe := if v = some k then none else v })

/-- What a victim gives up: what it keeps, what moves, and whether C rises (R295). -/
def stealFrom (d : List (BitVec 256)) : List (BitVec 256) × List (BitVec 256) × Bool :=
  if 2 ≤ d.length then (d.drop (d.length / 2), d.take (d.length / 2), false)
  else match d with
    | [e] =>
      let g := (taskHi e - taskLo e + taskGrain e - 1) / taskGrain e
      if taskRange e ∧ 2 ≤ g then
        let mid := taskLo e + (g + 1) / 2 * taskGrain e
        ([taskWith e (taskLo e) mid], [taskWith e mid (taskHi e)], true)
      else (d, [], false)
    | _ => (d, [], false)

/-- STEAL_RESPONSE (R295): the probed victim's deque unit answers core k; the probe fails where the victim has left the stage, or the
thief is off. What moves enters the thief's deque however full it is by then (log 38). A probe or answer at a fenced core waits (20
R391), and in replay mode a grant waits for its turn. -/
def execStealResponse (k : CoreId) (s : State) : Host.Outcome State Fault Refusal :=
  let c := s.core k
  match c.probe with
  | none => .next s
  | some v =>
    let (keep, move, split) := stealFrom (s.core v).deque
    if c.status = .fenced || (s.core v).status = .fenced then .next s
    else if move.isEmpty || (s.core v).job != c.job || c.status = .off then .next (s.setCore k { c with probe := none })
    else
      match s.dequeEvent { core := v, num := 0 } 2 move.length (coreIdBits { core := k, num := 0 }) with
      | none => .next s
      | some t =>
        let t := t.setCore v { t.core v with deque := keep }
        let c := t.core k
        let t := t.setCore k { c with deque := c.deque ++ move, probe := none }
        .next (if split then t.addWork v else t)

/-- SPAWN_TIMEOUT (R291): a waiting SPAWN or SPAWNAT looks at its deque, ring and limit again. -/
def execSpawnTimeout (c : CtxId) (s : State) : Host.Outcome State Fault Refusal :=
  retry c (fun i => match i with | .spawn x => some (execSpawn x) | .spawnat x => some (execSpawnat x) | _ => none) s

/-- TASKGET_TIMEOUT (R294). -/
def execTaskgetTimeout (c : CtxId) (s : State) : Host.Outcome State Fault Refusal :=
  retry c (fun i => match i with | .taskget x => some (execTaskget x) | _ => none) s

/-- RGTAKE_TIMEOUT (R300). -/
def execRgtakeTimeout (c : CtxId) (s : State) : Host.Outcome State Fault Refusal :=
  retry c (fun i => match i with | .rgtake x => some (execRgtake x) | _ => none) s

end Sys2Proof.Machine
end

