-- ==== Sys2Proof/Machine/Messages.lean ====
section
/-! DEFINITION. Ranks, messages and collective groups: the MSG major (13 R302 to R312). -/

namespace Sys2Proof.Machine

/-! ## Ranks (R302, R303) -/

/-- The launch of the acting context, with its number. -/
def State.myLaunch (s : State) : Option (Nat × Launch) := (s.stageOf s.cur.core).map fun x => (x.1, x.2.1)

/-- The rank table of the acting context's launch; empty outside every launch. -/
def State.myRanks (s : State) : List RankEntry := (s.myLaunch.map fun x => x.2.ranks).getD []

/-- The rank of a context, or all ones (R303); a context that starts where a ranked one has ended has none (16 R327). -/
def rankIn (c : CtxId) (rs : List RankEntry) : Word :=
  match rs.findIdx? fun e => e.ctx == c && !e.ended with
  | some n => BitVec.ofNat 64 n
  | none => 0xFFFFFFFFFFFFFFFF#64

/-- A rank table entry as read: bits 27:0 and T (R302). -/
def RankEntry.word (e : RankEntry) : Word := BitVec.ofNat 64 (e.transit.toNat * 2 ^ 63 + coreIdBits e.ctx)

/-- The entry of a rank that the acting context may name: within the rank table, and of its own partition (R290). -/
def State.rankEntry (s : State) (n : Nat) : Option RankEntry :=
  (s.myRanks[n]?).filter fun e => s.owner e.ctx.core == s.owner s.cur.core

/-- RANK (R303). -/
def execRank (x : XForm) (s : State) : Host.Outcome State Fault Refusal :=
  finish 2 (.ok (s.setMe (s.me.setS x.d (rankIn s.cur s.myRanks))))

/-- RANK.n (R303). -/
def execRankN (x : XForm) (s : State) : Host.Outcome State Fault Refusal :=
  finish 2 (.ok (s.setMe (s.me.setS x.d (BitVec.ofNat 64 s.myRanks.length))))

/-- RANK.of (R303). -/
def execRankOf (x : XForm) (s : State) : Host.Outcome State Fault Refusal :=
  finish 2
    (match s.rankEntry (s.me.getS x.a).toNat with
     | some e => .ok (s.setMe (s.me.setS x.d e.word))
     | none => engineFault s 0 6)

/-! ## Messages (R304, R305) -/

/-- SEND (R304): held while the core's send buffer is full. The rank is checked at issue alone. -/
def execSend (x : XForm) (s : State) : Host.Outcome State Fault Refusal :=
  let dest := (s.me.getS x.a).toNat
  let k := s.myCore
  let m : Msg := { payload := s.me.getV x.b, source := (rankIn s.cur s.myRanks).setWidth 32, tag := x.e2.setWidth 16 }
  finish 2
    (if s.me.blocked.isNone && (s.rankEntry dest).isNone then engineFault s 0 6
     else if 8 ≤ k.sendBuf.length then .error (.hold (s.blockIn (.send x) none 0))
     else
       let j := (s.myLaunch.map (·.1)).getD 0
       .ok (s.setMyCore { k with sendBuf := k.sendBuf ++ [{ launch := j, sender := s.cur, rank := dest, msg := m }] }))

/-- RECV (R305): C names the source register. -/
def execRecv (x : XForm) (s : State) : Host.Outcome State Fault Refusal :=
  let sc := x.e1.extractLsb' 0 5
  let d := s.deadline (s.me.getS x.a)
  let t := s.blockIn (.recv x) (some d) 0
  finish 2
    (match s.me.mailbox with
     | m :: ms =>
       .ok (s.setMe ((({ s.me with mailbox := ms }.setV x.d m.payload).setS sc
         (BitVec.ofNat 64 (m.source.toNat * 2 ^ 16 + m.tag.toNat))).dropSpec))
     | [] =>
       match s.timesOut (s.expired d) with
       | some u => .ok (u.setMe (u.me.setS sc 0xFFFFFFFFFFFFFFFF#64).dropSpec)
       | none => .error (.hold t))

/-- Whether the context of a rank of a partition can take a message now: no other has started in its place, its core is the
partition's and is not saved, off or fenced, and its mailbox has a free entry (R304, 17 R345, R356, 20 R391); it need not be live
(log 31). -/
def State.takesMessage (s : State) (p : Nat) (e : RankEntry) : Bool :=
  let k := s.core e.ctx.core
  !e.ended && s.owner e.ctx.core == some p && k.status != .saved && k.status != .off && k.status != .fenced &&
    decide ((s.ctx e.ctx).mailbox.length < 4)

/-- MESSAGE_DELIVERY (R302, R304): the n-th buffered message of a core, behind no earlier message of its sender to the
same rank, whose entry is not in transit. -/
def execMessageDelivery (k : CoreId) (n : Nat) (s : State) : Host.Outcome State Fault Refusal :=
  let c := s.core k
  match c.sendBuf[n]?, c.sendBuf[n]?.bind fun m => s.launch? m.launch with
  | some m, some l =>
    match l.ranks[m.rank]? with
    | some e =>
      let earlier := (c.sendBuf.take n).any fun o => o.launch == m.launch && o.sender == m.sender && o.rank == m.rank
      if earlier || e.transit || !s.takesMessage l.part e || c.status == .fenced then .next s
      else
        let go (t : State) : State :=
          let t := t.setCore k { t.core k with sendBuf := c.sendBuf.eraseIdx n }
          t.setCtx e.ctx { t.ctx e.ctx with mailbox := (t.ctx e.ctx).mailbox ++ [m.msg] }
        let w := coreIdBits e.ctx
        match s.event l.part 8 w w m.msg.source.toNat m.msg.tag.toNat fun r => recType r == 8 && recWho r == w with
        | some t => .next (go t)
        | none => .next s
    | none => .next s
  | _, _ => .next s

/-- RECV_TIMEOUT (R305). -/
def execRecvTimeout (c : CtxId) (s : State) : Host.Outcome State Fault Refusal :=
  retry c (fun i => match i with | .recv x => some (execRecv x) | _ => none) s

/-! ## Groups (R306 to R309) -/

/-- A group of a launch. -/
def Launch.group (l : Launch) (g : Nat) : GroupId := lookup GroupId.reset g l.groups

/-- Replace a group of a launch. -/
def State.setGroup (s : State) (j g : Nat) (x : GroupId) : State :=
  match s.launch? j with
  | none => s
  | some l => s.setLaunch j { l with groups := store g x l.groups }

/-- Whether every index of the generation is joined. -/
def GroupId.full (g : GroupId) : Bool := !g.members.isEmpty && decide (g.size ≤ g.members.length)

/-- Whether an id is draining: every member has joined, and some have freed (R306, R308). -/
def GroupId.drains (g : GroupId) : Bool := g.full && !g.frees.isEmpty

/-- A join of a generation (R306): the first member sets the size; another size, an index already taken or outside the
size makes the generation mismatch. -/
def GroupId.join (g : GroupId) (c : CtxId) (i n : Nat) : GroupId :=
  let first := g.members.isEmpty
  { g with
    size := if first then n else g.size
    members := g.members ++ [(c, i)]
    mismatch := g.mismatch || decide (n ≤ i) || (!first && g.size != n) || g.members.any fun m => m.2 == i }

/-- GRPJOIN (R306). -/
def execGrpjoin (x : XForm) (s : State) : Host.Outcome State Fault Refusal :=
  let g := bits (s.me.getS x.a).toNat 7 0
  let i := bits (s.me.getS x.b).toNat 31 16
  let n := bits (s.me.getS x.b).toNat 15 0
  finish 2
    (match s.myLaunch with
     | none => engineFault s 0 6
     | some (j, l) =>
       let q := l.group g
       if 4 ≤ s.me.groups.length then engineFault s 0 6
       else if q.drains then .error (.hold (s.blockIn (.grpjoin x) none 0))
       else
         let t := s.setGroup j g (q.join s.cur i n)
         let m := t.me
         let mb : Membership := { group := g, gen := q.gen, index := i, size := n, round := 0 }
         .ok (t.setMe (Context.setS { m with groups := m.groups ++ [mb] } x.d (BitVec.ofNat 64 q.gen))))

/-- Deliver a fault that stopped the collective timeline: taking the trap advances it to the last accepted number and
discards the member's outstanding parts (R312, 07 R188). A double trap is no trap taken (04 R117). -/
def State.deliverColl (s : State) : Run Unit :=
  match s.me.collTl.fault with
  | none => .ok ()
  | some t =>
    if s.me.tinh then .error (.trap t s)
    else
      let m := s.me
      let u := s.setMe { m with collTl := { m.collTl with value := m.collTl.last, fault := none } }
      match u.myLaunch with
      | none => .error (.trap t u)
      | some (j, l) =>
        let drop (g : GroupId) : GroupId := { g with parts := g.parts.filter fun p => p.ctx != s.cur }
        .error (.trap t (u.setLaunch j { l with groups := l.groups.map fun (e : Nat × GroupId) => (e.1, drop e.2) }))

/-- The collective timeline of a context: every command below its oldest outstanding part is complete, and all of them
without one (R307, R308). -/
def State.settleColl (s : State) (j : Nat) (c : CtxId) : State :=
  match s.launch? j with
  | none => s
  | some l =>
    let m := s.ctx c
    let open_ := (l.groups.flatMap fun (e : Nat × GroupId) => e.2.parts).filter fun p => p.ctx == c
    let v := match leastBy (fun p : CollPart => p.seq) open_ with
      | some p => p.seq - 1
      | none => m.collTl.last
    s.setCtx c { m with collTl := { m.collTl with value := v } }

/-- Take the next number on the collective timeline. -/
def State.collNumber (s : State) : Nat × State :=
  let m := s.me
  let n := m.collTl.last + 1
  (n, s.setMe { m with collTl := { m.collTl with last := n } })

/-- COLL (R307): MOD is the rule, A the contribution, B the group, C the destination. -/
def execColl (x : XForm) (s : State) : Host.Outcome State Fault Refusal :=
  let g := bits (s.me.getS x.b).toNat 7 0
  let given := s.me.getS (x.e1.extractLsb' 0 5)
  let dst := absForm s.cur.core given
  finish 2
    (s.deliverColl.bind fun _ =>
      match s.myLaunch, s.me.groups.find? fun m => m.group == g with
      | some (j, l), some mb =>
        (s.checkAccess .store given 64 64).map fun _ =>
          let n := s.collNumber
          let part : CollPart :=
            { ctx := s.cur, index := mb.index, round := mb.round, seq := n.1, mode := x.mod, value := s.me.getV x.a,
              dst := dst, pages := s.pagePair s.cur.core s.me.sup .store dst }
          let q := l.group g
          let t := n.2.setGroup j g { q with parts := q.parts ++ [part] }
          let m := t.me
          let up (o : Membership) : Membership := if o.group == g then { o with round := o.round + 1 } else o
          t.setMe (Context.setS { m with groups := m.groups.map up } x.d (BitVec.ofNat 64 n.1))
      | _, _ => engineFault s 0 6)

/-- GRPFREE (R308): the member leaves; its command is complete once every earlier COLL of it is. -/
def execGrpfree (x : XForm) (s : State) : Host.Outcome State Fault Refusal :=
  let g := bits (s.me.getS x.a).toNat 7 0
  finish 2
    (s.deliverColl.bind fun _ =>
      match s.myLaunch with
      | none => engineFault s 0 6
      | some (j, l) =>
        if !(s.me.groups.any fun m => m.group == g) then engineFault s 0 6
        else
          let n := s.collNumber
          let q := l.group g
          let t := n.2.setGroup j g { q with frees := q.frees ++ [s.cur] }
          let m := t.me
          let left := m.groups.filter fun (o : Membership) => o.group != g
          .ok ((t.setMe (Context.setS { m with groups := left } x.d (BitVec.ofNat 64 n.1))).settleColl j s.cur))

/-! ## Rounds (R307, R311, R312) -/

/-- The combination of 32-bit lanes by a rule (R311); a sum of .f32 is exact and rounded once. -/
def combineLane (mode : Nat) (xs : List Nat) : Nat :=
  let t : IntTy := { signed := true, w := 32 }
  let pick (better : Int → Int → Bool) : List Nat → Nat
    | [] => 0
    | y :: ys => ys.foldl (fun a b => if better (t.val b) (t.val a) then b else a) y
  match mode with
  | 0 => xs.foldl (fun a b => (a + b) % 2 ^ 32) 0
  | 1 => (fpSum .f32 .rne .final xs).1
  | 2 => pick (fun a b => decide (a < b)) xs
  | 3 => pick (fun a b => decide (b < a)) xs
  | _ => xs.headD 0

/-- The combined contributions of a round, members in index order (R311). -/
def combine (mode : Nat) (parts : List CollPart) : VWord :=
  let ps := sortBy (·.index) parts
  ofLanes 32 ((List.range 16).map fun i => combineLane mode (ps.map fun p => laneOf 32 p.value i))

/-- The parts of the oldest round outstanding. -/
def GroupId.oldest (g : GroupId) : List CollPart :=
  match leastBy (fun p : CollPart => p.round) g.parts with
  | none => []
  | some p => g.parts.filter fun q => q.round == p.round

/-- A member's timeline stops before its command with reason 15 (R312). -/
def State.stopColl (s : State) (p : CollPart) : State :=
  let m := s.ctx p.ctx
  match m.collTl.fault with
  | some _ => s
  | none => s.setCtx p.ctx { m with collTl := { m.collTl with fault := some { cause := .engineFault, tval := engineTval p.seq 0 15 } } }

/-- Write the combined value to a member's destination (R307). -/
def State.writePart (s : State) (v : VWord) (p : CollPart) : State :=
  (s.enginePut (s.owner p.ctx.core) (engineAddr p.pages p.dst) 64 v.toNat).engineWrites p.ctx.core.die [(engineAddr p.pages p.dst, 64)]

/-- COLL_ROUND_COMPLETE (R307, R312): all members have issued the oldest round; results are written and commands
complete, or a mismatch stops them. In a generation whose joins mismatch, round 0 stops as its parts come. -/
def execCollRoundComplete (launch group : Nat) (s : State) : Host.Outcome State Fault Refusal :=
  match s.launch? launch with
  | none => .next s
  | some l =>
    let g := l.group group
    let ps := g.oldest
    let modes := ps.map (·.mode)
    if g.mismatch then .next (ps.foldl State.stopColl s)
    else if ps.length < g.size || ps.isEmpty then .next s
    else if ps.any fun p => s.rangesBusy p.ctx.core.die [(engineAddr p.pages p.dst, 64)] ||
        (s.core p.ctx.core).status = .fenced || s.portDead [(engineAddr p.pages p.dst, 64)] then .next s
    else if modes.any fun m => m != modes.headD 0 then .next (ps.foldl State.stopColl s)
    else
      let v := combine (modes.headD 0).toNat ps
      let t := ps.foldl (State.writePart · v) s
      let t := t.setGroup launch group { g with parts := g.parts.filter fun p => !ps.contains p }
      .next (ps.foldl (fun t p => t.settleColl launch p.ctx) t)

/-- GROUP_GENERATION_DRAIN (R308, R309): every member has freed and nothing of the generation is left, so the id is free
at the next generation number. -/
def execGroupGenerationDrain (launch group : Nat) (s : State) : Host.Outcome State Fault Refusal :=
  match s.launch? launch with
  | none => .next s
  | some l =>
    let g := l.group group
    if g.full && g.parts.isEmpty && decide (g.members.length ≤ g.frees.length) then
      .next (s.setGroup launch group { GroupId.reset with gen := g.gen + 1 })
    else .next s

end Sys2Proof.Machine
end

