-- ==== Sys2Proof/Machine/Copy.lean ====
section
/-! DEFINITION. Copies, batches, windows and timelines: the COPY major (11 R251 to R269). -/

namespace Sys2Proof.Machine

/-! ## Copy contexts -/

/-- The command queue of a copy context (Table 11.1). -/
def State.copyQueue (s : State) (c : CtxId) : List CopyCmd := lookup [] c (s.hive (coreHive c.core)).copies

/-- Replace the command queue of a copy context. -/
def State.setCopyQueue (s : State) (c : CtxId) (q : List CopyCmd) : State :=
  let h := s.hive (coreHive c.core)
  s.setHive (coreHive c.core) { h with copies := store c q h.copies }

/-- Deliver a fault that stopped the copy timeline: taking the trap sets the timeline to the last issued number and
empties the sealed-batch list and the queue (R262). A double trap is no trap taken (04 R117). -/
def State.deliverCopy (s : State) : Run Unit :=
  match s.me.copyTl.fault with
  | none => .ok ()
  | some t =>
    if s.me.tinh then .error (.trap t s)
    else
      let m := s.me
      let u := s.setMe { m with copyTl := { m.copyTl with value := m.copyTl.last, fault := none }, batches := [] }
      .error (.trap t (u.setCopyQueue s.cur []))

/-- Queue a command with the next number; S[D] receives it (R258). -/
def State.queueCopy (s : State) (d : Reg) (kind : CopyKind) (r : BitVec 1024) (pages : List (Nat × Nat)) : State :=
  let m := s.me
  let n := m.copyTl.last + 1
  let t := s.setMe ({ m with copyTl := { m.copyTl with last := n } }.setS d (BitVec.ofNat 64 n))
  t.setCopyQueue s.cur (t.copyQueue s.cur ++ [{ seq := n, kind := kind, record := r, pages := pages, done := 0 }])

/-- Whether the acting context's queue has a free entry. -/
def State.copyRoom (s : State) : Bool := decide ((s.copyQueue s.cur).length < 16)

/-- The window accesses of an acceptance (R265, R266). -/
def State.touchRecord (s : State) (n : Nat) : List RecAccess → Run Unit
  | [] => .ok ()
  | x :: xs => (s.touchAt x.target n).bind fun _ => s.touchRecord n xs

/-- A record in a register pair (R253). -/
def Context.record (m : Context) (a : Reg) : BitVec 1024 := m.getV (a + 1) ++ m.getV a

/-- COPY (R258). -/
def execCopy (x : XForm) (s : State) : Host.Outcome State Fault Refusal :=
  let k := s.cur.core
  let r := s.me.record x.a
  finish 2
    (if !s.copyRoom then .error (.hold (s.blockIn (.copy x) none 0))
     else match s.checkRecord k s.me.sup r false 0 with
       | .error (d, v) => denied s d v
       | .ok pages => (s.touchRecord (recEs r) (recAccesses k r)).map fun _ => s.queueCopy x.d .copy (recAbs k r) pages)

/-- CSEAL (R260). -/
def execCseal (x : XForm) (s : State) : Host.Outcome State Fault Refusal :=
  finish 2
    (if decide (16 ≤ s.me.batches.length) || !s.copyRoom then .error (.hold (s.blockIn (.cseal x) none 0))
     else
       let t := s.queueCopy x.d .seal 0 []
       .ok (t.setMe { t.me with batches := t.me.batches ++ [t.me.copyTl.last] }))

/-- CWAIT (R261). -/
def execCwait (x : XForm) (s : State) : Host.Outcome State Fault Refusal :=
  finish 2
    (s.deliverCopy.bind fun _ =>
      if s.me.batches.length ≤ x.mod.toNat then .ok (s.setMe (s.me.dropSpec.setS x.d (BitVec.ofNat 64 s.me.copyTl.value)))
      else .error (.hold (s.blockIn (.cwait x) none 0)))

/-! ## Windows (R263 to R268) -/

/-- The window an instruction names: MOD<2:0>. -/
def XForm.win (x : XForm) : Fin 8 := ⟨bits x.mod.toNat 2 0, Nat.mod_lt _ (by decide)⟩

/-- Whether the destination bytes of a record lie in a range of local offsets (R264). -/
def destWithin (r : BitVec 1024) (base size : Nat) : Bool :=
  (List.range (recTotal r)).all fun i =>
    match shiftAddr (recDst r) (recElem r i).dst with
    | some a => decide (base ≤ bits a.toNat 18 0) && decide (bits a.toNat 18 0 + recEs r ≤ base + size)
    | none => false

/-- Whether a binding breaks R264 (reason 9). -/
def State.badBinding (s : State) (w : Fin 8) (r : BitVec 1024) (base size : Nat) : Bool :=
  let k := s.cur.core
  let a := recAbs k r
  base % 64 ≠ 0 || size % 64 ≠ 0 || decide (0x80000 < base + size) ||
  (windows.any fun v => v != w && (s.myCore.wins[v]).state != 0 &&
    rangesMeet base size (s.myCore.wins[v]).base (s.myCore.wins[v]).size) ||
  k.big || (recDst a).toNat ≠ localAddr k base || !destWithin a base size

/-- WINSET (R264): S[B]<18:0> is BASE, S[B]<39:20> SIZE. -/
def winset (w : Fin 8) (out : Bool) (r : BitVec 1024) (binding : Word) (i : Instr) (s : State) : Run State :=
  let x := s.myCore.wins[w]
  let base := bits binding.toNat 18 0
  let size := bits binding.toNat 39 20
  if x.state = 2 then .error (.hold (s.blockIn i none 0))
  else if size = 0 then .ok (s.setWin w { x.with 0 x.dirty with fault := none })
  else if !recValid r then engineFault s 0 8
  else if s.badBinding w r base size then engineFault s w.val 9
  else .ok (s.setWin w { word := windowWord (if out then 3 else 1) false out 0 size base, record := r, load := none, fault := none })

/-- WINSET and WINSET.out. -/
def execWinset (x : XForm) (s : State) : Host.Outcome State Fault Refusal :=
  finish 2 (winset (XForm.win x) (x.mod.getLsbD 3) (s.me.record x.a) (s.me.getS x.b) (.winset x) s)

/-- The record of a write-out: SRC and DST exchanged with their strides, pack and unpack exchanged, FILL kept (R267). -/
def writeOutRecord (r : BitVec 1024) : BitVec 1024 :=
  let mode : BitVec 2 := if recMode r = 1 then 2 else if recMode r = 2 then 1 else 0
  r.extractLsb' 388 636 ++ mode ++ r.extractLsb' 384 2 ++ r.extractLsb' 192 96 ++ r.extractLsb' 288 96 ++
    r.extractLsb' 128 64 ++ recSrc r ++ recDst r

/-- The accepted commands and shipped atomics of a core's contexts that have yet to write bytes of a range (R267). -/
def State.earlierWrites (s : State) (k : CoreId) (base size : Nat) : List Earlier :=
  let h := s.hive (coreHive k)
  let meets (ws : List (Nat × Nat)) : Bool := ws.any fun w => rangesMeet base size w.1 w.2
  ((ctxsOf k).flatMap fun c =>
    ((lookup [] c h.copies).filter fun d => meets d.ranges.2).map (fun d => Earlier.copy c d.seq) ++
    ((lookup MatCtx.reset c h.mats).queue.filter fun d => meets d.writes).map (fun d => Earlier.matrix c d.seq) ++
    ((h.arriving ++ h.queue).filter fun q => q.sender == c &&
      (match q.work with | .atomic j => meets [(j.addr, j.size)] | .float _ => false)).map
        fun q => Earlier.atomic c q.tag).filter s.outstanding

/-- Issue the write-out of a dirty window, as a snapshot of its range (R267): checked first, precise. It reads the range at
once, or, where earlier commands have yet to write there, after them. -/
def writeOut (w : Fin 8) (i : Instr) (d : Reg) (s : State) : Run State :=
  let x := s.myCore.wins[w]
  let r := writeOutRecord x.record
  if !s.copyRoom then .error (.hold (s.blockIn i none 0))
  else match s.checkRecord s.cur.core s.me.sup r true w.val with
    | .error (e, v) => denied s e v
    | .ok pages =>
      let base := localAddr s.cur.core x.base
      let after := s.earlierWrites s.cur.core base x.size
      let data := if after.isEmpty then some (s.snapshot base x.size) else none
      .ok (s.queueCopy d (.writeOut w base x.size after data) (recAbs s.cur.core r) pages)

/-- SRC + ADV (R267). -/
def recNext (r : BitVec 1024) : BitVec 1024 := recWith r (recSrc r + r.extractLsb' 512 64) (recDst r)

/-- Move a window to its next tile (R267). -/
def Window.advance (x : Window) : Window :=
  { x with word := windowWord (if x.out then 3 else 1) false x.out (x.tile + 1) x.size x.base, record := recNext x.record,
           fault := none }

/-- S[D] := last issued copy number. -/
def State.lastCopy (s : State) (d : Reg) : State := s.setMe (s.me.setS d (BitVec.ofNat 64 s.me.copyTl.last))

/-- WINADV and WINADV.wb (R267). -/
def execWinadv (x : XForm) (s : State) : Host.Outcome State Fault Refusal :=
  let w := XForm.win x
  let v := s.myCore.wins[w]
  finish 2
    (if v.state = 0 then engineFault s w.val 10
     else if v.state = 2 then .error (.hold (s.blockIn (.winadv x) none 0))
     else (if x.mod.getLsbD 3 && v.dirty then writeOut w (.winadv x) x.d s else .ok (s.lastCopy x.d)).map fun t =>
       State.setWin t w v.advance)

/-- WINFLUSH (R268). -/
def execWinflush (x : XForm) (s : State) : Host.Outcome State Fault Refusal :=
  let w := XForm.win x
  let v := s.myCore.wins[w]
  finish 2
    (if v.state = 0 then engineFault s w.val 10
     else if v.state = 2 then .error (.hold (s.blockIn (.winflush x) none 0))
     else if v.state = 3 && v.dirty then (writeOut w (.winflush x) x.d s).map fun t => State.setWin t w (v.with 3 false)
     else .ok (s.lastCopy x.d))

/-- The timeline of a code (R259, 08 Table 8.3): 0 copy, 1 matrix, 2 collective. -/
def Context.timeline (m : Context) (t : Nat) : Timeline :=
  match t with
  | 0 => m.copyTl | 1 => m.matTl | _ => m.collTl

/-- TLGET (R259). -/
def execTlget (x : XForm) (s : State) : Host.Outcome State Fault Refusal :=
  let t := s.me.timeline (bits x.mod.toNat 1 0)
  finish 2 (.ok (s.setMe (s.me.setS x.d (BitVec.ofNat 64 (if x.mod.getLsbD 2 then t.last else t.value)))))

end Sys2Proof.Machine
end

