-- ==== Sys2Proof/Machine/Fetch.lean ====
section
/-! DEFINITION. Fetch and the instruction cache, and the issue slots of a core (01 R17, 02 R28 to R32, 06 R153, 18 R379, 19
R380). -/

namespace Sys2Proof.Machine

/-! ## Fetch (02 R28 to R32) -/

/-- One byte of code: from the core's instruction cache when it holds the byte, else from memory (02 R32). -/
def State.codeByte (s : State) (k : CoreId) (a : Nat) : Byte :=
  match (s.core k).icache.find? fun e => e.1 == a with
  | some e => e.2
  | none => s.byte a

/-- Whether a code word cannot be read: a faulty home copy that no cache covers (20 R385). -/
def State.codePoison (s : State) (k : CoreId) (a : Nat) : Bool :=
  [0, 1, 2, 3].any fun j => (s.poison (a + j) 1).isSome && ((s.core k).icache.find? fun e => e.1 == a + j).isNone

/-- Fetch one word (02 R30); the partition's shootdown port is no exception to it (log 63). -/
def State.fetchWord (s : State) (va : Word) : Run IWord :=
  (s.translate .fetch va).bind fun a =>
    if s.codePoison s.cur.core a then trapAt (s.logFound a) .access va
    else
      let b (j : Nat) : Byte := s.codeByte s.cur.core (a + j)
      .ok (b 3 ++ b 2 ++ b 1 ++ b 0)

/-- Fetch the words at va and after, n of them. -/
def State.fetchMore (s : State) (va : Word) : Nat → Run (List IWord)
  | 0 => .ok []
  | n + 1 => (s.fetchWord va).bind fun w => (s.fetchMore (va + 4) n).map fun ws => w :: ws

/-- The words of the instruction at the program counter: word 0, then as many as its LEN gives (02 R29, R30). -/
def State.fetch (s : State) : Run (List IWord) :=
  (s.fetchWord s.me.pc).bind fun w =>
    (s.fetchMore (s.me.pc + 4) (lenWords (w.extractLsb' 0 2) - 1)).map fun ws => w :: ws

/-! ## The instruction cache (02 R32, 01 Table 1.1, 19 R380) -/

/-- Whether an instruction cache holds the line of a resolved address. -/
def Core.holdsCode (k : Core) (a : Nat) : Bool := k.icache.any fun e => e.1 / 128 == a / 128

/-- Drop a line from an instruction cache; lines kept for a transfer phase stay (19 R380). -/
def State.dropCode (s : State) (k : CoreId) (a : Nat) : State :=
  let c := s.core k
  if c.pinned.contains (a / 128) then s
  else s.setCore k { c with icache := c.icache.filter fun e => e.1 / 128 != a / 128 }

/-- Resolved addresses of the lines that hold any of the 256 bytes from va on, those that translate (19 R380; log 114). -/
def State.phaseLines (s : State) (va : Word) : List Nat :=
  ((List.range 5).filterMap fun j =>
    match s.translate .fetch (va + BitVec.ofNat 64 (min (64 * j) 255)) with
    | .ok a => if cacheable a then some (a / 128) else none
    | .error _ => none).eraseDups

/-- PHASE first brings the lines of the 256 bytes after it into the instruction cache, and they stay until the next arrival (19
R380). -/
def State.pinPhase (s : State) (va : Word) : State :=
  let ls := s.phaseLines va
  let t := ls.foldl (fun (t : State) l => if (t.core s.cur.core).holdsCode (128 * l) then t else t.fillCode s.cur.core (128 * l)) s
  t.setMyCore { t.myCore with pinned := ls }

/-- At any arrival the lines kept for a transfer phase may go again. -/
def State.unpin (s : State) : State := s.setMyCore { s.myCore with pinned := [] }

/-! ## Issue slots (01 R17) -/

/-- Whether an instruction belongs to the vector slot: its major is VINT, VINTI, VPERM, PRED, FPS, FPV, FMA, FCVT, XFN, VLD, VST
or VGATH (01 R17). -/
def inVectorSlot (i : Instr) : Bool :=
  match i.payload with
  | some (.v _ _ _) => true
  | some (.m major _) => major == 15 || major == 16
  | _ => false

/-- Whether a core runs a context of a launch. -/
def Core.busy (k : Core) : Bool := (k.status == .running || k.status == .halting) && k.parkedSince.isNone && !k.live.isEmpty

/-- Whether the big core of a hive is in a guest cycle (06 R153). -/
def State.guestCycle (s : State) (h : HiveId) : Bool :=
  let k := s.core (bigCore h)
  !k.busy || decide (k.cycles % (s.hive h).gshareM < (s.hive h).gshareK)

/-- What issued in the present die clock cycle of a big core: own contexts and guests. -/
def State.slotsNow (s : State) (h : HiveId) : List (Fin 11) × Nat :=
  if (s.hive h).slotCycle = s.dieCycle then ((s.hive h).issued, (s.hive h).guests) else ([], 0)

/-- Whether a big core has one of its four issue slots left in this cycle (01 R17). -/
def State.slotFree (s : State) (h : HiveId) : Bool := decide ((s.slotsNow h).1.length + (s.slotsNow h).2 < 4)

/-- The window access of a guest entry: a wide atomic's on the local memory of its sender's core (11 R265); one that a write-out waits
for performs on the range as it stands (R267). -/
def State.guestTouch (s : State) (p : Packet) : Run State :=
  match p.work with
  | .float _ => .ok s
  | .atomic j =>
    if s.readsAfter p.sender.core (.atomic p.sender p.tag) then .ok s
    else ({ s with cur := p.sender } : State).touch j.addr j.size

/-- Whether a guest entry is ready: it carries its operands, and an atomic's line is not busy, its array can be reached, and its window
access need not wait (06 R153, 10 R248, 11 R266, 20 R391). -/
def State.guestReady (s : State) (h : HiveId) (p : Packet) : Bool :=
  match p.work with
  | .float _ => true
  | .atomic j => !s.portDead [(j.addr, j.size)] && !s.rangesBusy h.die [(j.addr, j.size)] &&
      (match s.guestTouch p with | .error (.hold _) => false | _ => true)

/-- Whether a guest entry goes before the big core's own contexts: a ready one in a guest cycle, and an aged one in every cycle (06
R153). -/
def State.guestFirst (s : State) (h : HiveId) : Bool :=
  (s.hive h).queue.any fun p => (p.aged || s.guestCycle h) && s.guestReady h p

/-- Whether the acting context's next instruction is ready: the context may issue, is not blocked, and waits for no landing, no
busy line and no credit. It answers the instruction's slot; a fetch that traps and an illegal encoding take the scalar one. -/
def State.ready (s : State) : Option Bool :=
  if !s.mayIssue || s.me.blocked.isSome || s.me.creditWait || decide (s.myCore.cycles < s.me.nextIssue) then none
  else
    match s.fetch with
    | .ok ws =>
      (match decode ws with
       | .ok i => if hazard s.me i || s.linesBusy i then none else some (inVectorSlot i)
       | .error _ => some false)
    | .error (.trap _ _) => some false
    | .error (.hold _) => none

/-- Another context of the acting core as the acting one. -/
def State.at (s : State) (i : Fin 11) : State := { s with cur := { s.cur with num := i } }

/-- Half rate after a droop trip: for 64 cycles after the 6 stretched ones a slot issues in every second cycle, starting with the
first (18 R379). -/
def Core.halved (k : Core) : Bool :=
  match k.droop with
  | some t => decide (t + 7 ≤ k.cycles) && decide (k.cycles < t + 71) && (k.cycles - (t + 7)) % 2 == 1
  | none => false

/-- How far a context lies behind the one that a round-robin pointer names, cyclically over the 11 numbers (01 R17). -/
def behind (turn : Nat) (i : Fin 11) : Nat := (i.val + 11 - turn % 11) % 11

/-- The order in which contexts take a slot: one that a release has let go on first (12 R274), then from the slot's pointer on (01
R17). -/
def Core.slotOrder (k : Core) (turn : Nat) (i : Fin 11) : Nat := if (k.ctxs[i]).wakeAt.isSome then 0 else 1 + behind turn i

/-- Whether a little core's slot is the acting context's now: not yet filled in this cycle, no ready context of that slot comes before
it, and no phase starts at the core in this cycle that has not started yet (01 R17, 12 R274). -/
def State.littleSlot (s : State) (vec : Bool) : Bool :=
  let k := s.myCore
  let turn := if vec then k.vectorTurn else k.scalarTurn
  (if vec then k.vectorAt else k.scalarAt) != some k.cycles && !k.halved &&
    (k.bgs.toList.all fun b => !(b.startAt.any fun r => decide (r ≤ s.dieCycle))) &&
    ctxNums.all fun i => decide (k.slotOrder turn s.cur.num ≤ k.slotOrder turn i) || (s.at i).ready != some vec

/-- Whether the acting context of a big core may take a slot now: guest entries go first in a guest cycle, and an aged entry in
every cycle (06 R153); own contexts take slots round-robin over their numbers (01 R408). -/
def State.bigSlot (s : State) : Bool :=
  s.slotFree s.myHive && !s.guestFirst s.myHive &&
    ctxNums.all fun i =>
      decide (behind s.myCore.scalarTurn s.cur.num ≤ behind s.myCore.scalarTurn i) || ((s.at i).ready).isNone

/-- Whether the acting context may issue into the vector or the scalar slot in this cycle (01 R17, R408, 06 R153, 18 R379, 19
R380). -/
def State.slotOpen (s : State) (vec : Bool) : Bool :=
  decide (s.me.nextIssue ≤ s.myCore.cycles) && (if s.cur.core.big then s.bigSlot else s.littleSlot vec)

/-- Whether the acting context may issue an instruction in this cycle. -/
def State.hasSlot (s : State) (i : Instr) : Bool := s.slotOpen (inVectorSlot i)

/-- Whether a guest entry may take a slot now: in an own cycle every ready own context that has not issued in it goes first,
unless the entry has aged (06 R153). -/
def State.guestMay (s : State) (h : HiveId) (p : Packet) : Bool :=
  s.slotFree h &&
    (p.aged || s.guestCycle h ||
      (s.core (bigCore h)).live.all fun i =>
        (s.slotsNow h).1.contains i || (({ s with cur := { core := bigCore h, num := i } } : State).ready).isNone)

/-- Count what issues in this cycle of a big core. -/
def State.countSlot (s : State) (h : HiveId) (own : Option (Fin 11)) : State :=
  let u := s.slotsNow h
  let q := s.hive h
  match own with
  | some i => s.setHive h { q with slotCycle := s.dieCycle, issued := i :: u.1, guests := u.2 }
  | none => s.setHive h { q with slotCycle := s.dieCycle, issued := u.1, guests := u.2 + 1 }

/-- The acting context tries to issue: it waits for no credit and no phase start any more, and no weak read of it is
outstanding (log 116). -/
def State.tries (s : State) : State := (s.endWeak s.cur).setMe { s.me with creditWait := false, wakeAt := none }

/-- Whether an instruction, issued in a context, is a taken control transfer (19 R380). -/
def takesTransfer (m : Context) (i : Instr) : Bool :=
  match i with
  | .bcc x => bccTaken x.cond.toNat (m.getS x.a) (m.getS x.b)
  | .bp x => bpTaken x.cond.toNat (m.getP (x.a.setWidth 3))
  | .j _ | .call _ | .ji _ | .calli _ | .ret | .retX | .eret | .eretX => true
  | _ => false

/-- Whether a context that stood at m and stands at m' has taken a trap. -/
def Context.trapped (m m' : Context) : Bool := (m'.tinh && !m.tinh) || (m'.stopped && !m.stopped)

/-- Core cycles from an instruction of a little core to the next of its context: three for a taken control transfer, else one (01
R17, 19 R380). -/
def issueGap (i : Instr) (m m' : Context) : Nat := if takesTransfer m i && !m.trapped m' then 3 else 1

/-- The acting context of state u has filled a slot, `gap` core cycles before it may issue again, and the slot's pointer moves on
(01 R17, R408). -/
def State.fillSlot (t u : State) (vec : Bool) (gap : Nat) : State :=
  let n := u.myCore.cycles
  let next := (u.cur.num.val + 1) % 11
  if u.cur.core.big then
    let t := t.countSlot u.myHive (some u.cur.num)
    t.setCore u.cur.core { t.core u.cur.core with scalarTurn := next }
  else
    let t := t.setCtx u.cur { t.ctx u.cur with nextIssue := n + gap }
    let k := t.core u.cur.core
    t.setCore u.cur.core
      (if vec then { k with vectorAt := some n, vectorTurn := next } else { k with scalarAt := some n, scalarTurn := next })

/-- Instruction i, tried in state u, has led to state t: unless it waits to issue for a credit, it has taken its slot. -/
def State.takeSlot (t u : State) (i : Instr) : State :=
  let m := t.ctx u.cur
  if m.creditWait then t else t.fillSlot u (inVectorSlot i) (issueGap i u.me m)

/-! ## Lane wakes (18 R379) -/

/-- The lanes in which a vector instruction is active. -/
def State.activeLanes (s : State) (i : Instr) : List Nat :=
  match i with
  | .plog _ => []
  | .vsel x | .ilvp x | .ilvu x => List.range (tyInt x.ty).lanes
  | .freds x => (List.range (512 / (tyFp x.ty).width)).filter fun j => (x.mask s.me).getLsbD j
  | i =>
    match masking i with
    | .lanes n mask _ => (List.range n).filter fun j => (mask s.me).getLsbD j
    | _ => []

/-- Whether a lane wakes: it has been active in no vector instruction during the previous 32 core cycles. -/
def Core.asleep (k : Core) (j : Nat) : Bool :=
  match k.lanes.find? fun e => e.1 == j with
  | some e => decide (e.2 + 32 < k.cycles)
  | none => true

/-- Lanes that are active now. -/
def Core.useLanes (k : Core) (js : List Nat) : Core :=
  { k with lanes := js.map (fun j => (j, k.cycles)) ++ k.lanes.filter fun e => !js.contains e.1 }

/-- Wakes of a segment in this die clock cycle: the detector has tripped when those of WIN consecutive cycles reach WAKE. -/
def Segment.wake (x : Segment) (now n : Nat) : Segment :=
  let ws := (now, n) :: x.wakes.filter fun e => decide (now < e.1 + 15)
  let seen := ((ws.filter fun e => decide (now < e.1 + bits x.ddctl.toNat 15 12)).map (·.2)).sum
  { x with wakes := ws, tripDue := x.tripDue || (decide (0 < n) && x.ddctl.getLsbD 63 && decide (bits x.ddctl.toNat 7 0 ≤ seen)) }

/-- A vector instruction of a little core issues: its lanes wake (18 R379). -/
def State.wakeLanes (t u : State) (i : Instr) : State :=
  let js := u.activeLanes i
  if u.cur.core.big || js.isEmpty || (t.ctx u.cur).creditWait then t
  else
    let key := (u.cur.core.row, u.cur.core.col / 16)
    let n := (js.filter u.myCore.asleep).length
    let d := t.die u.cur.core.die
    let t := t.setDie u.cur.core.die
      { d with segments := store key ((lookup Segment.reset key d.segments).wake t.dieCycle n) d.segments }
    t.setCore u.cur.core ((t.core u.cur.core).useLanes js)

end Sys2Proof.Machine
end

