-- ==== Sys2Proof/Machine/Wires.lean ====
section
/-! DEFINITION. The core-mesh wires: rectangles, words on their way one hop, latches and routes (12 R271, R272, R278). -/

namespace Sys2Proof.Machine

/-! ## Rectangles (12 Table 12.1) -/

/-- Rows of a rectangle minus 1. -/
def rectNrm (r : BitVec 30) : Nat := bits r.toNat 29 23
/-- Columns of a rectangle minus 1. -/
def rectNcm (r : BitVec 30) : Nat := bits r.toNat 22 15
/-- Mesh row of the north-west core. -/
def rectRow (r : BitVec 30) : Nat := bits r.toNat 14 8
/-- Mesh column of the north-west core. -/
def rectCol (r : BitVec 30) : Nat := bits r.toNat 7 0

/-- Whether a mesh place lies in a rectangle. -/
def rectHas (r : BitVec 30) (row col : Nat) : Bool :=
  decide (rectRow r ≤ row) && decide (row ≤ rectRow r + rectNrm r) && decide (rectCol r ≤ col) &&
    decide (col ≤ rectCol r + rectNcm r)

/-- The cores of a rectangle on a die, row by row. -/
def rectCores (die : Nat) (r : BitVec 30) : List CoreId :=
  (List.range (rectNrm r + 1)).flatMap fun i =>
    (List.range (rectNcm r + 1)).map fun j => { big := false, die := die, row := rectRow r + i, col := rectCol r + j }

/-- Whether a rectangle is valid for a core (12 R272). -/
def State.rectValid (s : State) (k : CoreId) (r : BitVec 30) : Bool :=
  decide (rectRow r + rectNrm r ≤ 95) && decide (rectCol r + rectNcm r ≤ 191) && rectHas r k.row k.col &&
    (rectCores k.die r).all fun m => s.owner m == s.owner k

/-! ## Directions -/

/-- Position of a direction in N, E, S, W; its code (12 R282). -/
def dirIndex : Dir → Fin 4
  | .n => 0 | .e => 1 | .s => 2 | .w => 3

/-- The direction of a code. -/
def dirOf (c : Nat) : Dir := match c % 4 with | 0 => .n | 1 => .e | 2 => .s | _ => .w

/-- The opposite direction. -/
def dirOpp : Dir → Dir
  | .n => .s | .e => .w | .s => .n | .w => .e

/-- The four directions. -/
def dirs : List Dir := [.n, .e, .s, .w]

/-- The neighbour of a core within a rectangle; `none` where it lies outside. -/
def neighbour (r : BitVec 30) (k : CoreId) (d : Dir) : Option CoreId :=
  let inside (row col : Nat) : Option CoreId := if rectHas r row col then some { k with row := row, col := col } else none
  match d with
  | .n => if k.row = 0 then none else inside (k.row - 1) k.col
  | .e => inside k.row (k.col + 1)
  | .s => inside (k.row + 1) k.col
  | .w => if k.col = 0 then none else inside k.row (k.col - 1)

/-! ## Transfer phases (12 R278, R279) -/

/-- A latch at the start of a phase: V = 0, U = 1, no overrun. -/
def Latch.reset : Latch := { word := 0, v := false, u := true, overrun := false, arrived := 0 }

/-- A transfer phase that starts in a cycle. -/
def Transfer.begin (bg : Fin 4) (rect : BitVec 30) (start : Nat) : Transfer where
  bg := bg
  rect := rect
  start := start
  routes := Vector.replicate 4 none
  latches := Vector.replicate 4 Latch.reset
  violated := false
  halted := none

/-- The transfer cycle count t: it stands while the phase is halted (12 R281). -/
def Transfer.count (x : Transfer) (now : Nat) : Nat :=
  match x.halted with
  | some h => min h (now - x.start)
  | none => now - x.start

/-- Whether the phase runs in this die clock cycle. -/
def Transfer.runs (x : Transfer) (now : Nat) : Bool :=
  match x.halted with
  | some h => decide (now - x.start < h)
  | none => true

/-- A word arrives in a latch (12 R278). -/
def Latch.arrive (l : Latch) (w : Word) (t : Nat) : Latch :=
  { word := w, v := true, u := false, overrun := l.overrun || (l.v && !l.u), arrived := t }

/-- Send a word one hop (12 R278); nothing is sent where the neighbour lies outside the rectangle. -/
def State.sendWire (s : State) (k : CoreId) (rect : BitVec 30) (bg : Fin 4) (d : Dir) (w : Word) : State :=
  match neighbour rect k d with
  | none => s
  | some t =>
    let x := s.die k.die
    s.setDie k.die { x with wires := x.wires ++ [{ dest := t, bg := bg, from_ := dirOpp d, due := s.dieCycle + 1, load := w }] }

/-- The outputs routed PASS(d). -/
def Transfer.outputs (x : Transfer) (d : Dir) : List Dir := dirs.filter fun o => x.routes[(dirIndex o)] == some d

/-- Forward what arrived in latch d in this transfer cycle (12 R278). -/
def State.forwardLatch (s : State) (k : CoreId) (x : Transfer) (d : Dir) : State :=
  let l := x.latches[(dirIndex d)]
  if l.v && l.arrived == x.count s.dieCycle && !(x.outputs d).isEmpty then
    (x.outputs d).foldl (fun t o => t.sendWire k x.rect x.bg o l.word) s
  else s

/-- A latch forwarded in this cycle is used. -/
def Transfer.used (x : Transfer) (now : Nat) : Transfer :=
  dirs.foldl (fun y d =>
    let l := y.latches[(dirIndex d)]
    if l.v && l.arrived == x.count now && !(x.outputs d).isEmpty then
      { y with latches := y.latches.set (dirIndex d) { l with u := true } }
    else y) x

/-- The end of a die clock cycle on a core's wires: words that arrived in it leave on the outputs routed to pass them; where the core has
ended the phase in this cycle they are dropped (log 29). -/
def State.forwardCore (s : State) (k : CoreId) : State :=
  match (s.core k).transfer with
  | none => s
  | some x =>
    if !x.runs s.dieCycle then s
    else
      let t := dirs.foldl (fun t d => t.forwardLatch k x d) s
      t.setCore k { t.core k with transfer := some (x.used s.dieCycle) }

/-- The end of a die clock cycle on the wires of the module. -/
def State.forwardAll (s : State) : State :=
  (s.cores.filter fun e => e.2.transfer.isSome).foldl (fun (t : State) (e : CoreId × Core) => t.forwardCore e.1) s

end Sys2Proof.Machine
end

