-- ==== Sys2Proof/Machine/Sync.lean ====
section
/-! DEFINITION. Barriers, releases and the core-mesh wires: the SYNC major and the events of 12 R271 to R285. -/

namespace Sys2Proof.Machine

/-! ## Barrier registers (12 Table 12.1) -/

/-- STATE of BGn. -/
def Barrier.state (b : Barrier) : Nat := bits b.word.toNat 63 62
/-- GEN<0> of BGn. -/
def Barrier.gen0 (b : Barrier) : Bool := b.word.getLsbD 46
/-- The rectangle BGn names. -/
def Barrier.rect (b : Barrier) : BitVec 30 := b.word.extractLsb' 0 30

/-- Set STATE. -/
def Barrier.withState (b : Barrier) (st : Nat) : Barrier :=
  { b with word := (b.word &&& 0x3fffffffffffffff#64) ||| BitVec.ofNat 64 (st * 2 ^ 62) }

/-- BGn after a release: GEN + 1, STATE 01 (R274). -/
def Barrier.released (b : Barrier) : Barrier :=
  let gen := (bits b.word.toNat 61 46 + 1) % 2 ^ 16
  { b with word := BitVec.ofNat 64 (2 ^ 62 + gen * 2 ^ 46 + b.rect.toNat), arrival := none, sent := false, startAt := none,
           withheld := false }

/-- BGn bound to a rectangle: STATE 01, GEN 0 (R284). A binding begins a barrier that is not broken (log 39). -/
def Barrier.bind (b : Barrier) (r : BitVec 30) : Barrier :=
  { b with word := BitVec.ofNat 64 (2 ^ 62 + r.toNat), broken := false, arrival := none, sent := false, startAt := none,
           withheld := false }

/-- Update a barrier register. -/
def State.setBar (s : State) (k : CoreId) (n : Fin 4) (b : Barrier) : State :=
  let c := s.core k
  s.setCore k { c with bgs := c.bgs.set n b }

/-- The kind of two arrivals together (R275). -/
def ArrivalKind.join (a b : ArrivalKind) : ArrivalKind := if a = b then a else .mixed

/-! ## A broken barrier (R275) -/

/-- Whether an instruction arrives at, or waits on, barrier n. -/
def onBarrier (n : Fin 4) : Instr → Bool
  | .barr x => bits x.mod.toNat 1 0 == n.val
  | .phase x => bits x.mod.toNat 1 0 == n.val
  | .bwait x => bits x.mod.toNat 1 0 == n.val
  | _ => false

/-- TVAL of a sync fault: SEQ 0, SLOT the barrier number (Table 12.4). -/
def syncTval (n reason : Nat) : Word := engineTval 0 n reason

/-- A blocked context of a core that is not saved takes a trap at once; it is blocked in a SYNC instruction, LEN 10. -/
def State.trapBlocked (s : State) (c : CtxId) (t : Trap) : State := s.asCtx c (takeTrap t 2)

/-- The contexts of a core blocked at barrier n; an arrival that a recorded release has completed is blocked no more (R276). -/
def Core.blockedAt (k : Core) (n : Fin 4) : List (Fin 11) :=
  k.live.filter fun i => match (k.ctxs[i]).blocked with
    | some b => onBarrier n b.instr && !(b.phase == 1 && (k.bgs[n]).state == 1)
    | none => false

/-- A member's barrier is broken: contexts blocked on it trap, those of a halted core once it runs again. -/
def State.breakBar (s : State) (k : CoreId) (n : Fin 4) : State :=
  let c := s.core k
  let s := s.setBar k n { c.bgs[n] with broken := true }
  if c.status = .running || c.status = .halting then
    (c.blockedAt n).foldl (fun t i => t.trapBlocked { core := k, num := i } { cause := .engineFault, tval := syncTval n 12 }) s
  else s

/-! ## Sweep (R273) -/

/-- A token on its way one hop east or south. -/
def State.sendToken (s : State) (k : CoreId) (n : Fin 4) (south : Bool) (t : Token) : State :=
  let x := s.die k.die
  let dest : CoreId := if south then { k with row := k.row + 1 } else { k with col := k.col + 1 }
  s.setDie k.die { x with tokens := x.tokens ++
    [{ dest := dest, bg := n, from_ := if south then .n else .w, due := s.dieCycle + 1, load := t }] }

/-- A release on its way one hop north or west. -/
def State.sendRelease (s : State) (k : CoreId) (n : Fin 4) (north : Bool) (t : Token × Nat) : State :=
  let x := s.die k.die
  let dest : CoreId := if north then { k with row := k.row - 1 } else { k with col := k.col - 1 }
  s.setDie k.die { x with releases := x.releases ++
    [{ dest := dest, bg := n, from_ := if north then .s else .e, due := s.dieCycle + 1, load := t }] }

/-- A release goes on along the reverse path: north up the last column, west along each row (R274). -/
def State.forwardRelease (s : State) (k : CoreId) (n : Fin 4) (t : Token × Nat) : State :=
  let r := t.1.rect
  let s := if k.col = rectCol r + rectNcm r ∧ rectRow r < k.row then s.sendRelease k n true t else s
  if rectCol r < k.col then s.sendRelease k n false t else s

/-- The column stagger S of a core's launch (Table 12.2, 16 Table 16.1). -/
def State.stagger (s : State) (k : CoreId) : Nat := ((s.jobLaunch k).map fun l => l.hdr 14 11).getD 0

/-- The received token that counts for the current phase (R275). -/
def Barrier.usable (b : Barrier) : Option Token → Option ArrivalKind
  | none => none
  | some t => if t.gen0 == b.gen0 && t.rect == b.rect then some t.kind else none

/-- The corner core of a rectangle on a die (R271). -/
def cornerOf (die : Nat) (r : BitVec 30) : CoreId :=
  { big := false, die := die, row := rectRow r + rectNrm r, col := rectCol r + rectNcm r }

/-- Whether the lantern withholds a compute release of a rectangle: the lamp class of the barrier's contexts, which is read from the
corner core's, is shed (R277; log 40). -/
def State.withholds (s : State) (die : Nat) (r : BitVec 30) (kind : ArrivalKind) : Bool :=
  kind == .compute && s.shed ((s.core (cornerOf die r)).ctxs[0])

/-- The lantern's delay LD: 0 for a transfer release; else what keeps the step within the segment limits, 16 bits, which
the spec does not compute (R277, log 40). -/
def State.lanternDelay (s : State) (kind : ArrivalKind) : Nat × State :=
  if kind = .compute then (Config.lanternDelay s.free % 2 ^ 16, { s with free := s.free + 1 }) else (0, s)

/-- Whether the control context waits, having arrived, for the release of barrier n. -/
def Core.awaits (k : Core) (n : Fin 4) : Bool :=
  match (k.ctxs[0]).blocked with
  | some b => b.phase == 1 && onBarrier n b.instr
  | none => false

/-- A member that waits for a withheld release parks where it waits (R277); one that runs on after BARR.nw, or is in a transfer
phase, does not (18 R370, R281). -/
def State.parkWaiting (s : State) (k : CoreId) (n : Fin 4) : State :=
  if (s.core k).awaits n && (s.core k).transfer.isNone then s.parkCtx { core := k, num := 0 } else s

/-- A release reaches a member: it breaks the barrier, or sets the cycle R(j) in which the phase starts (R274, R275); one that is
withheld meanwhile waits for its class, and the member parks (R277). -/
def State.takeRelease (s : State) (k : CoreId) (n : Fin 4) (t : Token × Nat) : State :=
  let b := (s.core k).bgs[n]
  if b.rect ≠ t.1.rect ∨ t.1.kind = .mixed then s.breakBar k n
  else if s.withholds k.die b.rect t.1.kind then (s.setBar k n { b with withheld := true }).parkWaiting k n
  else
    let j := k.col - rectCol b.rect
    let late := if t.1.kind = .compute then s.stagger k * j else 0
    s.setBar k n { b with startAt := some (t.2 + late), startKind := t.1.kind }

/-- A class is shed while a member's compute release is pending: it is withheld, and the member parks (R277). -/
def State.withholdAt (s : State) (k : CoreId) (n : Fin 4) : State :=
  let b := (s.core k).bgs[n]
  if b.startAt.isSome && s.withholds k.die b.rect b.startKind then
    (s.setBar k n { b with startAt := none, withheld := true }).parkWaiting k n
  else s

/-- The delay LD of a release that was withheld at its members, the same at each of them (R277, log 40). -/
def State.restoreDelay (s : State) (die : Nat) (r : BitVec 30) (n : Fin 4) : Nat :=
  Config.lanternDelay (2 ^ 64 * (s.free + 1) + 4 * coreIdBits { core := cornerOf die r, num := 0 } + n.val) % 2 ^ 16

/-- A release withheld at a member goes on once its class is restored, with LD counted from the restore (R277). -/
def State.grantWithheld (s : State) (k : CoreId) (n : Fin 4) : State :=
  let b := (s.core k).bgs[n]
  let r := b.rect
  if b.withheld && !s.withholds k.die r .compute then
    s.setBar k n { b with
      withheld := false
      startAt := some (s.dieCycle + 1 + rectNrm r + rectNcm r + s.restoreDelay k.die r n + s.stagger k * (k.col - rectCol r))
      startKind := .compute }
  else s

/-- The corner core is complete (R273): it broadcasts the release (R274), or the lantern withholds it and every member that waits
for it is parked at its release point (R277). -/
def State.cornerComplete (s : State) (k : CoreId) (n : Fin 4) (kind : ArrivalKind) : State :=
  let b := (s.core k).bgs[n]
  if s.withholds k.die b.rect kind then
    (rectCores k.die b.rect).foldl (fun t m => t.parkWaiting m n) s
  else
    let d := s.lanternDelay kind
    let s := d.2.setBar k n { b with sent := true, fromWest := none, fromNorth := none }
    let t : Token × Nat :=
      ({ rect := b.rect, gen0 := b.gen0, kind := kind }, s.dieCycle + 1 + rectNrm b.rect + rectNcm b.rect + d.1)
    (s.forwardRelease k n t).takeRelease k n t

/-- A member sends its token, or completes the sweep, as soon as its arrival and the tokens it waits for are present
(R273). -/
def State.sweep (s : State) (k : CoreId) (n : Fin 4) : State :=
  let b := (s.core k).bgs[n]
  let r := b.rect
  if b.state ≠ 2 || b.sent then s
  else match b.arrival with
    | none => s
    | some a =>
      let row := if k.col = rectCol r then some a else (b.usable b.fromWest).map a.join
      match row with
      | none => s
      | some kd =>
        if k.col < rectCol r + rectNcm r then
          (s.setBar k n { b with sent := true, fromWest := none }).sendToken k n false { rect := r, gen0 := b.gen0, kind := kd }
        else
          let column := if k.row = rectRow r then some kd else (b.usable b.fromNorth).map kd.join
          match column with
          | none => s
          | some kc =>
            if k.row < rectRow r + rectNrm r then
              (s.setBar k n { b with sent := true, fromWest := none, fromNorth := none }).sendToken k n true
                { rect := r, gen0 := b.gen0, kind := kc }
            else s.cornerComplete k n kc

/-- Do something at every barrier register of the module. -/
def State.eachBar (s : State) (f : State → CoreId → Fin 4 → State) : State :=
  s.cores.foldl (fun (t : State) (e : CoreId × Core) => [(0 : Fin 4), 1, 2, 3].foldl (fun u n => f u e.1 n) t) s

/-- Withhold the pending releases of a class that is shed (R277). -/
def State.withholdAll (s : State) : State := s.eachBar State.withholdAt

/-- Sweep again at every member, and let go on what was withheld there, as the releases of a restored class need (R277). -/
def State.sweepAll (s : State) : State := s.eachBar fun t k n => (t.grantWithheld k n).sweep k n

/-- Compare the held tokens with the binding now in force: one that names another rectangle breaks the barrier and is
discarded (R275). `all` compares every held token, else those of the current phase alone. -/
def State.compareHeld (s : State) (k : CoreId) (n : Fin 4) (all : Bool) : State :=
  let b := (s.core k).bgs[n]
  let bad (t : Option Token) : Bool := match t with
    | some t => (all || t.gen0 == b.gen0) && t.rect != b.rect
    | none => false
  let west := bad b.fromWest
  let north := bad b.fromNorth
  if west || north then
    (s.setBar k n { b with fromWest := if west then none else b.fromWest,
                           fromNorth := if north then none else b.fromNorth }).breakBar k n
  else s

/-- A token reaches a member (R275): held while the register is unbound or the token belongs to the next phase, else
compared at once. -/
def State.takeToken (s : State) (k : CoreId) (n : Fin 4) (north : Bool) (t : Token) : State :=
  let b := (s.core k).bgs[n]
  if b.state ≠ 0 ∧ t.gen0 = b.gen0 ∧ t.rect ≠ b.rect then s.breakBar k n
  else
    (s.setBar k n (if north then { b with fromNorth := some t } else { b with fromWest := some t })).sweep k n

/-! ## Phases (R274, R279) -/

/-- Die clock cycles that a core's present cycle lasts: twice its divider where a droop trip stretches it (18 R379). -/
def Core.cycleLength (k : Core) : Nat :=
  match k.droop with
  | some t => if t + 1 ≤ k.cycles ∧ k.cycles < t + 7 then 2 * k.divider else k.divider
  | none => k.divider

/-- The die clock cycle in which a core's first own cycle begins, from the present one on. -/
def State.nextOwnCycle (s : State) (k : CoreId) : Nat :=
  let c := s.core k
  if c.within = 0 then s.dieCycle else s.dieCycle + (c.cycleLength - c.within)

/-- Move a context past the BARR or PHASE it waits in: it acquires, its speculative loads are invalidated (R284), and it issues
next in the core's first cycle from now on (R274). -/
def State.passBarrier (s : State) (c : CtxId) : State :=
  s.setCtx c { (s.ctx c).dropSpec.advance 2 with wakeAt := some (s.nextOwnCycle c.core) }

/-- Whether some member of a barrier is halted or saved while it waits for the release, or stands in the phase (R281). -/
def State.memberHalted (s : State) (k : CoreId) (n : Fin 4) : Bool :=
  let r := ((s.core k).bgs[n]).rect
  (rectCores k.die r).any fun m =>
    let c := s.core m
    (c.status == .halted || c.status == .saved || c.status == .off) &&
      (c.awaits n || c.transfer.any fun y => y.bg == n && y.rect == r)

/-- Open a transfer phase: the core runs at divider 1 until it ends, from a core cycle of its own that begins now (R279; log 129), and is
parked no more (R281, 18 R370); the forced-shed timer of a shed class runs in it (18 R371). A phase of which a member is halted or
saved stands at t = 0 at every member, halted too (R281). -/
def State.openTransfer (s : State) (k : CoreId) (n : Fin 4) (r : Nat) : State :=
  let c := s.core k
  let x := Transfer.begin n (c.bgs[n]).rect r
  let c := { c with
    dividerKept := c.ownDivider
    divider := 1
    cycles := if 0 < c.within then c.cycles + 1 else c.cycles
    within := 0
    parkedSince := none
    forcedPark := false
    holdSince := if c.parkedSince.isSome then some s.refCount else c.holdSince }
  if s.memberHalted k n then
    s.setCore k { c with
      status := if c.status = .running || c.status = .halting then .halted else c.status
      transfer := some { x with halted := some 0 } }
  else s.setCore k { c with transfer := some x }

/-- The control context goes on after a release, if its core runs; a context of a class shed meanwhile parks (18 R370). -/
def State.wakeBarrier (s : State) (k : CoreId) (n : Fin 4) : State :=
  let c := s.core k
  if (c.status = .running || c.status = .halting) && c.awaits n then
    let id : CtxId := { core := k, num := 0 }
    let t := s.passBarrier id
    if t.shed (t.ctx id) && (t.core k).transfer.isNone then t.parkCtx id else t
  else s

/-- The start of a phase at a member in its cycle R(j) (R274): the context that waits goes on, into a transfer phase after a PHASE, and
the tokens held for the next phase are compared then (R275). -/
def State.phaseStart (s : State) (k : CoreId) (n : Fin 4) : State :=
  let b := (s.core k).bgs[n]
  match b.startAt with
  | none => s
  | some r =>
    if s.dieCycle < r then s
    else
      let t := s.setBar k n b.released
      let t := if b.startKind = .transfer && (t.core k).awaits n then t.openTransfer k n r else t
      (t.wakeBarrier k n).compareHeld k n false

/-- Whether a word has reached the acting core and is not latched yet: it is in the latch at the start of its cycle (R278). -/
def State.wordDue (s : State) : Bool :=
  (s.die s.cur.core.die).wires.any fun f => f.dest == s.cur.core && decide (f.due ≤ s.dieCycle)

/-- End the open transfer phase, if there is one: an overrun, or a schedule broken by a fenced neighbour, raises reason
13, with the barrier of the phase in SLOT (log 41), and leaves it open (R284, 20 R391). -/
def State.endTransfer (s : State) : Run State :=
  let k := s.myCore
  match k.transfer with
  | none => .ok s
  | some x =>
    if x.violated || x.latches.any fun l => l.overrun then engineFault s x.bg.val 13
    else .ok (s.setMyCore { k with transfer := none, divider := if k.status = .running then k.dividerKept else 1 })

/-! ## The SYNC major (R282 to R285) -/

/-- The barrier register an instruction names: MOD<1:0>. -/
def XForm.bg (x : XForm) : Fin 4 := ⟨bits x.mod.toNat 1 0, Nat.mod_lt _ (by decide)⟩

/-- R283: only the control context of a little core executes it. -/
def State.notControl (s : State) : Bool := s.cur.core.big || s.cur.num != 0

/-- BGSET (R284). -/
def execBgset (x : XForm) (s : State) : Host.Outcome State Fault Refusal :=
  let n := XForm.bg x
  let b := s.myCore.bgs[n]
  let r := (s.me.getS x.a).extractLsb' 0 30
  finish 2
    (if s.notControl then privileged s (.bgset x)
     else if b.state = 2 then .error (.hold (s.blockIn (.bgset x) none 0))
     else if !s.rectValid s.cur.core r then engineFault s n.val 12
     else .ok ((s.setBar s.cur.core n (b.bind r)).compareHeld s.cur.core n true))

/-- CWAIT 0 before an arrival: faults are delivered, and there is no arrival (R284). -/
def State.waitCopies (s : State) (i : Instr) : Run State :=
  s.deliverCopy.bind fun _ => if s.me.batches.isEmpty then .ok s else .error (.hold (s.blockIn i none 0))

/-- Arrive: STATE 10, the arrival's kind, and the token if it can go (R273, R284). -/
def State.arrive (s : State) (n : Fin 4) (kind : ArrivalKind) : State :=
  let b := s.myCore.bgs[n]
  (s.setBar s.cur.core n { b.withState 2 with arrival := some kind, sent := false }).sweep s.cur.core n

/-- BARR and PHASE up to the wait for the release (R284); `wait` is false for .nw. PHASE first brings the code after it into the
instruction cache (19 R380). One that would end a transfer phase looks at the latches after the words of its cycle have come (R278). -/
def arriveAt (x : XForm) (i : Instr) (kind : ArrivalKind) (wait : Bool) (s : State) : Run State :=
  let n := XForm.bg x
  let b := s.myCore.bgs[n]
  let arrived := match s.me.blocked with | some b => b.phase == 1 | none => false
  if s.notControl then privileged s i
  else if b.state = 0 || b.broken then engineFault s n.val 12
  else if arrived then (if b.state = 1 then .ok (s.setMe s.me.dropSpec) else .error (.hold s))
  else if b.state = 2 then .error (.hold (s.blockIn i none 0))
  else if s.myCore.transfer.isSome && s.wordDue then .error (.hold (s.blockIn i (some s.dieCycle) 0))
  else
    (if x.mod.getLsbD 2 then s.waitCopies i else .ok s).bind fun s =>
      s.endTransfer.bind fun s =>
        let s := if kind = .transfer then s.pinPhase (s.me.pc + 12) else s.unpin
        if wait then .error (.hold ((s.blockIn i none 1).arrive n kind)) else .ok ((s.setMe s.me.dropSpec).arrive n kind)

/-- BARR (R284). -/
def execBarr (x : XForm) (s : State) : Host.Outcome State Fault Refusal :=
  finish 2 (arriveAt x (.barr x) .compute (!x.mod.getLsbD 3) s)

/-- PHASE (R279, R284). -/
def execPhase (x : XForm) (s : State) : Host.Outcome State Fault Refusal :=
  finish 2 (arriveAt x (.phase x) .transfer true s)

/-- BWAIT (R284). -/
def execBwait (x : XForm) (s : State) : Host.Outcome State Fault Refusal :=
  let n := XForm.bg x
  let b := s.myCore.bgs[n]
  let d := s.deadline (s.me.getS x.a)
  finish 2
    (if s.cur.core.big then privileged s (.bwait x)
     else if b.state = 0 || b.broken then engineFault s n.val 12
     else if b.state = 1 then .ok (s.setMe (s.me.dropSpec.setS x.d 1))
     else
       let t := s.blockIn (.bwait x) (some d) 0
       match s.timesOut (s.expired d) with
       | some u => .ok (u.setMe (u.me.dropSpec.setS x.d 0x10))
       | none => .error (.hold t))

/-- The transfer cycle of a timed instruction: E2<19:0> (R280). -/
def XForm.cycle (x : XForm) : Nat := bits x.e2.toNat 19 0

/-- A timed instruction issues in exactly die clock cycle R + t: earlier it waits, later or outside a transfer phase it
raises reason 13 (R280); a schedule broken by a fenced neighbour ends it so as well (20 R391). Outside a phase no barrier
is named, and SLOT is 0 (log 41). -/
def State.timed (s : State) (i : Instr) (t : Nat) : Run Transfer :=
  match s.myCore.transfer with
  | none => engineFault s 0 13
  | some x =>
    if x.violated then engineFault s x.bg.val 13
    else if s.dieCycle < x.start + t then .error (.hold (s.blockIn i (some (x.start + t)) 0))
    else if s.dieCycle = x.start + t then .ok x
    else engineFault s x.bg.val 13

/-- Set the open transfer phase of the acting core. -/
def State.setTransfer (s : State) (x : Transfer) : State := s.setMyCore { s.myCore with transfer := some x }

/-- A route code (R282): keep, OFF, or PASS of a direction. -/
def routeOf (code : Nat) (old : Option Dir) : Option Dir :=
  if code = 0 then old else if code = 1 then none else some (dirOf code)

/-- ISEL (R285). -/
def execIsel (x : XForm) (s : State) : Host.Outcome State Fault Refusal :=
  finish 2
    (if s.notControl then privileged s (.isel x)
     else (s.timed (.isel x) (XForm.cycle x)).map fun t =>
       let code (o : Fin 4) : Nat := bits x.e1.toNat (3 * o.val + 2) (3 * o.val)
       s.setTransfer { t with routes := Vector.ofFn fun o => routeOf (code o) t.routes[o] })

/-- XMIT (R285). -/
def execXmit (x : XForm) (s : State) : Host.Outcome State Fault Refusal :=
  let d := dirOf (bits x.mod.toNat 1 0)
  finish 2
    (if s.notControl then privileged s (.xmit x)
     else (s.timed (.xmit x) (XForm.cycle x)).bind fun t =>
       if (neighbour t.rect s.cur.core d).isNone then engineFault s t.bg.val 14
       else if (t.routes[dirIndex d]).isSome then engineFault s t.bg.val 13
       else .ok (s.sendWire s.cur.core t.rect t.bg d (s.me.getS x.a)))

/-- XRECV (R285); a word that arrives in this cycle is latched first. -/
def execXrecv (x : XForm) (s : State) : Host.Outcome State Fault Refusal :=
  let d := dirOf (bits x.mod.toNat 1 0)
  finish 2
    (if s.notControl then privileged s (.xrecv x)
     else (s.timed (.xrecv x) (XForm.cycle x)).bind fun t =>
       if s.wordDue then .error (.hold (s.blockIn (.xrecv x) (some (t.start + XForm.cycle x)) 0)) else
       let l := t.latches[dirIndex d]
       if (neighbour t.rect s.cur.core d).isNone then engineFault s t.bg.val 14
       else if !l.v then engineFault s t.bg.val 13
       else
         let u := s.setTransfer { t with latches := t.latches.set (dirIndex d) { l with u := true } }
         .ok (u.setMe (u.me.setS x.d l.word)))

/-! ## Events -/

/-- BARRIER_TOKEN_ARRIVAL (R273, R275): the n-th token on its way on a die, in its cycle. -/
def execBarrierTokenArrival (die n : Nat) (s : State) : Host.Outcome State Fault Refusal :=
  let x := s.die die
  match x.tokens[n]? with
  | none => .next s
  | some f =>
    if s.dieCycle < f.due then .next s
    else
      let t := s.setDie die { x with tokens := x.tokens.eraseIdx n }
      if (s.core f.dest).status = .fenced then .next t else .next (t.takeToken f.dest f.bg (f.from_ == .n) f.load)

/-- BARRIER_RELEASE_ARRIVAL (R274, R275): a member whose barrier a release breaks still forwards it. -/
def execBarrierReleaseArrival (die n : Nat) (s : State) : Host.Outcome State Fault Refusal :=
  let x := s.die die
  match x.releases[n]? with
  | none => .next s
  | some f =>
    if s.dieCycle < f.due then .next s
    else
      let t := s.setDie die { x with releases := x.releases.eraseIdx n }
      if (s.core f.dest).status = .fenced then .next t else
      .next ((t.forwardRelease f.dest f.bg f.load).takeRelease f.dest f.bg f.load)

/-- PHASE_START (R274); a fenced core starts nothing (20 R391). -/
def execPhaseStart (k : CoreId) (bg : Fin 4) (s : State) : Host.Outcome State Fault Refusal :=
  .next (if (s.core k).status = .fenced then s else s.phaseStart k bg)

/-- BWAIT_TIMEOUT (R284): a blocked BWAIT looks at its barrier and its deadline again. -/
def execBwaitTimeout (c : CtxId) (s : State) : Host.Outcome State Fault Refusal :=
  retry c (fun i => match i with | .bwait x => some (execBwait x) | _ => none) s

/-- WIRE_WORD_ARRIVAL (R278): outside a transfer phase wires carry nothing (R279), and nothing arrives from outside the
rectangle. -/
def execWireWordArrival (die n : Nat) (s : State) : Host.Outcome State Fault Refusal :=
  let x := s.die die
  match x.wires[n]? with
  | none => .next s
  | some f =>
    if s.dieCycle < f.due then .next s
    else
      let t := s.setDie die { x with wires := x.wires.eraseIdx n }
      let k := t.core f.dest
      if k.status = .fenced then .next t else
      match k.transfer with
      | none => .next t
      | some y =>
        if (neighbour y.rect f.dest f.from_).isNone then .next t else
        let l := y.latches[dirIndex f.from_]
        let y := { y with latches := y.latches.set (dirIndex f.from_) (l.arrive f.load (f.due - y.start)) }
        .next (t.setCore f.dest { k with transfer := some y })

end Sys2Proof.Machine
end

