-- ==== Sys2Proof/Machine/Contexts.lean ====
section
/-! DEFINITION. Contexts of a core: START, RETIRE, YIELD, MYID and WAIT (08 R191 to R203). -/

namespace Sys2Proof.Machine

/-! ## Matrix commands that may run (07 R166, 14 R315, R316) -/

/-- The slot a command names; TQDESC names none. -/
def MatCmd.slot? (c : MatCmd) : Option (Fin 16) := if c.fn = 6 then none else some c.acc

/-- Whether an earlier command lets a later one run: it has started its last step, and they do not name one slot. -/
def MatCmd.lets (e c : MatCmd) : Bool := e.step == e.total && (e.slot?.isNone || e.slot? != c.slot?)

/-- The command at a place of a queue, if it may run its next step. -/
def MatCtx.runnable (q : MatCtx) (n : Nat) : Option MatCmd :=
  match q.queue[n]? with
  | none => none
  | some c => if decide (c.step < c.total) && (q.queue.take n).all fun e => e.lets c then some c else none

/-- Whether the matrix context of a context runs: a pre-emption request that has reached the core, and parking, halt it at the step
boundary at which it stands (07 R189). -/
def State.matRuns (s : State) (c : CtxId) : Bool :=
  let st := (s.core c.core).status
  (st == .idle || st == .running) && !(s.ctx c).parked

/-- The command at a place of a context's queue, if it may run its next step. -/
def State.matCmd (s : State) (c : CtxId) (n : Nat) : Option MatCmd := if s.matRuns c then (s.mat c).runnable n else none

/-- The flags row m of a drain raises, the slot's sticky flags with row 0 (07 R185). -/
def MatCmd.rowFlags (c : MatCmd) (x : Slot) : Flags :=
  (x.drainRow c.mode.toNat c.sat c.step).2 ||| (if c.step = 0 then x.sticky else 0)

/-- The TDRAIN of a context whose next row wants a helper, by its place in the queue. -/
def State.drainAt (s : State) (c : CtxId) : Option (Nat × MatCmd) :=
  let q := s.mat c
  ((List.range q.queue.length).filterMap fun n => (s.matCmd c n).map fun d => (n, d)).find? fun e =>
    e.2.fn == 7 && (s.ctx c).matTl.fault.isNone && !(s.slot (coreHive c.core) e.2.acc).bad && !traps e.2.en (e.2.rowFlags (s.slot (coreHive c.core) e.2.acc))

/-- Whether a row dispatch wants a helper of a core (R193). -/
def State.rowWaits (s : State) (k : CoreId) : Bool := ctxNums.any fun i => (s.drainAt { core := k, num := i }).isSome

/-! ## Helpers (R193, R196) -/

/-- The free helper numbers, lowest first. -/
def Core.freeHelpers (k : Core) : List (Fin 11) := ctxNums.filter fun i => i != 0 && !(k.ctxs[i]).live

/-- A context number made live as a helper of an issuer (R196): it keeps its timelines (R197), its spill area, what the
launch set for every context, and its memberships. -/
def Context.begin (m issuer : Context) (entry s1 s2 : Word) : Context :=
  { Context.reset with
    s := ((Vector.replicate 32 (0 : Word)).set 1 s1).set 2 s2
    pc := entry
    tvec := m.tvec
    rasp := m.spillBase
    rasl := m.spillLimit
    spillBase := m.spillBase
    spillLimit := m.spillLimit
    dist := issuer.dist
    work := issuer.work
    lampcls := issuer.lampcls
    live := true
    copyTl := m.copyTl
    matTl := m.matTl
    collTl := m.collTl
    mailbox := m.mailbox
    groups := m.groups
    takes := m.takes
    nextTag := m.nextTag
    throttle := m.throttle }

/-- START and START.try (R195, R196): a row dispatch that wants a helper comes first (R193). -/
def execStart (x : XForm) (s : State) : Host.Outcome State Fault Refusal :=
  let k := s.myCore
  let m := s.me
  let entry := m.getS x.a
  finish 2
    (if s.cur.num != 0 then privileged s (.start x)
     else if entry.toNat % 4 ≠ 0 then trapAt s .misaligned entry
     else
       match (if s.rowWaits s.cur.core then [] else k.freeHelpers) with
       | h :: _ =>
         let t := (s.setMyCore (k.mapCtx h fun c => c.begin m entry (m.getS x.b) (m.getS (XForm.c x)))).mendAll
           { core := s.cur.core, num := h }
         .ok (t.setMe (t.me.setS x.d (BitVec.ofNat 64 h.val)))
       | [] =>
         if x.mod = 1 then .ok (s.setMe (m.setS x.d 0)) else .error (.hold (s.blockIn (.start x) none 0)))

/-! ## RETIRE and the implicit wait (R197) -/

/-- The implicit WAIT of RETIRE and END: faults of the three timelines are delivered, then every accepted command must be
complete, no register pending and the merge queue empty (R159, R197). The copy timeline's fault comes first, then the matrix's (log
135). -/
def State.implicitWait (s : State) (i : Instr) : Run State :=
  s.deliverCopy.bind fun _ => s.deliverMat.bind fun _ => s.deliverColl.bind fun _ =>
    let m := s.me
    if m.copyTl.value = m.copyTl.last ∧ m.matTl.value = m.matTl.last ∧ m.collTl.value = m.collTl.last ∧
        m.pendS = 0 ∧ m.pendV = 0 ∧ m.pendP = 0 ∧ m.flagQueue.isEmpty then .ok s
    else .error (.hold (s.blockIn i none 0))

/-- Free every slot the acting context owns (07 R164). -/
def State.freeSlots (s : State) : State :=
  let h := s.hive s.myHive
  s.setHive s.myHive { h with slots := h.slots.map fun x => if x.owner = some s.cur then Slot.reset else x }

/-- A row handler that has retired is no longer waited for by its TDRAIN (07 R186). -/
def State.dropHandler (s : State) : State :=
  let h := s.hive s.myHive
  let drop (q : MatCtx) : MatCtx :=
    { q with queue := q.queue.map fun c => { c with handlers := c.handlers.filter fun i => i != s.cur.num } }
  s.setHive s.myHive { h with mats := h.mats.map fun (e : CtxId × MatCtx) => (e.1, if e.1.core = s.cur.core then drop e.2 else e.2) }

/-- The acting context ends: its number is free (R197). -/
def State.endContext (s : State) : State :=
  s.setMe { s.me with live := false, blocked := none, parked := false, yielding := none, spec := [], ras := [] }

/-- RETIRE (R195, R197): PRIVILEGED in the control context. -/
def retireFrom (len : BitVec 2) (i : Instr) (s : State) : Host.Outcome State Fault Refusal :=
  settle len
    (if s.cur.num = 0 then privileged s i
     else (s.implicitWait i).map fun t => t.freeSlots.dropHandler.endContext)

/-- RETIRE, base form. -/
def execRetire (s : State) : Host.Outcome State Fault Refusal := retireFrom 0 .retire s

/-- RETIRE, extended form. -/
def execRetireX (s : State) : Host.Outcome State Fault Refusal := retireFrom 2 .retireX s

/-! ## YIELD (R198) -/

/-- The yield set of the acting context. -/
def State.yieldSet (s : State) : List (Fin 11) :=
  s.myCore.live.filter fun i =>
    i != s.cur.num && !((s.myCore.ctxs[i]).blocked.isSome || (s.myCore.ctxs[i]).parked)

/-- YIELD. -/
def yieldFrom (len : BitVec 2) (s : State) : Host.Outcome State Fault Refusal :=
  finish len (.ok (s.setMe { s.me with yielding := some { waiting := s.yieldSet, limit := s.myCore.cycles + 16 } }))

/-- YIELD, base form. -/
def execYieldK (s : State) : Host.Outcome State Fault Refusal := yieldFrom 0 s

/-- YIELD, extended form. -/
def execYieldX (s : State) : Host.Outcome State Fault Refusal := yieldFrom 2 s

/-- YIELD_EXPIRY (R198): 16 core cycles have passed. -/
def execYieldExpiry (c : CtxId) (s : State) : Host.Outcome State Fault Refusal :=
  let m := s.ctx c
  match m.yielding with
  | none => .next s
  | some y => if (s.core c.core).cycles < y.limit then .next s else .next (s.setCtx c { m with yielding := none })

/-! ## MYID (R199) -/

/-- Field n of a stage descriptor (16 Tables 16.2, 16.3). -/
def fieldBits (packet : BitVec 11264) (st n hi lo : Nat) : Nat := stageBits packet st (128 + 48 * n + hi) (128 + 48 * n + lo)

/-- Number of fields of a stage. -/
def numFields (packet : BitVec 11264) (st : Nat) : Nat := stageBits packet st 125 123

/-- WID of a field. -/
def fieldWid (packet : BitVec 11264) (st n : Nat) : Nat := fieldBits packet st n 37 32

/-- Extent of a field. -/
def fieldExt (packet : BitVec 11264) (st n : Nat) : Nat := fieldBits packet st n 31 0 + 1

/-- The lowest bit of field n in a work identifier. -/
def fieldPos (packet : BitVec 11264) (st n : Nat) : Nat := ((List.range n).map (fieldWid packet st)).sum

/-- The value of field n of a work identifier. -/
def fieldOf (packet : BitVec 11264) (st n : Nat) (work : Word) : Nat :=
  work.toNat / 2 ^ fieldPos packet st n % 2 ^ fieldWid packet st n

/-- MYID's result. -/
def State.myid (s : State) (md : Nat) : Word :=
  if md = 7 then s.me.work
  else
    let n := md % 8
    let ext := decide (8 ≤ md)
    match s.stageOf s.cur.core with
    | none => if ext then 1 else 0
    | some (_, l, st, _) =>
      if numFields l.packet st ≤ n then (if ext then 1 else 0)
      else BitVec.ofNat 64 (if ext then fieldExt l.packet st n else fieldOf l.packet st n s.me.work)

/-- MYID. -/
def execMyid (x : RForm) (s : State) : Host.Outcome State Fault Refusal :=
  finish x.form.len (.ok (s.setMe (s.me.setS x.d (s.myid x.mod.toNat))))

/-! ## WAIT (R200 to R203) -/

/-- Whether a condition holds now; a memory condition is a load, a ring or barrier condition may fault (R201, 12 R284,
13 R300). -/
def State.holds (s : State) (c : WaitCond) : Run Bool :=
  match c.kind with
  | 1 => .ok (decide (c.x.toNat ≤ (s.me.timeline (bits c.qual 1 0)).value))
  | 2 => (s.loadMem c.x c.size c.size).map fun v => v.1 == c.y.toNat % 2 ^ (8 * c.size)
  | 3 => (s.loadMem c.x c.size c.size).map fun v => v.1 != c.y.toNat % 2 ^ (8 * c.size)
  | 4 => .ok (s.myCore.live.all fun i => i == 0 || i == s.cur.num)
  | 5 => .ok (!s.me.mailbox.isEmpty)
  | 6 =>
    match s.roleRing true c.x.toNat with
    | none => engineFault s (c.x.toNat % 16) 5
    | some (_, _, r) => .ok (decide (r.take < r.pubf))
  | _ =>
    let b := s.myCore.bgs[c.qual % 4]'(Nat.mod_lt _ (by decide))
    if b.state = 0 || b.broken then engineFault s (c.qual % 4) 12 else .ok (b.state == 1)

/-- Evaluate conditions in order: the mask of those that hold. -/
def State.evaluate (s : State) : List WaitCond → Run Nat
  | [] => .ok 0
  | c :: cs => (s.holds c).bind fun b => (s.evaluate cs).map fun h => (if b then 2 ^ c.num else 0) + h

/-- Deliver the fault of a timeline a condition names (R201). -/
def State.deliverNamed (s : State) : List WaitCond → Run Unit
  | [] => .ok ()
  | c :: cs =>
    (if c.kind = 1 then
      (if bits c.qual 1 0 = 0 then s.deliverCopy else if bits c.qual 1 0 = 1 then s.deliverMat else s.deliverColl)
     else .ok ()).bind fun _ => s.deliverNamed cs

/-- The checks of R201 and 13 R300 before any wait: each memory condition as a load of its size, then each ring. -/
def State.checkConds (s : State) (cs : List WaitCond) : Run Unit :=
  (memory (cs.filter fun c => c.kind == 2 || c.kind == 3)).bind fun _ => rings (cs.filter fun c => c.kind == 6)
where
  /-- Memory conditions in order. -/
  memory : List WaitCond → Run Unit
    | [] => .ok ()
    | c :: cs => (s.checkAccess .load c.x c.size c.size).bind fun _ => memory cs
  /-- Ring conditions in order. -/
  rings : List WaitCond → Run Unit
    | [] => .ok ()
    | c :: cs => if (s.roleRing true c.x.toNat).isNone then engineFault s (c.x.toNat % 16) 5 else rings cs

/-- WAIT.any and WAIT.all (R200, R201). -/
def execWait (x : XForm) (s : State) : Host.Outcome State Fault Refusal :=
  let cs := XForm.conds x s.me
  let d := s.deadline (s.me.getS x.a)
  let full := (cs.map fun c => 2 ^ c.num).sum
  let done (s : State) (h : Nat) : State := s.setMe (s.me.dropSpec.setS x.d (BitVec.ofNat 64 h))
  finish 2
    ((s.checkConds cs).bind fun _ => (s.deliverNamed cs).bind fun _ => (s.evaluate cs).bind fun h =>
      if (if x.mod = 0 then h != 0 else h == full) then .ok (done s h)
      else
        let t := s.blockIn (.wait x) (some d) 0
        match s.timesOut (s.expired d) with
        | some u => .ok (done u (h + 16))
        | none => .error (.hold t))

/-- WAIT_EVALUATE (R201): a blocked WAIT looks at its conditions again. -/
def execWaitEvaluate (c : CtxId) (s : State) : Host.Outcome State Fault Refusal :=
  retry c (fun i => match i with | .wait x => some (execWait x) | _ => none) s

/-- WAIT_TIMEOUT (R201): a WAIT whose deadline has come evaluates, and returns with bit 4 set unless its conditions hold. -/
def execWaitTimeout (c : CtxId) (s : State) : Host.Outcome State Fault Refusal :=
  retry c (fun i => match i with | .wait x => some (execWait x) | _ => none) s

/-- HELPER_ASSIGN (R193): a freed helper number goes to the START that waits, unless a row dispatch wants it. -/
def execHelperAssign (k : CoreId) (s : State) : Host.Outcome State Fault Refusal :=
  retry { core := k, num := 0 } (fun i => match i with | .start x => some (execStart x) | _ => none) s

end Sys2Proof.Machine
end

