-- ==== Sys2Proof/Machine/Image.lean ====
section
/-! DEFINITION. Saved images: the layout of core and engine images, CRC-32C, and what a restore reads back (17 R342 to R347,
Tables 17.2 to 17.4). -/

namespace Sys2Proof.Machine

/-! ## CRC-32C -/

/-- One bit of CRC-32C, polynomial 0x82F63B78 in reflected form. -/
def crcBit (c : BitVec 32) : BitVec 32 := if c.getLsbD 0 then (c >>> 1) ^^^ 0x82f63b78#32 else c >>> 1

/-- One byte of CRC-32C. -/
def crcByte (c : BitVec 32) (b : Byte) : BitVec 32 :=
  crcBit (crcBit (crcBit (crcBit (crcBit (crcBit (crcBit (crcBit (c ^^^ b.setWidth 32))))))))

/-- CRC-32C of a byte string. -/
def crc32c (bs : List Byte) : BitVec 32 := ~~~(bs.foldl crcByte 0xffffffff#32)

/-! ## Fields -/

/-- A field of an image: offset, bytes, value. -/
structure Field where
  off : Nat
  len : Nat
  val : Nat
  deriving DecidableEq, Repr

/-- Fields of equal length from an offset on. -/
def fieldsFrom (off len : Nat) : List Nat → List Field
  | [] => []
  | v :: vs => { off := off, len := len, val := v } :: fieldsFrom (off + len) len vs

/-- The fields of an image, moved. -/
def Field.at (base : Nat) (f : Field) : Field := { f with off := base + f.off }

/-- Write fields at a physical address of a partition. -/
def State.writeFields (s : State) (p base : Nat) (fs : List Field) : State :=
  fs.foldl (fun (t : State) f => t.physWrite p (base + f.off) f.len f.val) s

/-! ## A context image (Table 17.2) -/

/-- BLK of STATUS (Table 17.3): a barrier arrival that stands is 2, whichever instruction made it. -/
def Context.blk (m : Context) : Nat :=
  match m.blocked with
  | none => 0
  | some b =>
    match b.instr with
    | .wait _ => 1
    | .barr _ => if b.phase = 1 then 2 else 4
    | .phase _ => if b.phase = 1 then 2 else 4
    | .bwait _ => 3
    | _ => 4

/-- The trap an image records: DATA_ERROR of a faulty register that the save has read, else the one that waits, which the held
instruction raises again where a DATA_ERROR took its place (17 R344, 20 R385). -/
def Context.imageTrap (m : Context) (bad : Option Trap) : Trap :=
  (bad.or (m.pendingTrap.map (·.1))).getD { cause := .none, tval := 0 }

/-- STATUS (Table 17.3). -/
def Context.status (m : Context) (bad : Option Trap) : Nat :=
  m.ras.length * 2 ^ 19 + m.blk * 2 ^ 15 + m.live.toNat * 2 ^ 11 + m.sup.toNat * 2 ^ 10 + (m.imageTrap bad).cause.code

/-- A message in an image: payload, source rank, tag. -/
def Msg.image (m : Msg) : Nat := m.payload.toNat + m.source.toNat * 2 ^ 512 + m.tag.toNat * 2 ^ 544

/-- A membership in an image, 16 bytes: group, index, size, generation, rounds (log 50). -/
def Membership.image (m : Membership) : Nat :=
  m.group % 2 ^ 16 + m.index % 2 ^ 16 * 2 ^ 16 + m.size % 2 ^ 32 * 2 ^ 32 + m.gen % 2 ^ 32 * 2 ^ 64 + m.round % 2 ^ 32 * 2 ^ 96

/-- The fields of a live context's image. -/
def Context.image (m : Context) (bad : Option Trap) : List Field :=
  fieldsFrom 0 8 ((0 :: m.s.toList.tail.map (·.toNat))) ++
  fieldsFrom 0x100 64 (m.v.toList.map (·.toNat)) ++
  fieldsFrom 0x900 8 ((List.range 8).map fun i => (m.getP (BitVec.ofNat 3 i)).toNat) ++
  fieldsFrom 0x940 8
    [m.pc.toNat, m.fctl.toNat, m.tcause.toNat, m.tpc.toNat, m.tval.toNat, m.tscr.toNat, m.rasp.toNat, m.rasl.toNat,
     m.rasn.toNat, m.status bad, (m.imageTrap bad).tval.toNat] ++
  fieldsFrom 0x998 8 (m.ras.reverse.map (·.toNat)) ++
  fieldsFrom 0xa18 8 (m.dist.toList.map (·.toNat)) ++
  fieldsFrom 0xa38 8 [m.work.toNat, (m.blocked.bind fun b => b.deadline).getD 0] ++
  fieldsFrom 0xa48 8
    [m.copyTl.value, m.matTl.value, m.collTl.value, m.copyTl.last, m.matTl.last, m.collTl.last] ++
  fieldsFrom 0xa78 8 m.batches ++
  fieldsFrom 0xaf8 70 (m.mailbox.map Msg.image) ++
  fieldsFrom 0xc10 16 (m.groups.map Membership.image) ++
  fieldsFrom 0xc50 8 [bits m.throttle.toNat 63 3 * 8 + m.lampcls.toNat]

/-! ## The core part -/

/-- The direction code of a route in an image: 0 OFF, 1 + code PASS. -/
def routeCode : Option Dir → Nat
  | none => 0
  | some d => 1 + (dirIndex d).val

/-- A latch in an image, 16 bytes: word, V, U, overrun (log 50). -/
def Latch.image (l : Latch) : Nat := l.word.toNat + (l.v.toNat + l.u.toNat * 2 + l.overrun.toNat * 4) * 2 ^ 64

/-- The transfer state in an image: t, the latches, the routes. -/
def Transfer.image (x : Transfer) (now : Nat) : List Field :=
  fieldsFrom 0x460 8 [x.count now] ++ fieldsFrom 0x468 16 (x.latches.toList.map Latch.image) ++
    fieldsFrom 0x4a8 8 [packLanes 8 (x.routes.toList.map routeCode)]

/-- The fields of a core part. -/
def Core.image (k : Core) (now : Nat) : List Field :=
  fieldsFrom 0 8 (k.wins.toList.map fun w => w.word.toNat) ++
  fieldsFrom 0x40 128 (k.wins.toList.map fun w => w.record.toNat) ++
  fieldsFrom 0x440 8 (k.bgs.toList.map fun b => b.word.toNat) ++
  (match k.transfer with | some x => x.image now | none => []) ++
  fieldsFrom 0x4b0 8 [k.ownDivider, k.hbTimer, k.cycles]

/-- Bytes of a core image. -/
def imageBytes : Nat := 49152

/-- Offset of the core part. -/
def corePart : Nat := 45056

/-- The physical address of a core's image: IMGBASE of its die (17 R342). -/
def State.imageAddr (s : State) (p : Nat) (k : CoreId) : Nat := lookup 0 k.die (s.part p).imgbase + imageBytes * dieIndex k

/-- The trap a faulty register of a context gives (20 R385). -/
def State.badRegister (s : State) (c : CtxId) : Option Trap :=
  (s.badRegs.find? fun b => b.1 == c).map fun b =>
    { cause := .dataError
      tval := b.2.tval }

/-- A save reads the registers of a core's contexts: each context's faulty one is logged as Consumed (20 R384, R385). -/
def State.logRegisters (s : State) (k : CoreId) : State :=
  (s.core k).live.foldl (fun (t : State) i =>
    let c : CtxId := { core := k, num := i }
    match s.badRegs.find? fun b => b.1 == c with
    | some b => t.logError k.die 2 2 (t.registerUnit c b.2)
    | none => t) s

/-- Every field of a core's image, the CRC apart. -/
def State.coreFields (s : State) (k : CoreId) : List Field :=
  let c := s.core k
  (c.live.flatMap fun i => ((c.ctxs[i]).image (s.badRegister { core := k, num := i })).map (Field.at (4096 * i.val))) ++
    (c.image s.dieCycle).map (Field.at corePart)

/-- The image of a core at an address: zeros, the fields, the CRC of all before it. -/
def State.writeImage (s : State) (p : Nat) (k : CoreId) : State :=
  let a := s.imageAddr p k
  let t := s.physWrite p a imageBytes 0
  let t := t.writeFields p a (s.coreFields k)
  t.physWrite p (a + 49148) 4 (crc32c (t.readBytes a 49148)).toNat

/-- Whether the CRC of a core's image matches (17 R345); an image outside the partition's ranges cannot be read (17 R360; log 128). -/
def State.imageGood (s : State) (p : Nat) (k : CoreId) : Bool :=
  let a := s.imageAddr p k
  s.inRange p a imageBytes && s.read (a + 49148) 4 == (crc32c (s.readBytes a 49148)).toNat

/-! ## The engine image (17 R347, Table 17.4) -/

/-- The physical address of a hive's engine image. -/
def State.engineAddr (s : State) (p : Nat) (h : HiveId) : Nat :=
  lookup 0 h.die (s.part p).imgbase + 891 * 2 ^ 20 + 1536 * 1024 * hiveIndex h

/-- What a matrix context's record holds of a descriptor. -/
def QDesc.parts (d : QDesc) : List Nat := [d.base.toNat, d.shown.toNat, d.pitch, d.g, d.q4.toNat]

/-- What a matrix context's record holds of an accepted command. -/
def MatCmd.recordParts (c : MatCmd) : List Nat :=
  [c.seq, c.fn, c.mode.toNat, c.acc.val, c.classical.toNat, c.sat.toNat, c.msel.toNat, c.mcast.toNat, c.k, c.zp, c.a.toNat,
   c.b.toNat, c.c.toNat, c.en.toNat, c.step, c.flags.toNat] ++ (c.desc.map QDesc.parts).getD [] ++ c.groups.flatMap fun g => g.1 :: g.2

/-- What a matrix context's record holds of an owned slot: kind and status. -/
def Slot.recordParts (x : Slot) (n : Nat) : List Nat :=
  [n, (match x.kind with | .ax36 => 0 | .f64 => 1 | .i48 => 2), x.nv.toNat, x.nx.toNat, x.sx.toNat, x.nf.toNat, x.fault.toNat]

/-- What a matrix context's record holds (Table 17.4): kind and status of each owned slot, descriptor, queued commands with their
step indexes and slots. -/
def State.recordParts (s : State) (c : CtxId) : List Nat :=
  let e := s.hive (coreHive c.core)
  let q := lookup MatCtx.reset c e.mats
  ((List.range 16).flatMap fun n =>
    match e.slots.toList[n]? with
    | some x => if x.owner == some c then x.recordParts n else []
    | none => []) ++ (q.desc.map QDesc.parts).getD [] ++ q.queue.flatMap MatCmd.recordParts

/-- The partials of a command, with zeros to the end of their area (Table 17.4). -/
def MatCmd.partials (c : MatCmd) : List Nat := (List.range 7168).map fun i => (BitVec.ofInt 64 (c.parts.getD i 0)).toNat

/-- The engine state of a core's contexts: the elements of their slots, the partials of their running commands, and their
records, whose 256 bytes the spec does not lay out (log 51). -/
def State.engineFields (s : State) (k : CoreId) : List Field :=
  let e := s.hive (coreHive k)
  let slots := (List.range 16).flatMap fun n =>
    match e.slots.toList[n]? with
    | some x => if x.owner.any fun c => c.core == k then
        fieldsFrom (32768 * n) 8 ((List.range 4096).map fun i => (x.elems.getD i 0).toNat) else []
    | none => []
  let parts := (e.mats.filter fun m => m.1.core == k).flatMap fun m =>
    (m.2.queue.filter fun c => c.step != 0 && !c.parts.isEmpty).flatMap fun c =>
      fieldsFrom (512 * 1024 + 57344 * c.acc.val) 8 c.partials
  let recs := ctxNums.map fun i =>
    { off := 1408 * 1024 + 256 * matIndex { core := k, num := i }, len := 256, val := Config.engineRecord (s.recordParts { core := k, num := i }) : Field }
  slots ++ parts ++ recs

/-- Write the engine state of a core's contexts. -/
def State.writeEngine (s : State) (p : Nat) (k : CoreId) : State :=
  s.writeFields p (s.engineAddr p (coreHive k)) (s.engineFields k)

/-! ## A restore (17 R345) -/

/-- Read n values of a length from an address. -/
def State.readFields (s : State) (a len n : Nat) : List Nat := (List.range n).map fun i => s.read (a + len * i) len

/-- What a restored context goes on with: WAIT and BWAIT keep their deadlines, an arrival stands, and every other blocked
instruction is executed again (Table 17.1). -/
def Context.reblock (m : Context) (blk deadline : Nat) : Option Blocked :=
  match m.blocked with
  | none => none
  | some b => if blk = 1 ∨ blk = 3 then some { b with deadline := some deadline } else if blk = 2 then some b else none

/-- A context as its image at `a` restores it; state that no image holds, or that the engines, the network and the barrier
logic went on changing, stays (log 52). -/
def State.restoreContext (s : State) (a : Nat) (m : Context) : Context :=
  let status := s.read (a + 0x988) 8
  if bits status 11 11 = 0 then m
  else
    let w (off : Nat) : Word := BitVec.ofNat 64 (s.read (a + off) 8)
    let trap : Option (Trap × Option (BitVec 2)) :=
      if bits status 5 0 = 0 then none else some ({ cause := causeOf (bits status 5 0), tval := w 0x990 }, none)
    let m' : Context := { m with
      s := Vector.ofFn fun i => w (8 * i.val)
      v := Vector.ofFn fun i => BitVec.ofNat 512 (s.read (a + 0x100 + 64 * i.val) 64)
      p := Vector.ofFn fun i => w (0x900 + 8 * i.val)
      pc := w 0x940
      fctl := w 0x948
      tpc := w 0x958
      tval := w 0x960
      tscr := w 0x968
      rasp := w 0x970
      rasl := w 0x978
      rasn := (w 0x980).setWidth 32
      sup := bits status 10 10 == 1
      ras := ((s.readFields (a + 0x998) 8 (bits status 23 19)).map (BitVec.ofNat 64)).reverse
      dist := Vector.ofFn fun i => w (0xa18 + 8 * i.val)
      work := w 0xa38
      spec := []
      tags := Vector.replicate 32 3
      pendingTrap := trap
      blocked := m.reblock (bits status 18 15) (s.read (a + 0xa40) 8) }
    m'.setTcause (w 0x950)

/-- A window as its image at `a` restores it, by the rules of an MTS (11 R263). A tile load that was in progress has gone on, and the
window is as it has left it (R269); a write that reached a present range meanwhile has set DIRTY (log 52). -/
def State.restoreWindow (s : State) (a : Nat) (i : Nat) (w : Window) : Window :=
  let x : Window :=
    { word := winWrite (BitVec.ofNat 64 (s.read (a + 8 * i) 8)), record := BitVec.ofNat 1024 (s.read (a + 0x40 + 128 * i) 128)
      load := none, fault := w.fault }
  if bits (s.read (a + 8 * i) 8) 63 62 = 2 then w else if x.state = 3 ∧ w.dirty then x.with 3 true else x

/-- A core as its image restores it: its contexts, windows, divider, heartbeat timer and cycle count, which never
decreases (01 R23; log 115). -/
def State.restoreCore (s : State) (p : Nat) (k : CoreId) : State :=
  let a := s.imageAddr p k
  let c := s.core k
  { s.setCore k { c with
      ctxs := Vector.ofFn fun i => s.restoreContext (a + 4096 * i.val) c.ctxs[i]
      wins := Vector.ofFn fun i => s.restoreWindow (a + corePart) i.val c.wins[i]
      dividerKept := s.read (a + corePart + 0x4b0) 8
      hbTimer := s.read (a + corePart + 0x4b8) 8
      cycles := max c.cycles (s.read (a + corePart + 0x4c0) 8) }
    with badRegs := s.badRegs.filter fun b => b.1.core != k }

end Sys2Proof.Machine
end

