-- ==== Sys2Proof/Machine/Engine.lean ====
section
/-! DEFINITION. What the big core's guest queue, the matrix engine and the block-transfer engine do on their own: the
events of 06, 07 and 11. -/

namespace Sys2Proof.Machine

/-- An engine of a context's hive consumes a faulty word: logged as Consumed at the engine, the slot of its command beside the hive (20
R385, Table 20.4; log 53). -/
def State.logEngine (s : State) (c : CtxId) (slot : Nat) : State :=
  s.logError c.core.die 2 9 (s.physHive (coreHive c.core) * 16 + slot)

/-! ## Shipping (06) -/

/-- How far a core index lies behind the one whose turn it is, cyclically over the 32 (R152). -/
def turnsTo (turn i : Nat) : Nat := (i + 32 - turn % 32) % 32

/-- Packets the queue has admitted in this die clock cycle (R152). -/
def State.admittedNow (s : State) (h : HiveId) : Nat :=
  if (s.hive h).admitted.1 = s.dieCycle then (s.hive h).admitted.2 else 0

/-- Whether the queue takes packet p now: it admits two a cycle, and of the packets that have reached it those of the core
whose turn comes first (R152). -/
def State.admits (s : State) (h : HiveId) (p : Packet) : Bool :=
  let q := s.hive h
  decide (s.admittedNow h < 2) && q.arriving.all fun e =>
    !e.atQueue || decide (turnsTo q.admitTurn (coreIndex p.sender.core) ≤ turnsTo q.admitTurn (coreIndex e.sender.core))

/-- A packet enters the guest issue queue. -/
def State.admitPacket (s : State) (h : HiveId) (n : Nat) (p : Packet) : State :=
  let q := s.hive h
  s.setHive h { q with
    arriving := q.arriving.eraseIdx n
    queue := q.queue ++ [{ p with entered := s.dieCycle, atQueue := true }]
    admitTurn := (coreIndex p.sender.core + 1) % 32
    admitted := (s.dieCycle, s.admittedNow h + 1) }

/-- SHIP_PACKET_ARRIVAL (06 R152, R154): the n-th packet on its way reaches the guest issue queue and enters it, or waits there
for its turn. -/
def execShipPacketArrival (h : HiveId) (n : Nat) (s : State) : Host.Outcome State Fault Refusal :=
  let q := s.hive h
  match q.arriving[n]? with
  | none => .next s
  | some p =>
    if s.admits h p then .next (s.admitPacket h n p)
    else .next (s.setHive h { q with arriving := q.arriving.set n { p with atQueue := true } })

/-- A result of a packet, without what it did. -/
def Packet.result (p : Packet) (writes : List (Dest × VWord)) (flags : Flags) (trap : Option Trap) : Result :=
  { sender := p.sender, tag := p.tag, held := p.held, writes := writes, flags := flags, trap := trap }

/-- A packet's result where nothing was done: a trap for its sender. -/
def Packet.refused (p : Packet) (e : Trap) : Result := p.result (p.work.dests.map fun d => (d, 0)) 0 (some e)

/-- The big core runs a guest entry: the state after it, and the result on its way back (06 R151, R156, R157). A float
instruction traps only where its sender is held. -/
def Packet.run (p : Packet) (s : State) : State × Result :=
  match p.work with
  | .float j =>
    let o := j.run
    let fl := unionFlags o.flags
    match (if p.held then o.trap? (enables (s.ctx p.sender).fctl) else none) with
    | some t => (s, p.result [(j.dest, 0)] 0 (some t))
    | none => (s, p.result [(j.dest, o.value)] fl none)
  | .atomic j =>
    let dests := (ShipWork.atomic j).dests
    match j.run s with
    | (t, .error e) => (t, p.result (dests.map fun d => (d, 0)) 0 (some e))
    | (t, .ok (old, fl)) =>
      let t := if j.writes old then t.setCtx p.sender ((t.ctx p.sender).specStore j.addr j.size) else t
      let values := [BitVec.ofNat 512 (old % 2 ^ 64), BitVec.ofNat 512 (old / 2 ^ 64)]
      (t, p.result (dests.zip values) fl none)

/-- Whether the big core of a hive is fenced: its packets and results are lost (20 R391). -/
def State.hiveFenced (s : State) (h : HiveId) : Bool := (s.core (bigCore h)).status == .fenced

/-- The lines that a guest entry of a hive accesses: an atomic's, in the big core's L1 or at the home slice (09 Table 9.6). -/
def Packet.caches (p : Packet) (h : HiveId) (s : State) : State :=
  match p.work with
  | .float _ => s
  | .atomic j =>
    ((linesOf j.addr j.size).foldl (fun (t : State) l => t.atomicLine (bigCore h) j.hive l) s).crossLocal h.die j.addr

/-- The n-th guest entry leaves the queue, its credit returns, and its result is on its way. -/
def State.retireGuest (s : State) (h : HiveId) (n : Nat) (p : Packet) (r : Result) : State :=
  let q := s.hive h
  let t := (s.setHive h { q with queue := q.queue.eraseIdx n }).returnCredit p.sender.core p.reserved
  t.setHive h { t.hive h with results := (t.hive h).results ++ [r] }

/-- The n-th guest entry runs in an issue slot. -/
def State.runGuest (s : State) (h : HiveId) (n : Nat) (p : Packet) : State :=
  let r := p.run (s.countSlot h none)
  (p.caches h r.1).retireGuest h n p r.2

/-- GUEST_ISSUE (06 R152, R153): the n-th entry of the guest issue queue runs, if it is the oldest that is ready, and its credit
returns. A wide atomic that reaches an absent window of its sender's core touches it first, and waits; a touch that cannot be made
traps at the sender (11 R265, R266). -/
def execGuestIssue (h : HiveId) (n : Nat) (s : State) : Host.Outcome State Fault Refusal :=
  match (s.hive h).queue[n]? with
  | none => .next s
  | some p =>
    if s.hiveFenced h then .next s
    else match s.guestTouch p with
      | .error (.hold u) => .next { u with cur := s.cur }
      | t =>
        if !s.guestReady h p || ((s.hive h).queue.take n).any (s.guestReady h) || !s.guestMay h p then .next s
        else match t with
          | .error (.trap e u) => .next (({ u with cur := s.cur }.countSlot h none).retireGuest h n p (p.refused e))
          | _ => .next (s.runGuest h n p)

/-- GUEST_AGEING_EXPIRY (06 R153): an entry that has waited 1,024 cycles has aged. -/
def execGuestAgeingExpiry (h : HiveId) (n : Nat) (s : State) : Host.Outcome State Fault Refusal :=
  let q := s.hive h
  match q.queue[n]? with
  | none => .next s
  | some p =>
    if p.entered + 1024 ≤ s.dieCycle then .next (s.setHive h { q with queue := q.queue.set n { p with aged := true } })
    else .next s

/-- LEN of the instruction a context is held in. -/
def Context.heldLen (m : Context) : BitVec 2 :=
  match m.blocked with
  | some b => ((encode b.instr).headD 0).extractLsb' 0 2
  | none => 0

/-- Whether the instruction a context is held in acquires (02 Table 2.8). -/
def Context.heldAcquires (m : Context) : Bool :=
  match m.blocked with
  | some b => (match b.instr.payload with | some (.a _ x) => acquires x.ord | _ => false)
  | none => false

/-- A trap for a held sender: taken at its instruction, or, where its core is halted or parked, first when it goes on (06
R157, R160). -/
def State.landTrap (s : State) (c : CtxId) (t : Trap) : State :=
  let k := s.core c.core
  let m := s.ctx c
  if (k.status = .running || k.status = .halting) && k.parkedSince.isNone then s.asCtx c (takeTrap t m.heldLen)
  else s.setCtx c { m with pendingTrap := some (t, some m.heldLen), blocked := none }

/-- SHIP_RESULT_LANDING (06 R155 to R158, R160); a result of a fenced core waits (20 R391). -/
def execShipResultLanding (h : HiveId) (n : Nat) (s : State) : Host.Outcome State Fault Refusal :=
  let q := s.hive h
  match (if s.hiveFenced h then none else q.results[n]?.filter fun r => (s.core r.sender.core).status != .fenced) with
  | none => .next s
  | some r =>
    let t := s.setHive h { q with results := q.results.eraseIdx n }
    let m := t.ctx r.sender
    match r.trap with
    | some e => .next ((t.setCtx r.sender (m.landTrap r)).landTrap r.sender e)
    | none =>
      let m' := if r.held && m.heldAcquires then (m.land r).dropSpec else m.land r
      let t := (t.setCtx r.sender m').mend r.sender (r.writes.map (·.1))
      .next (if r.held then t.asCtx r.sender (State.afterIssue · false) else t)

/-- SHIP_RETRANSMIT (06 R162): a packet or result is sent again, logged as a soft error of the crossbar. -/
def execShipRetransmit (h : HiveId) (n : Nat) (s : State) : Host.Outcome State Fault Refusal :=
  let q := s.hive h
  if n < q.arriving.length + q.results.length then .next (s.logError h.die 0 6 (s.physHive h)) else .next s

/-- Whether a write of GSHARE made in die clock cycle c may come in force: a window of the M in force begins in this cycle, and the
write reached the big core before it, at the earliest one cycle after it was made (R153; log 113). -/
def State.shareDue (s : State) (h : HiveId) (c : Nat) : Bool :=
  (s.core (bigCore h)).cycles % (s.hive h).gshareM == 0 && decide (c + 2 ≤ s.dieCycle)

/-- GSHARE_UPDATE (06 R153): the oldest write on its way comes in force in a window's first cycle. -/
def execGshareUpdate (h : HiveId) (s : State) : Host.Outcome State Fault Refusal :=
  let q := s.hive h
  match q.gshareNext with
  | [] => .next s
  | (m, k, c) :: rest =>
    if s.shareDue h c then .next (s.setHive h { q with gshareM := m, gshareK := k, gshareNext := rest }) else .next s

/-! ## Steps of matrix commands (07) -/

/-- The byte ranges a product's step reads of operand A or B. -/
def MatCmd.operandReads (c : MatCmd) (b : Bool) : List (Nat × Nat) :=
  let at_ (base : Word) (row w idx : Nat) : Nat × Nat :=
    (engineAddr c.pages ((shiftAddr base ((row + idx * w / 8 : Nat) : Int)).getD base), max 1 (w / 8))
  if b then c.positions.flatMap fun k => (List.range 64).map fun j => at_ c.b (k * c.pb) c.tyB.width j
  else (List.range 64).flatMap fun m => c.positions.map fun k => at_ c.a (m * c.pa) c.tyA.width k

/-- The byte ranges of the group records a product's step reads: those of groups the command does not hold yet. -/
def MatCmd.recordReads (c : MatCmd) : List (Nat × Nat) :=
  match c.desc with
  | some d => c.newGroups.flatMap fun g => (List.range 64).map fun j => (c.recordAddr d g j, 4)
  | none => []

/-- The byte ranges a product's step reads, operands that a merge has given apart. -/
def MatCmd.productReads (c : MatCmd) : List (Nat × Nat) :=
  let plain (b : Bool) : List (Nat × Nat) := if (c.merged b).isEmpty then c.operandReads b else []
  plain false ++ plain true ++ c.recordReads

/-- Whether the next step of a command meets an uncorrectable error (07 R188). -/
def State.badStep (s : State) (h : HiveId) (c : MatCmd) : Bool :=
  let bad (r : Nat × Nat) : Bool := (s.poison r.1 r.2).isSome
  if c.fn = 4 || c.fn = 5 then c.productReads.any bad || (s.slot h c.acc).bad
  else if c.fn = 3 then (List.range 64).any fun j => bad (c.rowAddr c.step j, slotBytes c.mode.toNat)
  else if c.fn = 7 || c.fn = 8 then (s.slot h c.acc).bad
  else false

/-- Whether the next row of a drain raises an enabled flag (07 R185). -/
def State.badRow (s : State) (h : HiveId) (c : MatCmd) : Bool :=
  (c.fn == 7 || c.fn == 8) && traps c.en (c.rowFlags (s.slot h c.acc))

/-- A step of a product: the slot and the command after it (07 R174 to R180). -/
def MatCmd.productStep (c : MatCmd) (o : MatOps) (x : Slot) : Slot × MatCmd :=
  let next (c : MatCmd) : MatCmd := { c with step := c.step + 1, fetch := none }
  if c.classical then
    if c.kind = .i48 then (x, next { c with parts := c.integerStep o }) else (c.classicalStep o x, next c)
  else if c.kind = .i48 then (x, next { c with parts := c.blockStepInt o })
  else
    let r := c.blockStep o
    (x, next { c with parts := r.1, flags := c.flags ||| r.2 })

/-- One row of a TLOAD; the first clears NV, NX, SX and FAULT (07 R172). -/
def State.loadRow (s : State) (p : Option Nat) (c : MatCmd) (x : Slot) : Slot :=
  let x := if c.step = 0 then { x with nv := false, nx := false, sx := false, fault := false, bad := false } else x
  x.setRow c.step ((List.range 64).map fun j =>
    loadInto c.mode.toNat x.kind (s.engineLoad p (c.rowAddr c.step j) (slotBytes c.mode.toNat)))

/-- One row of a TSTORE (07 R186). -/
def State.storeRow (s : State) (p : Option Nat) (c : MatCmd) (x : Slot) : State :=
  let row := (x.drainRow c.mode.toNat c.sat c.step).1
  (List.range 64).foldl (fun t j => t.enginePut p (c.rowAddr c.step j) (slotBytes c.mode.toNat) (row.getD j 0)) s

/-- Replace the command at a place of a context's queue. -/
def State.setCmd (s : State) (c : CtxId) (n : Nat) (d : MatCmd) : State :=
  let q := s.mat c
  s.setMat c { q with queue := q.queue.set n d }

/-- One step of a command other than TDRAIN (07 R190). -/
def State.matStep (s : State) (c : CtxId) (n : Nat) (d : MatCmd) : State :=
  let h := coreHive c.core
  let x := s.slot h d.acc
  let p := s.owner c.core
  let next : MatCmd := { d with step := d.step + 1 }
  match d.fn with
  | 1 => (s.setSlot h d.acc Slot.reset).setCmd c n next
  | 2 => (s.setSlot h d.acc (Slot.zeroed x.owner x.kind)).setCmd c n next
  | 3 => (s.setSlot h d.acc (s.loadRow p d x)).setCmd c n next
  | 6 =>
    let t := s.setCmd c n next
    t.setMat c { t.mat c with desc := d.desc }
  | 8 => (s.storeRow p d x).setCmd c n { next with flags := d.flags ||| d.rowFlags x }
  | _ =>
    let d := s.readGroups p d
    let r := d.productStep (s.matOps p d) x
    (s.setSlot h d.acc r.1).setCmd c n r.2

/-! ## Multicast (07 R184) -/

/-- Whether a command's fetches are multicast. -/
def MatCmd.casts (c : MatCmd) : Bool := c.mcast != 0 && (c.fn == 4 || c.fn == 5)

/-- Address, pitch and type of operand A or B. -/
def MatCmd.operand (c : MatCmd) (b : Bool) : Word × Nat × MatTy := if b then (c.b, c.pb, c.tyB) else (c.a, c.pa, c.tyA)

/-- Whether command d's fetch of an operand, not merged yet and waiting no longer than 256 cycles, matches c's: the same address, pitch,
type, K and step; `own` is the bit of c's engine. -/
def MatCmd.matches (c d : MatCmd) (own now : Nat) (b : Bool) : Bool :=
  d.casts && d.mcast.getLsbD own && d.selects b && d.k == c.k && d.operand b == c.operand b &&
    d.operandReads b == c.operandReads b &&
    (match d.fetch with | some f => !f.got b && decide (now ≤ f.since + 256) | none => false)

/-- The commands of engine `e` of a quad whose fetch of an operand matches, with their places. -/
def State.partners (s : State) (h : HiveId) (c : MatCmd) (b : Bool) (e : Nat) : List (CtxId × Nat × MatCmd) :=
  (s.hive (quadHive h e)).mats.flatMap fun (m : CtxId × MatCtx) =>
    (List.range m.2.queue.length).filterMap fun n =>
      match m.2.queue[n]? with
      | some d => if c.matches d (quadBit h) s.dieCycle b then some (m.1, n, d) else none
      | none => none

/-- The other engines a command names. -/
def MatCmd.named (c : MatCmd) (h : HiveId) : List Nat := [0, 1, 2, 3].filter fun e => c.mcast.getLsbD e && e != quadBit h

/-- Whether every engine a command names has a matching fetch of an operand. -/
def State.met (s : State) (h : HiveId) (c : MatCmd) (b : Bool) : Bool :=
  (c.named h).all fun e => !(s.partners h c b e).isEmpty

/-- Merge the n-th command's fetch of an operand with what has arrived: every fetch of the merge gives the bytes the oldest
read. -/
def State.mergeFetch (s : State) (c : CtxId) (n : Nat) (b : Bool) : State :=
  let h := coreHive c.core
  match (s.mat c).queue[n]? with
  | none => s
  | some d =>
    let all := (c, n, d) :: (d.named h).flatMap (s.partners h d b)
    let fs := all.filterMap fun e => e.2.2.fetch
    match fs.find? fun f => fs.all fun g => decide (f.since ≤ g.since) with
    | none => s
    | some f => all.foldl (fun t e => t.setCmd e.1 e.2.1 { e.2.2 with fetch := e.2.2.fetch.map fun g => g.take b (f.data b) }) s

/-- Issue the fetch of a command's next step: the bytes of both operands as they are now. -/
def State.issueFetch (s : State) (c : MatCmd) : MatCmd :=
  let bytes (b : Bool) : List (Nat × Byte) := (c.operandReads b).flatMap fun r => (List.range r.2).map fun i => (r.1 + i, s.byte (r.1 + i))
  { c with fetch := some { since := s.dieCycle, a := bytes false, b := bytes true, gotA := false, gotB := false } }

/-- Merge the fetch of each selected operand for which a condition holds. -/
def State.mergeIf (s : State) (c : CtxId) (n : Nat) (ok : State → MatCmd → Bool → Bool) : State :=
  [false, true].foldl (fun (t : State) b =>
    match (t.mat c).queue[n]? with
    | some d => if d.selects b && (d.fetch.any fun f => !f.got b) && ok t d b then t.mergeFetch c n b else t
    | none => t) s

/-- Whether a command's fetch may go on: it is no multicast, or each selected operand's merge is decided. -/
def MatCmd.fetchReady (c : MatCmd) : Bool :=
  !c.casts || c.fetch.any fun f => [false, true].all fun b => !c.selects b || f.got b

/-! ## Matrix events -/

/-- The meaning of a matrix command, for its acceptance. -/
def matCommand : Instr → Option (State → Host.Outcome State Fault Refusal)
  | .tfree x => some (execTfree x)
  | .tzero x => some (execTzero x)
  | .tload x => some (execTload x)
  | .tmma x => some (execTmma x)
  | .tmmaq x => some (execTmmaq x)
  | .tqdesc x => some (execTqdesc x)
  | .tdrain x => some (execTdrain x)
  | .tstore x => some (execTstore x)
  | _ => none

/-- An acceptance for a context of a saved core lands in its image (06 R160). -/
def State.deposit (s : State) (c : CtxId) (u : State) : State :=
  let st := (s.core c.core).status
  if (st == .saved || st == .off) && (s.ctx c).blocked.isSome && (u.ctx c).blocked.isNone then
    match s.owner c.core with
    | some p => u.writeImage p c.core
    | none => u
  else u

/-- MAT_COMMAND_ACCEPT (07 R165): a command held for a free entry is looked at again. -/
def execMatCommandAccept (c : CtxId) (s : State) : Host.Outcome State Fault Refusal :=
  onNext (s.deposit c) (retryHeld c matCommand s)

/-- Whether the timeline of a context goes on (07 R188). -/
def State.matGoes (s : State) (c : CtxId) : Bool := (s.ctx c).matTl.fault.isNone

/-- The byte ranges the next step of a command reaches. -/
def MatCmd.reaches (d : MatCmd) : List (Nat × Nat) :=
  if d.fn = 4 ∨ d.fn = 5 then d.productReads
  else if d.fn = 3 ∨ d.fn = 8 then [(d.rowAddr d.step 0, 64 * slotBytes d.mode.toNat)]
  else []

/-- The byte ranges the next step of a command reads. -/
def MatCmd.stepReads (d : MatCmd) : List (Nat × Nat) := if d.fn = 8 then [] else d.reaches

/-- The byte ranges the next step of a command writes: a row of a TSTORE. -/
def MatCmd.stepWrites (d : MatCmd) : List (Nat × Nat) :=
  if d.fn = 8 then [(d.rowAddr d.step 0, 64 * slotBytes d.mode.toNat)] else []

/-- Whether the n-th command of a context may go on with its next step: it is not stopped, faulty, or waiting for a line, and it is no
TDRAIN, whose rows are dispatched. -/
def State.matMay (s : State) (c : CtxId) (n : Nat) : Option MatCmd :=
  (s.matCmd c n).filter fun d =>
    let h := coreHive c.core
    s.matGoes c && d.fn != 7 && !s.badStep h d && !s.badRow h d && !s.portDead d.reaches && !s.rangesBusy h.die d.reaches

/-- Whether a matrix context has a command whose step is ready. -/
def State.matReady (s : State) (c : CtxId) : Bool :=
  (List.range (s.mat c).queue.length).any fun n => (s.matMay c n).any fun d => d.fetchReady

/-- Whether it is a matrix context's turn: no ready one of its engine comes before it, round-robin over the numbers (R166). -/
def State.matTurn (s : State) (c : CtxId) : Bool :=
  let q := s.hive (coreHive c.core)
  q.mats.all fun e => decide (engineBehind q.matTurn c ≤ engineBehind q.matTurn e.1) || !s.matReady e.1

/-- The turn passes to the next matrix context. -/
def State.passMatTurn (s : State) (c : CtxId) : State :=
  s.setHive (coreHive c.core) { s.hive (coreHive c.core) with matTurn := matIndex c + 1 }

/-- MAT_STEP (07 R166, R174, R190): the n-th accepted command of a matrix context runs one step, in its turn. A multicast command
first issues its fetch, which merges once every engine it names has come (R184). -/
def execMatStep (c : CtxId) (n : Nat) (s : State) : Host.Outcome State Fault Refusal :=
  let h := coreHive c.core
  match s.matMay c n with
  | none => .next s
  | some d =>
    if d.fetchReady then
      .next (if s.matTurn c then
          ((((s.matStep c n d).engineReads h.die d.stepReads).engineWrites h.die d.stepWrites).passMatTurn c)
        else s)
    else if d.fetch.isSome then .next s
    else
      .next (((s.setCmd c n (s.issueFetch d)).mergeIf c n fun t e b => t.met h e b).engineReads h.die
        ([false, true].flatMap fun b => if d.selects b then d.operandReads b else []))

/-- MCAST_WAIT_EXPIRY (07 R184): after 256 cycles a fetch proceeds with what has arrived. -/
def execMcastWaitExpiry (c : CtxId) (n : Nat) (s : State) : Host.Outcome State Fault Refusal :=
  .next (s.mergeIf c n fun t d _ => d.fetch.any fun f => decide (f.since + 256 ≤ t.dieCycle))

/-- What the completion of a command does to its slot (07 R172, R175, R176, R186). -/
def MatCmd.finishSlot (d : MatCmd) (x : Slot) : Slot :=
  match d.fn with
  | 3 => { x with nf := x.elems.any fun e => x.kind.nonFinite e.toNat }
  | 4 => d.complete x
  | 5 => d.complete x
  | 7 => { Slot.reset with owner := x.owner, kind := x.kind, elems := x.elems }
  | _ => x

/-- MAT_COMMAND_COMPLETE (07 R166, R185): the oldest command of a context has run its steps and its handlers have
retired; the timeline takes its number, and a drain's flags merge. -/
def execMatCommandComplete (c : CtxId) (s : State) : Host.Outcome State Fault Refusal :=
  let q := s.mat c
  match q.queue with
  | [] => .next s
  | d :: ds =>
    if d.step < d.total || !d.handlers.isEmpty || !s.matGoes c || !s.matRuns c then .next s
    else
      let h := coreHive c.core
      let t := s.setMat c { q with queue := ds }
      let t := if d.slot?.isSome && d.fn != 1 then t.setSlot h d.acc (d.finishSlot (t.slot h d.acc)) else t
      let m := t.ctx c
      let m := { m with matTl := { m.matTl with value := d.seq } }
      .next (t.setCtx c (if d.fn = 7 || d.fn = 8 then m.mergeFlags d.flags else m))

/-- MAT_FAULT (07 R188): the next step of a command meets an uncorrectable error, or its next row raises an enabled flag;
the timeline stops below it and the slot's FAULT bit is set. The commands before it complete first, so it is the oldest. What its
earlier steps have left in the slot stays, also of a TLOAD (log 110). -/
def execMatFault (c : CtxId) (n : Nat) (s : State) : Host.Outcome State Fault Refusal :=
  let h := coreHive c.core
  match s.matCmd c n with
  | none => .next s
  | some d =>
    let x := s.slot h d.acc
    let t : Option Trap :=
      if s.badStep h d then some { cause := .engineFault, tval := engineTval d.seq d.acc.val 4 }
      else if s.badRow h d then some { cause := .fp, tval := fpTval (d.flags ||| d.rowFlags x) d.step }
      else none
    match t with
    | none => .next s
    | some t =>
      if n ≠ 0 || !s.matGoes c then .next s
      else
        let m := s.ctx c
        let s := if t.cause = .engineFault then s.logEngine c d.acc.val else s
        .next ((s.setCtx c { m with matTl := { m.matTl with fault := some t } }).setSlot h d.acc { x with fault := true })

/-- The registers v28 to v31 of a row handler: elements packed from lane 0 of v28 (07 R186). -/
def rowVectors (w : Nat) (row : List Nat) : List VWord :=
  let n := packLanes w row
  [0, 1, 2, 3].map fun i => BitVec.ofNat 512 (n / 2 ^ (512 * i))

/-- Start one row handler on a helper of a core (07 R186). -/
def State.startHandler (s : State) (c : CtxId) (h : Fin 11) (d : MatCmd) (row : List Nat) (s1 : Nat) : State :=
  let k := s.core c.core
  let w := 8 * slotBytes d.mode.toNat
  let vs := rowVectors w row
  let go (m : Context) : Context :=
    let m := m.begin (s.ctx c) d.a (BitVec.ofNat 64 s1) d.b
    (((m.setV 28 (vs.getD 0 0)).setV 29 (vs.getD 1 0)).setV 30 (vs.getD 2 0)).setV 31 (vs.getD 3 0)
  (s.setCore c.core (k.mapCtx h go)).mendAll { core := c.core, num := h }

/-- TDRAIN_ROW_DISPATCH (07 R186, 08 R193): the next row of a context's TDRAIN starts a handler on the lowest free helper,
and a .f64 row two; the row of the slot is then zero. -/
def execTdrainRowDispatch (c : CtxId) (s : State) : Host.Outcome State Fault Refusal :=
  let h := coreHive c.core
  match s.drainAt c with
  | none => .next s
  | some (n, d) =>
    let x := s.slot h d.acc
    let row := (x.drainRow d.mode.toNat d.sat d.step).1
    let after (t : State) (hs : List (Fin 11)) : State :=
      (t.setSlot h d.acc (x.setRow d.step (List.replicate 64 0))).setCmd c n
        { d with step := d.step + 1, flags := d.flags ||| d.rowFlags x, handlers := d.handlers ++ hs }
    match (s.core c.core).freeHelpers with
    | [] => .next s
    | i :: rest =>
      if d.mode = 7 then
        match rest with
        | [] => .next s
        | j :: _ =>
          let t := s.startHandler c i d (row.take 32) d.step
          .next (after (t.startHandler c j d (row.drop 32) (d.step + 64)) [i, j])
      else .next (after (s.startHandler c i d row d.step) [i])

/-! ## Copies (11) -/

/-- The meaning of an instruction that queues a copy command, for its acceptance. -/
def copyCommand : Instr → Option (State → Host.Outcome State Fault Refusal)
  | .copy x => some (execCopy x)
  | .cseal x => some (execCseal x)
  | .winadv x => some (execWinadv x)
  | .winflush x => some (execWinflush x)
  | _ => none

/-- COPY_ACCEPT (11 R258): a held copy command is looked at again. -/
def execCopyAccept (c : CtxId) (s : State) : Host.Outcome State Fault Refusal :=
  onNext (s.deposit c) (retryHeld c copyCommand s)

/-- Whether two commands touch a common byte that one of them writes (11 R255). -/
def CopyCmd.clashes (c d : CopyCmd) : Bool :=
  let meet (xs ys : List (Nat × Nat)) : Bool := xs.any fun x => ys.any fun y => rangesMeet x.1 x.2 y.1 y.2
  meet c.ranges.2 (d.ranges.1 ++ d.ranges.2) || meet c.ranges.1 d.ranges.2

/-- The elements of the next 128-byte chunk of a command (11 R252). -/
def CopyCmd.chunk (c : CopyCmd) : List Nat :=
  (List.range (min (128 / recEs c.record) (c.total - c.done))).map fun i => c.done + i

/-- Move element i of a command; a write-out takes its window's range from what it read (11 R267). -/
def CopyCmd.move (c : CopyCmd) (p : Option Nat) (i : Nat) (s : State) : State :=
  match c.kind, recReads c.record c.pages i with
  | .writeOut _ base _ _ (some x), some a =>
    s.enginePut p (recWrites c.record c.pages i) (recEs c.record)
      (packLanes 8 ((List.range (recEs c.record)).map fun j => (x.bytes.getD (a - base + j) 0).toNat))
  | _, _ => s.moveElem p c.record c.pages i

/-- The byte ranges the next chunk of a command writes. -/
def CopyCmd.chunkWrites (c : CopyCmd) : List (Nat × Nat) := c.chunk.map fun i => (recWrites c.record c.pages i, recEs c.record)

/-- A faulty source byte in the next chunk of a command; of a write-out, a byte that was faulty when it was read. -/
def State.badChunk (s : State) (c : CopyCmd) : Bool :=
  match c.kind with
  | .writeOut _ base _ _ (some x) => c.chunk.any fun i =>
      (recReads c.record c.pages i).any fun a => x.bad.any fun o => decide (a ≤ base + o) && decide (base + o < a + recEs c.record)
  | _ => (s.badSource c.record c.pages c.chunk).isSome

/-- A command about to move data: a write-out that waited for earlier commands reads its range (11 R267). -/
def State.begin (s : State) (d : CopyCmd) : CopyCmd :=
  match d.kind with
  | .writeOut w base size after none => { d with kind := .writeOut w base size after (some (s.snapshot base size)) }
  | _ => d

/-- Whether every command a write-out must read after has acted. -/
def State.mayBegin (s : State) (d : CopyCmd) : Bool :=
  match d.kind with
  | .writeOut _ _ _ after none => !after.any s.outstanding
  | _ => true

/-- The n-th command of a copy context, if it may move data: no fault has stopped the timeline, and it clashes with no
earlier command still queued (11 R255, R262). -/
def State.copyAt (s : State) (c : CtxId) (n : Nat) : Option CopyCmd :=
  let q := s.copyQueue c
  match q[n]? with
  | none => none
  | some d =>
    if (s.ctx c).copyTl.fault.isNone && s.mayBegin d && !(q.take n).any fun e => e.clashes d then some (s.begin d) else none

/-- The byte ranges the next chunk of a command reads; a write-out has read its range. -/
def CopyCmd.chunkReads (c : CopyCmd) : List (Nat × Nat) :=
  match c.kind with
  | .copy => c.chunk.filterMap fun i => (recReads c.record c.pages i).map fun a => (a, recEs c.record)
  | _ => []

/-- The n-th command of a copy context, if its next chunk can be moved: its source is not faulty, and no array or line that it needs is
closed to it. -/
def State.copyMay (s : State) (c : CtxId) (n : Nat) : Option CopyCmd :=
  (s.copyAt c n).filter fun d =>
    !s.badChunk d && !s.portDead (d.ranges.1 ++ d.ranges.2) && !s.rangesBusy c.core.die (d.chunkReads ++ d.chunkWrites)

/-- Whether it is a copy context's turn: no other of its engine with a chunk to move comes before it, round-robin over the numbers
(R252). -/
def State.copyTurn (s : State) (c : CtxId) : Bool :=
  let q := s.hive (coreHive c.core)
  q.copies.all fun e => decide (engineBehind q.copyTurn c ≤ engineBehind q.copyTurn e.1) ||
    !(List.range e.2.length).any fun n => (s.copyMay e.1 n).any fun d => decide (d.done < d.total)

/-- The turn passes to the next copy context. -/
def State.passCopyTurn (s : State) (c : CtxId) : State :=
  s.setHive (coreHive c.core) { s.hive (coreHive c.core) with copyTurn := matIndex c + 1 }

/-- COPY_CHUNK (11 R252, R254): one chunk of the n-th queued command, in its context's turn. -/
def execCopyChunk (c : CtxId) (n : Nat) (s : State) : Host.Outcome State Fault Refusal :=
  match s.copyMay c n with
  | none => .next s
  | some d =>
    if !s.copyTurn c then .next s
    else
      let t := (((d.chunk.foldl (fun t i => d.move (s.owner c.core) i t) s).engineReads c.core.die d.chunkReads).engineWrites
        c.core.die d.chunkWrites).passCopyTurn c
      .next (t.setCopyQueue c ((t.copyQueue c).set n { d with done := d.done + d.chunk.length }))

/-- The copy timeline after commands leave the queue: below the oldest one left (11 R259); batches it has reached leave
the list (R260). -/
def Context.settleCopies (m : Context) (q : List CopyCmd) : Context :=
  let v := match q.head? with
    | some d => d.seq - 1
    | none => m.copyTl.last
  { m with copyTl := { m.copyTl with value := v }, batches := m.batches.filter fun b => decide (v < b) }

/-- COPY_COMPLETE (11 R259, R260): the n-th queued command is done; a seal is done once nothing precedes it. -/
def execCopyComplete (c : CtxId) (n : Nat) (s : State) : Host.Outcome State Fault Refusal :=
  match s.copyAt c n with
  | none => .next s
  | some d =>
    if d.done < d.total || (d.kind == .seal && n != 0) then .next s
    else
      let q := (s.copyQueue c).eraseIdx n
      let t := s.setCopyQueue c q
      .next (t.setCtx c ((t.ctx c).settleCopies q))

/-- COPY_FAULT (11 R262): a source byte of the next chunk is uncorrectable; the timeline stops. -/
def execCopyFault (c : CtxId) (n : Nat) (s : State) : Host.Outcome State Fault Refusal :=
  match s.copyAt c n with
  | none => .next s
  | some d =>
    if !s.badChunk d then .next s
    else
      let slot := match d.kind with | .writeOut w _ _ _ _ => w.val | _ => 0
      let m := s.ctx c
      let t : Trap := { cause := .engineFault, tval := engineTval d.seq slot 11 }
      .next ((s.logEngine c 0).setCtx c { m with copyTl := { m.copyTl with fault := some t } })

/-- Replace a window of a core. -/
def State.setWinAt (s : State) (k : CoreId) (w : Fin 8) (x : Window) : State :=
  let c := s.core k
  s.setCore k { c with wins := c.wins.set w x }

/-- TVAL of a faulty source byte of a record as the program gave it: its address there, for element i whose source was read at
a (20 R385). -/
def sourceTval (given : BitVec 1024) (i : Nat) (a : Option Nat) (b : Nat) : Word :=
  match (recElem given i).src, a with
  | some d, some a => moved (recSrc given) d + BitVec.ofNat 64 (b - a)
  | _, _ => recSrc given

/-- TILE_LOAD_DONE (11 R266): the tile is in place and the window present; or a source byte is uncorrectable, the window is
absent again, and the touching instruction traps. -/
def execTileLoadDone (k : CoreId) (w : Fin 8) (s : State) : Host.Outcome State Fault Refusal :=
  let x := (s.core k).wins[w]
  match x.load with
  | none => .next s
  | some l =>
    let r := recAbs k x.record
    let is := List.range (recTotal r)
    if s.portDead ((is.filterMap fun i => (recReads r l.pages i).map fun a => (a, 1)) ++ [(localAddr k 0, 1)]) then .next s
    else match s.badSource r l.pages is with
    | some (i, b) =>
      let t : Trap := { cause := .dataError, tval := sourceTval x.record i (recReads r l.pages i) b }
      .next ((s.logFound b).setWinAt k w { x.with 1 x.dirty with load := none, fault := some (l.toucher, t) })
    | none =>
      let reads := is.filterMap fun i => (recReads r l.pages i).map fun a => (a, recEs r)
      if s.rangesBusy k.die reads then .next s
      else
        let t := (s.moveElems (s.owner k) r l.pages is).engineReads k.die reads
        .next (t.setWinAt k w { x.with 3 false with load := none })

end Sys2Proof.Machine
end

