-- ==== Sys2Proof/Machine/Clock.lean ====
section
/-! DEFINITION. The passing of time: the reference count, die clock cycles, core cycle counts and heartbeat timers
(01 R21 to R23, 04 R113, 18 R377, R379). Time never passes a cycle in which something on the core-mesh wires is due. -/

namespace Sys2Proof.Machine

/-- The timed instructions (12 R280). -/
def isTimed : Instr → Bool
  | .xmit _ => true
  | .isel _ => true
  | .xrecv _ => true
  | _ => false

/-- Instructions that a context looks at again in a die clock cycle of their own: the timed ones, and an arrival that ends a transfer
phase, for the words of its cycle (12 R278, R280). -/
def looksAgain : Instr → Bool
  | .barr _ => true
  | .phase _ => true
  | i => isTimed i

/-- Whether the heartbeat timer of a core advances (04 R113): not where it is parked, switched off or pre-empted, or every live
context is blocked. A core that a request has reached is pre-empted once it has halted (17 R339, Table 17.1). -/
def Core.beats (k : Core) : Bool :=
  (k.status == .running || k.status == .halting) && k.parkedSince.isNone && k.live.any fun i => !(k.ctxs[i]).isBlocked

/-- The die clock cycle in which a context has something due: a timed instruction it waits at, or the first instruction it can issue
after a release (12 R274, R280). -/
def State.ctxDue (s : State) (c : CtxId) : Option Nat :=
  let m := s.ctx c
  let t := { s with cur := c }
  match m.blocked, m.wakeAt with
  | some b, _ => if looksAgain b.instr then b.deadline else none
  | none, some w => if s.dieCycle < w || (t.ready).any t.slotOpen then some w else none
  | none, none => none

/-- Die clock cycles in which a core has something due: a phase start, and what its contexts have due while it runs. -/
def State.coreDues (s : State) (k : CoreId) (c : Core) : List Nat :=
  if c.status = .fenced then []
  else (c.bgs.toList.filterMap fun b => b.startAt) ++
    (if c.status = .running || c.status = .halting then c.live.filterMap fun i => s.ctxDue { core := k, num := i } else [])

/-- Die clock cycles in which a hive has something due: a write of GSHARE is in force from the first window that begins more than 16
cycles after it, at the latest (06 R153), and a multicast fetch waits for no partner any more (07 R184). -/
def State.hiveDues (s : State) (h : HiveId) (x : Hive) : List Nat :=
  ((x.gshareNext.take 1).map fun e =>
    let start := s.dieCycle + (x.gshareM - (s.core (bigCore h)).cycles % x.gshareM) % x.gshareM
    start + (e.2.2 + 17 - start + x.gshareM - 1) / x.gshareM * x.gshareM) ++
    x.mats.flatMap fun e => e.2.queue.filterMap fun c => if c.waitsMerge then c.fetch.map fun f => f.since + 256 else none

/-- Die clock cycles in which a die has something due: what arrives on the core-mesh wires, and, at once, the action of a droop
detector that its lane wakes have tripped (18 R379). -/
def State.dieDues (s : State) (x : Die) : List Nat :=
  x.tokens.map (·.due) ++ x.releases.map (·.due) ++ x.wires.map (·.due) ++
    x.segments.filterMap fun e => if e.2.tripDue then some s.dieCycle else none

/-- Every cycle with something due. -/
def State.dues (s : State) : List Nat :=
  (s.cores.flatMap fun e => s.coreDues e.1 e.2) ++ (s.hives.flatMap fun e => s.hiveDues e.1 e.2) ++ s.dies.flatMap fun e => s.dieDues e.2

/-- Cycles that may pass, of n: not beyond the first due cycle. -/
def State.allowed (s : State) (n : Nat) : Nat := s.dues.foldl (fun m d => min m (d - s.dieCycle)) n

/-- Whether a core measures windows for its divider: a little core that runs outside a transfer phase (18 R377). -/
def State.measures (s : State) (k : CoreId) (c : Core) : Bool :=
  !k.big && c.status == .running && c.transfer.isNone && (s.power.cfg.getLsbD 62 || c.divider != 1)

/-- Reference ticks that may pass, of n: not beyond the end of a window of 16,000. -/
def State.allowedTicks (s : State) (n : Nat) : Nat :=
  (s.cores.filter fun e => s.measures e.1 e.2).foldl (fun m e => min m (16000 - e.2.windowTicks)) n

/-- How many of n cycles of a given length pass in so many die clock cycles, and what is left of them. -/
def cyclesOf (n len total : Nat) : Nat × Nat :=
  let c := min n (total / len)
  (c, total - c * len)

/-- Core cycles that end in so many die clock cycles, counted from the beginning of the present one, and how much of the next has
passed: `pre` cycles up to the one of a droop trip, 6 stretched ones of twice the length, then others (18 R379, 01 R21). -/
def runCycles (divider pre stretched total : Nat) : Nat × Nat :=
  let a := cyclesOf pre divider total
  if a.1 < pre then a
  else
    let b := cyclesOf stretched (2 * divider) a.2
    if b.1 < stretched then (a.1 + b.1, b.2)
    else (a.1 + b.1 + b.2 / divider, b.2 % divider)

/-- Own cycles of a core in n die clock cycles, and how much of the next has passed (01 R21, R23); `gated` is a core whose clock
stands still, as does that of a core that is off. -/
def Core.ownCycles (k : Core) (gated : Bool) (n : Nat) : Nat × Nat :=
  if k.status = .off || gated then (0, k.within)
  else
    match k.droop with
    | none => runCycles k.divider 0 0 (k.within + n)
    | some t => runCycles k.divider (t + 1 - k.cycles) (min 6 (t + 7 - k.cycles)) (k.within + n)

/-- The kinds of cycles of 18 R377. -/
inductive CycleKind where
  | near | far | idle
  deriving DecidableEq, Repr

/-- Whether an instruction that a context is blocked in waits on a shipped result or on the acceptance of an engine (18 R377). -/
def Blocked.far (b : Blocked) : Bool :=
  (b.phase == 1 && !blocksIn b.instr) || (matCommand b.instr).isSome || (copyCommand b.instr).isSome

/-- The contexts of a core whose next instruction waits on a pending register, a shipped result (18 R377). -/
def State.farWaits (s : State) (k : CoreId) : List (Fin 11) :=
  (s.core k).live.filter fun i =>
    let t := { s with cur := { core := k, num := i } }
    t.me.blocked.isNone &&
      (match t.fetch with
       | .ok ws => (match decode ws with | .ok i => hazard t.me i | .error _ => false)
       | .error _ => false)

/-- What the cycles in which a core issues nothing count as: a context that could issue waits on a latency, local or not; `far` are
those that wait on a pending register, and one held for a shipped result or an acceptance waits on that (18 R377). -/
def Core.cycleKind (k : Core) (isLocal : Bool) (far : List (Fin 11)) : CycleKind :=
  let free (i : Fin 11) : Bool := (k.ctxs[i]).blocked.isNone && !(k.ctxs[i]).parked && !(k.ctxs[i]).stopped
  if isLocal && k.live.any fun i => free i && !far.contains i then .near
  else if k.live.any fun i => free i || (k.ctxs[i]).blocked.any Blocked.far then .far
  else .idle

/-- Count cycles under their kinds; windows pause in a transfer phase and after a pre-emption request (18 R377). -/
def Core.measure (k : Core) (own ticks : Nat) (isLocal : Bool) (far : List (Fin 11)) : Core :=
  if k.status != .running || k.transfer.isSome then k
  else
    let b := if 0 < own && (k.scalarAt == some k.cycles || k.vectorAt == some k.cycles) then 1 else 0
    let k := { k with sensB := k.sensB + b, windowTicks := k.windowTicks + ticks }
    match k.cycleKind isLocal far with
    | .near => { k with sensK := k.sensK + (own - b) }
    | .far => { k with sensM := k.sensM + (own - b) }
    | .idle => k

/-- A core after time passes. The heartbeat is missed where its timer reaches the interval, and stays so (04 R113, 20 R391). -/
def Core.pass (k : Core) (gated isLocal : Bool) (far : List (Fin 11)) (n ticks : Nat) : Core :=
  let own := k.ownCycles gated n
  let timer := if k.beats then k.hbTimer + ticks else k.hbTimer
  let m := k.measure own.1 ticks isLocal far
  { m with
    cycles := k.cycles + own.1
    within := own.2
    hbTimer := timer
    hbMissed := k.hbMissed || (k.beats && k.hbint != 0 && decide (k.hbint.toNat ≤ timer)) }

/-- Whether nothing of a core is outstanding: no shipped packet or result, no landing, no word on its way to it (17 R341, 12
R281). -/
def State.quiescent (s : State) (k : CoreId) : Bool :=
  let h := s.hive (coreHive k)
  let mine (c : CtxId) : Bool := c.core == k
  !(h.arriving.any fun p => mine p.sender) && !(h.queue.any fun p => mine p.sender) && !(h.results.any fun r => mine r.sender) &&
    !((s.die k.die).wires.any fun f => f.dest == k) &&
    (s.core k).ctxs.toList.all fun m => m.pendS == 0 && m.pendV == 0 && m.pendP == 0

/-- Whether a core's issue clock is gated: it is parked and quiescent (18 R370). -/
def State.gated (s : State) (k : CoreId) : Bool := (s.core k).parkedSince.isSome && s.quiescent k

/-- Let m die clock cycles and the given reference ticks pass. -/
def State.elapse (s : State) (m ticks : Nat) : State :=
  { s with
    refCount := s.refCount + ticks
    dieCycle := s.dieCycle + m
    free := s.free + 1
    cores := s.cores.map fun (e : CoreId × Core) =>
      (e.1, e.2.pass (s.gated e.1) (Config.cycleLocal s.free (coreIdBits { core := e.1, num := 0 })) (s.farWaits e.1) m ticks) }

/-- Let n die clock cycles and reference ticks pass, as far as nothing is due; what leaves a core's wires at the end of the present
cycle is due in the next one. -/
def State.pass (s : State) (n ticks : Nat) : State :=
  if s.allowed n = 0 then s.elapse 0 (s.allowedTicks ticks)
  else
    let t := s.forwardAll
    t.elapse (t.allowed n) (t.allowedTicks ticks)

end Sys2Proof.Machine
end

