-- ==== Sys2Proof/Machine/Addr.lean ====
section
/-! DEFINITION. The ADDR major: LEA, GADDR, CADDR, CREL (04 R93 to R99). -/

namespace Sys2Proof.Machine

/-- The null coordinate (04 R96). -/
def nullCoord : Word := 0x800000FC00000000#64

/-- CADDR's result for a value in COREID layout and an offset (04 R97). -/
def caddrValue (scratch : Bool) (c off : Nat) : Word :=
  let die := bits c 26 21
  let row := bits c 20 14
  let col := bits c 13 6
  if scratch then
    if 35 < die ∨ 23 < row ∨ 23 < col ∨ 0x7FFFF < off then nullCoord
    else BitVec.ofNat 64 (scratchAddr { die := die, row := row, col := col } off)
  else if 35 < die ∨ 95 < row ∨ 191 < col ∨ 0x7FFFF < off then nullCoord
  else BitVec.ofNat 64 (localAddr { big := false, die := die, row := row, col := col } off)

/-- A relative form of an absolute local address, each delta in its own field (04 R97). -/
def absToRel (r : CoreId) (a : Nat) : Word :=
  let t := localCore a
  if !coreValid t then nullCoord
  else
    let f (x y w : Nat) : Nat := (((x : Int) - y) % 2 ^ w).toNat
    BitVec.ofNat 64 (9 * 2 ^ 60 + f (t.die / 6) (r.die / 6) 4 * 2 ^ 40 + f (t.die % 6) (r.die % 6) 4 * 2 ^ 36 +
      f t.row r.row 8 * 2 ^ 28 + f t.col r.col 9 * 2 ^ 19 + bits a 18 0)

/-- CREL's result on a core (04 R97). -/
def crelValue (k : CoreId) (toRel : Bool) (v : Word) : Word :=
  let a := v.toNat
  if !toRel && bits a 63 60 = 9 then
    match relToAbs k a with
    | some b => BitVec.ofNat 64 b
    | none => nullCoord
  else if toRel && bits a 63 60 = 8 then absToRel (refCore k) a
  else v

/-- GADDR's result for a distribution, coordinates i and j, and a base offset (04 R99). -/
def gaddrValue (t i j b : Nat) : Word :=
  let pr := bits t 29 23 + 1
  let pc := bits t 22 15 + 1
  let br := 2 ^ bits t 14 11
  let bc := 2 ^ bits t 10 7
  let y := bits t 44 38 + i / br % pr
  let x := bits t 37 30 + j / bc % pc
  let li := i / br / pr * br + i % br
  let lj := j / bc / pc * bc + j % bc
  let off := b + (li * 2 ^ bits t 4 0 + lj) * 2 ^ bits t 6 5
  let die := bits t 50 45
  if 35 < die ∨ 95 < y ∨ 191 < x ∨ 2 ^ bits t 4 0 ≤ lj ∨ 0x7FFFF < off then nullCoord
  else BitVec.ofNat 64 (localAddr { big := false, die := die, row := y, col := x } off)

/-- LEA (04 R94). -/
def execLea (x : RForm) (s : State) : Host.Outcome State Fault Refusal :=
  scalarOp x.form x.d (fun m => (m.getS x.a + (x.opB m <<< x.mod.toNat) + x.form.disp, 0)) s

/-- GADDR (04 R99): i is S[A]<63:32>, j is S[A]<31:0>. -/
def execGaddr (x : RForm) (s : State) : Host.Outcome State Fault Refusal :=
  scalarOp x.form x.d (fun m =>
    let a := (m.getS x.a).toNat
    (gaddrValue (m.dist[x.mod.toNat % 4]'(Nat.mod_lt _ (by decide))).toNat (bits a 63 32) (bits a 31 0) (x.opB m).toNat, 0)) s

/-- CADDR (04 R97). -/
def execCaddr (x : RForm) (s : State) : Host.Outcome State Fault Refusal :=
  scalarOp x.form x.d (fun m => (caddrValue (x.mod == 1) (m.getS x.a).toNat (x.opB m).toNat, 0)) s

/-- CREL (04 R97). -/
def execCrel (x : RForm) (s : State) : Host.Outcome State Fault Refusal :=
  scalarOp x.form x.d (fun m => (crelValue s.cur.core (x.mod == 1) (m.getS x.a), 0)) s

end Sys2Proof.Machine
end

