-- ==== Sys2Proof/Machine/Alu.lean ====
section
/-! DEFINITION. The ALU, ALUI, MULDIV and BIT majors (04 R84 to R92). -/

namespace Sys2Proof.Machine

/-! ## Operations -/

/-- An exact result written by Wr, saturated under SAT (04 R86). -/
def aluExact (x : RForm) (g : Int → Int → Int) (m : Context) : Word × Flags :=
  wrSat x.mod x.form.sat (g (rd x.mod (m.getS x.a)) (rd x.mod (x.opB m)))

/-- A bitwise result: the low w bits, extended by Wr (04 Table 4.2). -/
def aluBits (x : RForm) (g : Word → Word → Word) (m : Context) : Word × Flags :=
  (wr x.mod (g (m.getS x.a) (x.opB m)).toNat, 0)

/-- A choice or an exact result that never saturates. -/
def aluPick (x : RForm) (g : Int → Int → Int) (m : Context) : Word × Flags :=
  (wr x.mod (g (rd x.mod (m.getS x.a)) (rd x.mod (x.opB m))), 0)

/-- A comparison: 0 or 1 in all 64 bits (04 R85). -/
def aluTest (x : RForm) (g : Int → Int → Bool) (m : Context) : Word × Flags :=
  (bit (g (rd x.mod (m.getS x.a)) (rd x.mod (x.opB m))), 0)

/-- The low w bits of an operand, unsigned. -/
def low (md : BitVec 4) (x : Word) : Nat := x.toNat % 2 ^ (modTy md).w

/-- A shift or rotate: a within w bits, and the count, taken modulo w (04 R85). -/
def aluShift (x : RForm) (g : (w a s : Nat) → Int) (m : Context) : Word × Flags :=
  (wr x.mod (g (modTy x.mod).w (low x.mod (m.getS x.a)) ((x.opB m).toNat % (modTy x.mod).w)), 0)

/-- An arithmetic right shift within w bits. -/
def sraIn (w a s : Nat) : Int := signed a w / 2 ^ s

/-- A left rotate within w bits. -/
def rolIn (w a s : Nat) : Int := (a * 2 ^ s % 2 ^ w + a / 2 ^ (w - s) : Nat)

/-- A right rotate within w bits. -/
def rorIn (w a s : Nat) : Int := (a / 2 ^ s + a * 2 ^ (w - s) % 2 ^ w : Nat)

/-- A 64-bit immediate operation (04 R87). -/
def aluImm (x : IForm) (g : Word → Word → Word) (m : Context) : Word × Flags := (g (m.getS x.a) x.value, 0)

/-- Leading zeros within w bits. -/
def leadingZeros (w a : Nat) : Nat := if a = 0 then w else w - 1 - a.log2

/-- Trailing zeros within w bits: the number of low zero bits before the first one. -/
def trailingZeros : Nat → Nat → Nat
  | 0, _ => 0
  | w + 1, a => if a % 2 = 1 then 0 else 1 + trailingZeros w (a / 2)

/-- One bits within w bits. -/
def oneBits : Nat → Nat → Nat
  | 0, _ => 0
  | w + 1, a => a % 2 + oneBits w (a / 2)

/-- The low n digits of base b in reverse order. -/
def reverseDigits (b : Nat) : Nat → Nat → Nat → Nat
  | 0, _, r => r
  | n + 1, a, r => reverseDigits b n (a / b) (r * b + a % b)

/-- A count or reversal of the low w bits (04 Table 4.5). -/
def bitCount (x : RForm) (g : (w a : Nat) → Nat) (m : Context) : Word × Flags :=
  (wr x.mod (g (modTy x.mod).w (low x.mod (m.getS x.a)) : Nat), 0)

/-- The field a control word names, of a 128-bit value (04 R92): its width and its bits. -/
def bitField (c : Word) (v : Nat) : Nat × Nat :=
  let w := bits c.toNat 13 8 + 1
  (w, v / 2 ^ bits c.toNat 5 0 % 2 ^ w)

/-- BFX (04 R92). -/
def bfxValue (a c : Word) : Word :=
  let f := bitField c (a.signExtend 128).toNat
  BitVec.ofInt 64 (signed f.2 f.1)

/-- BFXN (04 R92). -/
def bfxnValue (a c : Word) : Word := BitVec.ofNat 64 (bitField c a.toNat).2

/-- BFI (04 R92). -/
def bfiValue (d a c : Word) : Word :=
  let pos := bits c.toNat 5 0
  let m := BitVec.ofNat 64 ((2 ^ (bits c.toNat 13 8 + 1) - 1) * 2 ^ pos)
  (d &&& ~~~m) ||| ((a <<< pos) &&& m)

/-- DIV and DIVN with their special cases (04 R89). -/
def divValue (x : RForm) (m : Context) : Word × Flags :=
  let a := rd x.mod (m.getS x.a)
  let b := rd x.mod (x.opB m)
  if b = 0 then (wr x.mod (-1), 0) else wrSat x.mod x.form.sat (a.tdiv b)

/-- REM and REMN (04 R88, R89). -/
def remValue (x : RForm) (m : Context) : Word × Flags :=
  let a := rd x.mod (m.getS x.a)
  let b := rd x.mod (x.opB m)
  (wr x.mod (if b = 0 then a else a.tmod b), 0)

/-! ## Meanings -/

/-- ADD (04 Table 4.2, R86). -/
def execAdd (x : RForm) (s : State) : Host.Outcome State Fault Refusal :=
  scalarOp x.form x.d (aluExact x fun a b => a + b) s

/-- SUB (04 Table 4.2, R86). -/
def execSub (x : RForm) (s : State) : Host.Outcome State Fault Refusal :=
  scalarOp x.form x.d (aluExact x fun a b => a - b) s

/-- AND (04 Table 4.2). -/
def execAnd (x : RForm) (s : State) : Host.Outcome State Fault Refusal :=
  scalarOp x.form x.d (aluBits x fun a b => a &&& b) s

/-- OR (04 Table 4.2). -/
def execOr (x : RForm) (s : State) : Host.Outcome State Fault Refusal :=
  scalarOp x.form x.d (aluBits x fun a b => a ||| b) s

/-- XOR (04 Table 4.2). -/
def execXor (x : RForm) (s : State) : Host.Outcome State Fault Refusal :=
  scalarOp x.form x.d (aluBits x fun a b => a ^^^ b) s

/-- ANDN (04 Table 4.2). -/
def execAndn (x : RForm) (s : State) : Host.Outcome State Fault Refusal :=
  scalarOp x.form x.d (aluBits x fun a b => a &&& ~~~b) s

/-- ORN (04 Table 4.2). -/
def execOrn (x : RForm) (s : State) : Host.Outcome State Fault Refusal :=
  scalarOp x.form x.d (aluBits x fun a b => a ||| ~~~b) s

/-- SLL (04 Table 4.2). -/
def execSll (x : RForm) (s : State) : Host.Outcome State Fault Refusal :=
  scalarOp x.form x.d (aluShift x fun _ a n => (a * 2 ^ n : Nat)) s

/-- SRL (04 Table 4.2). -/
def execSrl (x : RForm) (s : State) : Host.Outcome State Fault Refusal :=
  scalarOp x.form x.d (aluShift x fun _ a n => (a / 2 ^ n : Nat)) s

/-- SRA (04 Table 4.2). -/
def execSra (x : RForm) (s : State) : Host.Outcome State Fault Refusal :=
  scalarOp x.form x.d (aluShift x sraIn) s

/-- ROL (04 Table 4.2). -/
def execRol (x : RForm) (s : State) : Host.Outcome State Fault Refusal :=
  scalarOp x.form x.d (aluShift x rolIn) s

/-- ROR (04 Table 4.2). -/
def execRor (x : RForm) (s : State) : Host.Outcome State Fault Refusal :=
  scalarOp x.form x.d (aluShift x rorIn) s

/-- MIN (04 Table 4.2); MOD gives the signedness. -/
def execMin (x : RForm) (s : State) : Host.Outcome State Fault Refusal :=
  scalarOp x.form x.d (aluPick x fun a b => if a ≤ b then a else b) s

/-- MAX (04 Table 4.2); MOD gives the signedness. -/
def execMax (x : RForm) (s : State) : Host.Outcome State Fault Refusal :=
  scalarOp x.form x.d (aluPick x fun a b => if b ≤ a then a else b) s

/-- MINN (04 Table 4.2); MOD gives the signedness. -/
def execMinn (x : RForm) (s : State) : Host.Outcome State Fault Refusal :=
  scalarOp x.form x.d (aluPick x fun a b => if a ≤ b then a else b) s

/-- MAXN (04 Table 4.2); MOD gives the signedness. -/
def execMaxn (x : RForm) (s : State) : Host.Outcome State Fault Refusal :=
  scalarOp x.form x.d (aluPick x fun a b => if b ≤ a then a else b) s

/-- SLT (04 Table 4.2); MOD gives the signedness. -/
def execSlt (x : RForm) (s : State) : Host.Outcome State Fault Refusal :=
  scalarOp x.form x.d (aluTest x fun a b => decide (a < b)) s

/-- SLTN (04 Table 4.2); MOD gives the signedness. -/
def execSltn (x : RForm) (s : State) : Host.Outcome State Fault Refusal :=
  scalarOp x.form x.d (aluTest x fun a b => decide (a < b)) s

/-- SEQ (04 Table 4.2); MOD gives the signedness. -/
def execSeq (x : RForm) (s : State) : Host.Outcome State Fault Refusal :=
  scalarOp x.form x.d (aluTest x fun a b => decide (a = b)) s

/-- SNE (04 Table 4.2); MOD gives the signedness. -/
def execSne (x : RForm) (s : State) : Host.Outcome State Fault Refusal :=
  scalarOp x.form x.d (aluTest x fun a b => decide (a ≠ b)) s

/-- CSEL (04 R85): a if S[C] is not 0, else b. -/
def execCsel (x : RForm) (s : State) : Host.Outcome State Fault Refusal :=
  scalarOp x.form x.d (fun m => (wr x.mod (rd x.mod (if m.getS x.form.c ≠ 0 then m.getS x.a else x.opB m)), 0)) s

/-- ADD with an immediate (04 Table 4.3); SAT saturates as .i64. -/
def execAddi (x : IForm) (s : State) : Host.Outcome State Fault Refusal :=
  scalarOp x.form x.d (fun m => wrSat 0 x.form.sat ((m.getS x.a).toInt + x.value.toInt)) s

/-- AND with an immediate (04 Table 4.3). -/
def execAndi (x : IForm) (s : State) : Host.Outcome State Fault Refusal :=
  scalarOp x.form x.d (aluImm x fun a i => a &&& i) s

/-- OR with an immediate (04 Table 4.3). -/
def execOri (x : IForm) (s : State) : Host.Outcome State Fault Refusal :=
  scalarOp x.form x.d (aluImm x fun a i => a ||| i) s

/-- XOR with an immediate (04 Table 4.3). -/
def execXori (x : IForm) (s : State) : Host.Outcome State Fault Refusal :=
  scalarOp x.form x.d (aluImm x fun a i => a ^^^ i) s

/-- SLL with an immediate (04 Table 4.3). -/
def execSlli (x : IForm) (s : State) : Host.Outcome State Fault Refusal :=
  scalarOp x.form x.d (aluImm x fun a i => a <<< i.toNat) s

/-- SRL with an immediate (04 Table 4.3). -/
def execSrli (x : IForm) (s : State) : Host.Outcome State Fault Refusal :=
  scalarOp x.form x.d (aluImm x fun a i => a >>> i.toNat) s

/-- SRA with an immediate (04 Table 4.3). -/
def execSrai (x : IForm) (s : State) : Host.Outcome State Fault Refusal :=
  scalarOp x.form x.d (aluImm x fun a i => a.sshiftRight i.toNat) s

/-- ROR with an immediate (04 Table 4.3). -/
def execRori (x : IForm) (s : State) : Host.Outcome State Fault Refusal :=
  scalarOp x.form x.d (aluImm x fun a i => a.rotateRight i.toNat) s

/-- SLT with an immediate (04 Table 4.3). -/
def execSlti (x : IForm) (s : State) : Host.Outcome State Fault Refusal :=
  scalarOp x.form x.d (aluImm x fun a i => bit (a.slt i)) s

/-- SLTN with an immediate (04 Table 4.3). -/
def execSltni (x : IForm) (s : State) : Host.Outcome State Fault Refusal :=
  scalarOp x.form x.d (aluImm x fun a i => bit (a.ult i)) s

/-- SEQ with an immediate (04 Table 4.3). -/
def execSeqi (x : IForm) (s : State) : Host.Outcome State Fault Refusal :=
  scalarOp x.form x.d (aluImm x fun a i => bit (a == i)) s

/-- LI (04 Table 4.3). -/
def execLi (x : IForm) (s : State) : Host.Outcome State Fault Refusal :=
  scalarOp x.form x.d (fun _ => (x.value, 0)) s

/-- MUL (04 Table 4.4, R89). -/
def execMul (x : RForm) (s : State) : Host.Outcome State Fault Refusal :=
  scalarOp x.form x.d (aluExact x fun a b => a * b) s

/-- MULH (04 Table 4.4, R89): the high half of the product. -/
def execMulh (x : RForm) (s : State) : Host.Outcome State Fault Refusal :=
  scalarOp x.form x.d (aluPick x fun a b => a * b / 2 ^ (modTy x.mod).w) s

/-- MULHN (04 Table 4.4, R89): the high half of the product. -/
def execMulhn (x : RForm) (s : State) : Host.Outcome State Fault Refusal :=
  scalarOp x.form x.d (aluPick x fun a b => a * b / 2 ^ (modTy x.mod).w) s

/-- MADD (04 Table 4.4, R89): a · b + Rd(S[C]). -/
def execMadd (x : RForm) (s : State) : Host.Outcome State Fault Refusal :=
  scalarOp x.form x.d (fun m => wrSat x.mod x.form.sat (rd x.mod (m.getS x.a) * rd x.mod (x.opB m) + rd x.mod (m.getS x.form.c))) s

/-- DIV (04 Table 4.4, R89). -/
def execDiv (x : RForm) (s : State) : Host.Outcome State Fault Refusal :=
  scalarOp x.form x.d (divValue x) s

/-- DIVN (04 Table 4.4, R89). -/
def execDivn (x : RForm) (s : State) : Host.Outcome State Fault Refusal :=
  scalarOp x.form x.d (divValue x) s

/-- REM (04 Table 4.4, R89). -/
def execRem (x : RForm) (s : State) : Host.Outcome State Fault Refusal :=
  scalarOp x.form x.d (remValue x) s

/-- REMN (04 Table 4.4, R89). -/
def execRemn (x : RForm) (s : State) : Host.Outcome State Fault Refusal :=
  scalarOp x.form x.d (remValue x) s

/-- CLZ (04 Table 4.5). -/
def execClz (x : RForm) (s : State) : Host.Outcome State Fault Refusal :=
  scalarOp x.form x.d (bitCount x leadingZeros) s

/-- CTZ (04 Table 4.5). -/
def execCtz (x : RForm) (s : State) : Host.Outcome State Fault Refusal :=
  scalarOp x.form x.d (bitCount x trailingZeros) s

/-- POPC (04 Table 4.5). -/
def execPopc (x : RForm) (s : State) : Host.Outcome State Fault Refusal :=
  scalarOp x.form x.d (bitCount x oneBits) s

/-- BREV (04 Table 4.5). -/
def execBrev (x : RForm) (s : State) : Host.Outcome State Fault Refusal :=
  scalarOp x.form x.d (bitCount x fun w a => reverseDigits 2 w a 0) s

/-- BSWAP (04 Table 4.5). -/
def execBswap (x : RForm) (s : State) : Host.Outcome State Fault Refusal :=
  scalarOp x.form x.d (bitCount x fun w a => reverseDigits 256 (w / 8) a 0) s

/-- BFX (04 R92). -/
def execBfx (x : RForm) (s : State) : Host.Outcome State Fault Refusal :=
  scalarOp x.form x.d (fun m => (bfxValue (m.getS x.a) (x.opB m), 0)) s

/-- BFXN (04 R92). -/
def execBfxn (x : RForm) (s : State) : Host.Outcome State Fault Refusal :=
  scalarOp x.form x.d (fun m => (bfxnValue (m.getS x.a) (x.opB m), 0)) s

/-- BFI (04 R92): S[D] is a third source. -/
def execBfi (x : RForm) (s : State) : Host.Outcome State Fault Refusal :=
  scalarOp x.form x.d (fun m => (bfiValue (m.getS x.d) (m.getS x.a) (x.opB m), 0)) s

/-- SEXT (04 Table 4.5): MOD gives the source width 8, 16 or 32. -/
def execSext (x : RForm) (s : State) : Host.Outcome State Fault Refusal :=
  scalarOp x.form x.d (fun m => (BitVec.ofInt 64 (signed (m.getS x.a).toNat (8 * 2 ^ x.mod.toNat)), 0)) s

/-- ZEXT (04 Table 4.5): MOD gives the source width 8, 16 or 32. -/
def execZext (x : RForm) (s : State) : Host.Outcome State Fault Refusal :=
  scalarOp x.form x.d (fun m => (BitVec.ofNat 64 ((m.getS x.a).toNat % 2 ^ (8 * 2 ^ x.mod.toNat)), 0)) s

end Sys2Proof.Machine
end

