-- ==== Sys2Proof/Machine/Crypto.lean ====
section
/-! DEFINITION. The algorithms the spec names and does not spell out, as their standards define them (log 120): SHA-256, HMAC and
HKDF (18 Table 18.2, 17 R362, 21 R404), AES-256 with XTS (17 R358) and the AES key wrap (17 R362). A byte string is a list, first
byte first. -/

namespace Sys2Proof.Machine

/-! ## SHA-256 -/

/-- The round constants, in rows of eight. -/
def shaK : List Nat :=
  [0x428a2f98, 0x71374491, 0xb5c0fbcf, 0xe9b5dba5, 0x3956c25b, 0x59f111f1, 0x923f82a4, 0xab1c5ed5] ++
  [0xd807aa98, 0x12835b01, 0x243185be, 0x550c7dc3, 0x72be5d74, 0x80deb1fe, 0x9bdc06a7, 0xc19bf174] ++
  [0xe49b69c1, 0xefbe4786, 0x0fc19dc6, 0x240ca1cc, 0x2de92c6f, 0x4a7484aa, 0x5cb0a9dc, 0x76f988da] ++
  [0x983e5152, 0xa831c66d, 0xb00327c8, 0xbf597fc7, 0xc6e00bf3, 0xd5a79147, 0x06ca6351, 0x14292967] ++
  [0x27b70a85, 0x2e1b2138, 0x4d2c6dfc, 0x53380d13, 0x650a7354, 0x766a0abb, 0x81c2c92e, 0x92722c85] ++
  [0xa2bfe8a1, 0xa81a664b, 0xc24b8b70, 0xc76c51a3, 0xd192e819, 0xd6990624, 0xf40e3585, 0x106aa070] ++
  [0x19a4c116, 0x1e376c08, 0x2748774c, 0x34b0bcb5, 0x391c0cb3, 0x4ed8aa4a, 0x5b9cca4f, 0x682e6ff3] ++
  [0x748f82ee, 0x78a5636f, 0x84c87814, 0x8cc70208, 0x90befffa, 0xa4506ceb, 0xbef9a3f7, 0xc67178f2]

/-- The initial hash value. -/
def shaInit : List (BitVec 32) :=
  [0x6a09e667, 0xbb67ae85, 0x3c6ef372, 0xa54ff53a, 0x510e527f, 0x9b05688c, 0x1f83d9ab, 0x5be0cd19]

/-- A word from bytes, the first one highest. -/
def wordBE (bs : List Byte) : Nat := bs.foldl (fun n b => n * 256 + b.toNat) 0

/-- The n bytes of a number, the highest first. -/
def bytesBE (n v : Nat) : List Byte := (List.range n).map fun i => BitVec.ofNat 8 (v / 2 ^ (8 * (n - 1 - i)))

/-- A list in pieces of n elements. -/
def chunksOf {α : Type} (n : Nat) (l : List α) : List (List α) :=
  (List.range ((l.length + n - 1) / n)).map fun i => (l.drop (n * i)).take n

/-- A message with its padding, in whole blocks of 64 bytes. -/
def shaPad (m : List Byte) : List Byte :=
  m ++ [0x80] ++ List.replicate ((119 - m.length % 64) % 64) 0 ++ bytesBE 8 (8 * m.length)

/-- The 64 words of a block's schedule. -/
def shaSchedule (block : List Byte) : List (BitVec 32) :=
  (List.range 48).foldl (fun w t =>
    let x (i : Nat) : BitVec 32 := w.getD (t + i) 0
    let s0 := (x 1).rotateRight 7 ^^^ (x 1).rotateRight 18 ^^^ (x 1) >>> 3
    let s1 := (x 14).rotateRight 17 ^^^ (x 14).rotateRight 19 ^^^ (x 14) >>> 10
    w ++ [x 0 + s0 + x 9 + s1]) ((chunksOf 4 block).map fun bs => BitVec.ofNat 32 (wordBE bs))

/-- One round on the eight working variables. -/
def shaRound (v : List (BitVec 32)) (kw : BitVec 32) : List (BitVec 32) :=
  let x (i : Nat) : BitVec 32 := v.getD i 0
  let e := x 4
  let t1 := x 7 + (e.rotateRight 6 ^^^ e.rotateRight 11 ^^^ e.rotateRight 25) + (e &&& x 5 ^^^ ~~~e &&& x 6) + kw
  let a := x 0
  let t2 := (a.rotateRight 2 ^^^ a.rotateRight 13 ^^^ a.rotateRight 22) + (a &&& x 1 ^^^ a &&& x 2 ^^^ x 1 &&& x 2)
  [t1 + t2, a, x 1, x 2, x 3 + t1, e, x 5, x 6]

/-- The hash value after a block. -/
def shaBlock (h : List (BitVec 32)) (block : List Byte) : List (BitVec 32) :=
  let kws := List.zipWith (fun k w => BitVec.ofNat 32 k + w) shaK (shaSchedule block)
  List.zipWith (· + ·) h (kws.foldl shaRound h)

/-- SHA-256 of a byte string, 32 bytes. -/
def sha256 (m : List Byte) : List Byte := ((chunksOf 64 (shaPad m)).foldl shaBlock shaInit).flatMap fun w => bytesBE 4 w.toNat

/-- The n bytes of a number, the lowest first. -/
def bytesLE (n v : Nat) : List Byte := (List.range n).map fun i => BitVec.ofNat 8 (v / 2 ^ (8 * i))

/-- The number of bytes that hold it, the lowest first. -/
def natLE (bs : List Byte) : Nat := wordBE bs.reverse

/-- The bytes of a text. -/
def textBytes (t : String) : List Byte := t.toList.map fun c => BitVec.ofNat 8 c.toNat

/-- SHA-256 as a number whose lowest byte is the first. -/
def digest (m : List Byte) : BitVec 256 := BitVec.ofNat 256 (natLE (sha256 m))

/-- Exclusive or of byte strings. -/
def xorBytes (a b : List Byte) : List Byte := List.zipWith (· ^^^ ·) a b

/-- HMAC-SHA-256 under a key of at most 64 bytes. -/
def hmac (key m : List Byte) : List Byte :=
  let k := key ++ List.replicate (64 - key.length) 0
  sha256 (k.map (· ^^^ 0x5c) ++ sha256 (k.map (· ^^^ 0x36) ++ m))

/-- The first 16 bytes of HMAC-SHA-256 over 24 bytes, under a 32-byte key (18 Table 18.2). -/
def hmacTag (key : BitVec 256) (body : BitVec 192) : BitVec 128 :=
  BitVec.ofNat 128 (natLE ((hmac (bytesLE 32 key.toNat) (bytesLE 24 body.toNat)).take 16))

/-- The first 32 bytes of HKDF-SHA-256. -/
def hkdf (secret salt info : List Byte) : List Byte := hmac (hmac salt secret) (info ++ [1])

/-! ## AES-256 -/

/-- Multiply by x in the field of AES. -/
def xtime (a : Byte) : Byte := if a.getLsbD 7 then a <<< 1 ^^^ 0x1b else a <<< 1

/-- Multiply in the field of AES. -/
def gmul (a b : Byte) : Byte :=
  ((List.range 8).foldl (fun (s : Byte × Byte) i => (if b.getLsbD i then s.1 ^^^ s.2 else s.1, xtime s.2)) (0, a)).1

/-- The inverse in the field of AES, 0 for 0: the power 254. -/
def ginv (a : Byte) : Byte :=
  ((List.range 7).foldl (fun (s : Byte × Byte) _ => let q := gmul s.2 s.2; (gmul s.1 q, q)) (1, a)).1

/-- The S-box. -/
def sbox (a : Byte) : Byte :=
  let b := ginv a
  b ^^^ b.rotateLeft 1 ^^^ b.rotateLeft 2 ^^^ b.rotateLeft 3 ^^^ b.rotateLeft 4 ^^^ 0x63

/-- The inverse S-box. -/
def sboxInv (a : Byte) : Byte := ginv (a.rotateLeft 1 ^^^ a.rotateLeft 3 ^^^ a.rotateLeft 6 ^^^ 0x05)

/-- The next word of the key schedule, word number i. -/
def nextKeyWord (ws : List (List Byte)) (i : Nat) : List Byte :=
  let t := ws.getD (i - 1) []
  let t :=
    if i % 8 = 0 then xorBytes ((t.drop 1 ++ t.take 1).map sbox) [((List.range (i / 8 - 1)).foldl (fun r _ => xtime r) 1), 0, 0, 0]
    else if i % 8 = 4 then t.map sbox else t
  xorBytes (ws.getD (i - 8) []) t

/-- The 15 round keys of a 32-byte key. -/
def roundKeys (key : List Byte) : List (List Byte) :=
  chunksOf 16 ((List.range 52).foldl (fun ws j => ws ++ [nextKeyWord ws (8 + j)]) (chunksOf 4 key)).flatten

/-- ShiftRows by `d` columns a row, on 16 bytes in columns. -/
def shiftRows (d : Nat) (b : List Byte) : List Byte := (List.range 16).map fun i => b.getD ((i + 4 * (i % 4) * d) % 16) 0

/-- MixColumns with a column's first row of factors. -/
def mixColumns (f : List Byte) (b : List Byte) : List Byte :=
  (chunksOf 4 b).flatMap fun c => (List.range 4).map fun r =>
    (List.range 4).foldl (fun x j => x ^^^ gmul (f.getD ((j + 4 - r) % 4) 0) (c.getD j 0)) 0

/-- Encrypt a block of 16 bytes. -/
def aesEnc (key b : List Byte) : List Byte :=
  let ks := roundKeys key
  let s := (List.range 13).foldl (fun s r =>
    xorBytes (mixColumns [2, 3, 1, 1] (shiftRows 1 (s.map sbox))) (ks.getD (r + 1) [])) (xorBytes b (ks.getD 0 []))
  xorBytes (shiftRows 1 (s.map sbox)) (ks.getD 14 [])

/-- Decrypt a block of 16 bytes. -/
def aesDec (key b : List Byte) : List Byte :=
  let ks := roundKeys key
  let s := (List.range 13).foldl (fun s r =>
    mixColumns [14, 11, 13, 9] (xorBytes ((shiftRows 3 s).map sboxInv) (ks.getD (13 - r) []))) (xorBytes b (ks.getD 14 []))
  xorBytes ((shiftRows 3 s).map sboxInv) (ks.getD 0 [])

/-! ## XTS (17 R358) -/

/-- Multiply a tweak by α. -/
def mulAlpha (t : List Byte) : List Byte :=
  let v := t.reverse.foldl (fun n b => n * 256 + b.toNat) 0
  let w := if 2 ^ 127 ≤ v then (2 * v) % 2 ^ 128 ^^^ 0x87 else 2 * v
  (List.range 16).map fun i => BitVec.ofNat 8 (w / 2 ^ (8 * i))

/-- The tweaks of a line's eight blocks: the line's number, encrypted under the tweak key, times α⁰ to α⁷. -/
def lineTweaks (tweakKey : List Byte) (line : Nat) : List (List Byte) :=
  let t := aesEnc tweakKey ((List.range 16).map fun i => BitVec.ofNat 8 (line / 2 ^ (8 * i)))
  (List.range 8).map fun j => (List.range j).foldl (fun t _ => mulAlpha t) t

/-- A line's bytes through a block function under its tweaks. -/
def xtsLine (f : List Byte → List Byte) (tweakKey : List Byte) (line : Nat) (bs : List Byte) : List Byte :=
  (List.zipWith (fun t b => xorBytes (f (xorBytes b t)) t) (lineTweaks tweakKey line) (chunksOf 16 bs)).flatten

/-- Encrypt a line of 128 bytes under a data key and a tweak key. -/
def xtsEnc (dataKey tweakKey : List Byte) (line : Nat) (bs : List Byte) : List Byte := xtsLine (aesEnc dataKey) tweakKey line bs

/-- Decrypt a line. -/
def xtsDec (dataKey tweakKey : List Byte) (line : Nat) (bs : List Byte) : List Byte := xtsLine (aesDec dataKey) tweakKey line bs

/-- The data key and the tweak key of a slot's key pair (17 Table 17.9; log 120). -/
def keyPair (key : BitVec 512) : List Byte × List Byte :=
  (bytesLE 32 (key.extractLsb' 0 256).toNat, bytesLE 32 (key.extractLsb' 256 256).toNat)

/-- A line's ciphertext under the key pair of a slot; without one the bytes as they are. -/
def encLine (key : Option (BitVec 512)) (line : Nat) (bs : List Byte) : List Byte :=
  match key with
  | some k => xtsEnc (keyPair k).1 (keyPair k).2 line bs
  | none => bs

/-- A line's plaintext. -/
def decLine (key : Option (BitVec 512)) (line : Nat) (bs : List Byte) : List Byte :=
  match key with
  | some k => xtsDec (keyPair k).1 (keyPair k).2 line bs
  | none => bs

/-! ## Key wrap (17 R362) -/

/-- One step of the unwrapping, number t, on the check block and n blocks of 8 bytes. -/
def unwrapStep (kek : List Byte) (n t : Nat) (s : List Byte × List (List Byte)) : List Byte × List (List Byte) :=
  let i := (t - 1) % n
  let b := aesDec kek (xorBytes s.1 (bytesBE 8 t) ++ s.2.getD i [])
  (b.take 8, s.2.set i (b.drop 8))

/-- Unwrap a key: `none` where the check block is not as it must be. -/
def unwrapKey (kek wrapped : List Byte) : Option (List Byte) :=
  match chunksOf 8 wrapped with
  | [] => none
  | a :: rs =>
    let n := rs.length
    let r := (List.range (6 * n)).foldl (fun s j => unwrapStep kek n (6 * n - j) s) (a, rs)
    if r.1 = List.replicate 8 0xA6 then some r.2.flatten else none

end Sys2Proof.Machine
end

