-- ==== Sys2Proof/Machine/Place.lean ====
section
/-! DEFINITION. Work identifiers and placement: the fields of a stage, units of a level, which item a context of a core
runs, and the groups a partition has free (16 R322 to R326, R330, R335). -/

namespace Sys2Proof.Machine

/-! ## Fields (R324, R325) -/

/-- The field numbers of a stage. -/
def fieldNums (packet : BitVec 11264) (st : Nat) : List Nat := List.range (numFields packet st)

/-- The fields that are not loops, with their levels, highest first. -/
def placedFields (packet : BitVec 11264) (st : Nat) : List (Nat × Nat) :=
  ((fieldNums packet st).filterMap fun n =>
    if fieldPlace packet st n < 5 then some (n, fieldPlace packet st n) else none).reverse

/-- The loop fields, lowest first. -/
def loopFields (packet : BitVec 11264) (st : Nat) : List Nat :=
  (fieldNums packet st).filter fun n => fieldPlace packet st n == 5

/-- A work identifier with another value of field n. -/
def withField (packet : BitVec 11264) (st n v : Nat) (w : Word) : Word :=
  let pos := fieldPos packet st n
  w - BitVec.ofNat 64 (fieldOf packet st n w * 2 ^ pos) + BitVec.ofNat 64 (v * 2 ^ pos)

/-- The next identifier of a context's loop, the lowest loop field fastest; `none` after the last (R326). -/
def nextLoop (packet : BitVec 11264) (st : Nat) : List Nat → Word → Option Word
  | [], _ => none
  | n :: ns, w =>
    let v := fieldOf packet st n w
    if v + 1 < fieldExt packet st n then some (withField packet st n (v + 1) w)
    else nextLoop packet st ns (withField packet st n 0 w)

/-! ## Units (R326) -/

/-- Remove equal neighbours. -/
def dedup : List Nat → List Nat
  | [] => []
  | [x] => [x]
  | x :: y :: ys => if x = y then dedup (y :: ys) else x :: dedup (y :: ys)

/-- The units of a level of 1 or more in cores listed in placement order, in that order. -/
def unitsIn (lv : Nat) (ks : List CoreId) : List Nat := dedup (ks.map (unitKey lv))

/-- How many units of a level cores have: eleven contexts per core (Table 16.6). -/
def unitCount (lv : Nat) (ks : List CoreId) : Nat := if lv = 0 then 11 * ks.length else (unitsIn lv ks).length

/-- The cores of the unit of a level that holds core k. -/
def sameUnit (lv : Nat) (k : CoreId) (ks : List CoreId) : List CoreId := ks.filter fun j => unitKey lv j == unitKey lv k

/-- The number, in placement order, of the unit of a level that holds context c of core k. -/
def unitIndex (lv : Nat) (ks : List CoreId) (k : CoreId) (c : Nat) : Option Nat :=
  if lv = 0 then (ks.findIdx? fun j => j == k).map fun i => 11 * i + c
  else (unitsIn lv ks).findIdx? fun u => u == unitKey lv k

/-- The identifier bits of the fields below one whose unit has these cores, if context c of core k runs an item there. -/
def lowerItem (packet : BitVec 11264) (st : Nat) (k : CoreId) (c : Nat) : List (Nat × Nat) → Nat → List CoreId → Option Nat
  | [], lv, ks => if lv = 0 then some 0 else if c = 0 ∧ (lv = 1 ∨ ks.head? = some k) then some 0 else none
  | (n, lv) :: rest, _, ks =>
    match unitIndex lv ks k c with
    | none => none
    | some v =>
      if v < fieldExt packet st n then
        (lowerItem packet st k c rest lv (sameUnit lv k ks)).map fun w => w + v * 2 ^ fieldPos packet st n
      else none

/-- The unit of the highest field that holds context c of core k, by its place in placement order. -/
def topUnit (lv : Nat) (k : CoreId) (c : Nat) : Nat := unitKey lv k + (if lv = 0 then c else 0)

/-- The work identifier of context c of core k in a stage with cores `ks` in placement order, its loops at 0; `none` where
no item names it (R326). -/
def itemOf (packet : BitVec 11264) (st : Nat) (pool : Bool) (units : Assoc Nat Nat) (ks : List CoreId) (k : CoreId)
    (c : Fin 11) : Option Word :=
  match placedFields packet st with
  | [] => none
  | (n, lv) :: rest =>
    let v := if pool then (units.find? fun e => e.2 == topUnit lv k c.val).map (·.1) else unitIndex lv ks k c.val
    match v with
    | none => none
    | some v =>
      if v < fieldExt packet st n then
        (lowerItem packet st k c.val rest lv (sameUnit lv k ks)).map fun w => BitVec.ofNat 64 (w + v * 2 ^ fieldPos packet st n)
      else none

/-- Whether every unit chosen below a list of cores has enough sub-units for the fields, given highest first (R326). -/
def enoughBelow (packet : BitVec 11264) (st : Nat) : List (Nat × Nat) → List CoreId → Bool
  | [], _ => true
  | (n, lv) :: rest, ks =>
    let ext := fieldExt packet st n
    decide (ext ≤ unitCount lv ks) &&
      (lv == 0 || ((unitsIn lv ks).take ext).all fun u => enoughBelow packet st rest (ks.filter fun j => unitKey lv j == u))

/-- R326's rejection: some unit lacks sub-units for a field's extent, or a grid stage lacks units for its highest field. -/
def mapsWhole (packet : BitVec 11264) (st : Nat) (pool : Bool) (ks : List CoreId) : Bool :=
  match placedFields packet st with
  | [] => false
  | (n, lv) :: rest =>
    (pool || decide (fieldExt packet st n ≤ unitCount lv ks)) &&
      (lv == 0 || ((unitsIn lv ks).take (fieldExt packet st n)).all fun u =>
        enoughBelow packet st rest (ks.filter fun j => unitKey lv j == u))

/-- The units of a pool stage's highest level in cores in placement order. -/
def topUnits (lv : Nat) (ks : List CoreId) : List Nat :=
  if lv = 0 then ks.flatMap fun k => (List.range 11).map fun c => topUnit 0 k c else unitsIn lv ks

/-- Give a unit the lowest number that no unit holds (R326). -/
def numberUnit (units : Assoc Nat Nat) (u : Nat) : Assoc Nat Nat :=
  if units.any fun e => e.2 == u then units
  else
    match (List.range (units.length + 1)).find? fun v => !(units.any fun e => e.1 == v) with
    | some v => units ++ [(v, u)]
    | none => units

/-! ## Groups (16, R330, R335) -/

/-- Place of a group in placement order. -/
def groupKey (g : Group) : Nat := (g.cores.head?.map placeKey).getD 0

/-- The key of the unit of a level that holds a group. -/
def groupUnit (lv : Nat) (g : Group) : Nat := (g.cores.head?.map (unitKey lv)).getD 0

/-- Sorted in placement order. -/
def sortGroups (gs : List Group) : List Group := sortBy groupKey gs

/-- The cores of groups, in placement order. -/
def coresOf (gs : List Group) : List CoreId := (sortGroups gs).flatMap Group.cores

/-- Groups that make one unit of a level of hive or above (R325); below that, a group is a unit by itself. -/
def groupsPerUnit (big : Bool) (lv : Nat) : Nat :=
  match lv with
  | 2 => if big then 1 else 4
  | 3 => if big then 4 else 16
  | 4 => if big then 576 else 2304
  | _ => 1

/-- The groups of a kind in the hives a partition owns, in placement order. -/
def State.ownedGroups (s : State) (p : Nat) (big : Bool) : List Group :=
  sortGroups ((s.hives.filter fun e => e.2.owner == some p).flatMap fun e =>
    if big then [{ big := true, hive := e.1, row := 0 }]
    else (List.range 4).map fun r => { big := false, hive := e.1, row := r })

/-- Groups that resident launches hold. -/
def State.heldGroups (s : State) : List Group := s.launches.flatMap fun e => e.2.stages.flatMap fun x => x.alloc

/-- Whether a core may be given to a launch: it is not fenced (20 R391). -/
def State.usable (s : State) (k : CoreId) : Bool := (s.core k).status != .fenced

/-- The groups of a kind a partition has free, in placement order; none while its hives are out of use (20 R390). -/
def State.freeGroups (s : State) (p : Nat) (big : Bool) : List Group :=
  let held := s.heldGroups
  if (s.part p).outOfUse then []
  else (s.ownedGroups p big).filter fun g => !held.contains g && g.cores.all s.usable

/-- Split units n a launch asks for (R335). -/
def Launch.splitUnits (l : Launch) : Nat := (l.hdr 73 64 + 15) / 16

/-- Whether a launch with scratch may take groups of a hive (R335). -/
def State.splitFree (s : State) (h : HiveId) : Bool := (s.hive h).splitBy.isNone

/-- Free groups gathered in whole units of a level, in order. -/
def wholeUnits (big : Bool) (lv : Nat) (gs : List Group) : List (List Group) :=
  if lv < 2 then gs.map fun g => [g]
  else
    (dedup (gs.map (groupUnit lv))).filterMap fun u =>
      let us := gs.filter fun g => groupUnit lv g == u
      if us.length = groupsPerUnit big lv then some us else none

/-- Whole units, as long as no more than `want` groups are taken. -/
def takeUnits (want : Nat) : List (List Group) → List Group
  | [] => []
  | u :: us => if u.length ≤ want then u ++ takeUnits (want - u.length) us else takeUnits want us

/-- Groups for a stage (R330 steps 3 and 4): in placement order, for big cores first in hives where the launch holds
little-core groups. -/
def pickGroups (free : List Group) (big : Bool) (lv want : Nat) (mine : List HiveId) : List Group :=
  let gs := free.filter fun g => g.big == big
  let us := wholeUnits big lv gs
  let near (u : List Group) : Bool := big && u.all fun g => mine.contains g.hive
  takeUnits want ((us.filter near) ++ us.filter fun u => !near u)

/-- The hives in which a launch holds little-core groups. -/
def littleHives (alloc : List (List Group)) : List HiveId :=
  ((alloc.flatten.filter fun g => !g.big).map fun g => g.hive)

/-- Ceiling of a stage in groups: MAXG, or FLOOR for 0 (Table 16.2). -/
def stageCeiling (packet : BitVec 11264) (st : Nat) : Nat :=
  if stageBits packet st 101 85 = 0 then stageBits packet st 118 102 else stageBits packet st 101 85

/-- Floor of a stage in groups. -/
def stageFloor (packet : BitVec 11264) (st : Nat) : Nat := stageBits packet st 118 102

/-- Whether a stage runs on big cores. -/
def stageBig (packet : BitVec 11264) (st : Nat) : Bool := stageBits packet st 126 126 == 1

/-- Whether a stage is a pool. -/
def stagePool (packet : BitVec 11264) (st : Nat) : Bool := stageBits packet st 127 127 == 1

/-- The stage numbers of a packet: 0 to NSTM. -/
def stageNums (packet : BitVec 11264) : List Nat := List.range (bits packet.toNat 10 8 + 1)

/-- Give every stage its floor; `none` where the partition has not enough free groups (R330 steps 2 and 3). -/
def giveFloors (packet : BitVec 11264) : List Nat → List Group → List (List Group) → Option (List (List Group) × List Group)
  | [], free, done => some (done, free)
  | st :: rest, free, done =>
    let want := stageFloor packet st
    let gs := pickGroups free (stageBig packet st) (topLevel packet st) want (littleHives done)
    if gs.length = want then giveFloors packet rest (free.filter fun g => !gs.contains g) (done ++ [gs]) else none

/-- Give extra groups up to the ceilings, stages in increasing number (R330 step 4). -/
def giveExtras (packet : BitVec 11264) : List Nat → List Group → List (List Group) → List (List Group)
  | [], _, done => done
  | st :: rest, free, done =>
    let have_ := done.getD st []
    let gs := pickGroups free (stageBig packet st) (topLevel packet st) (stageCeiling packet st - have_.length) (littleHives done)
    giveExtras packet rest (free.filter fun g => !gs.contains g) (done.set st (sortGroups (have_ ++ gs)))

/-- The allotment of a launch that a partition admits now, or `none` (R330 steps 2 to 4). -/
def State.allot (s : State) (l : Launch) : Option (List (List Group)) :=
  let ok (g : Group) : Bool := l.splitUnits == 0 || s.splitFree g.hive
  let free := (s.freeGroups l.part false ++ s.freeGroups l.part true).filter ok
  (giveFloors l.packet (stageNums l.packet) free []).map fun r => giveExtras l.packet (stageNums l.packet) r.2 r.1

end Sys2Proof.Machine
end

