-- ==== Sys2Proof/Machine/Start.lean ====
section
/-! DEFINITION. Starting a kernel on a core: reads and writes of launch hardware, the state of Table 16.7, start-up windows,
and END (16 R326, R327, R331, 08 R197). -/

namespace Sys2Proof.Machine

/-! ## Accesses of launch hardware and firmware -/

/-- No hive: launch hardware translates through no hive's caches. -/
def rim : HiveId := { die := 36, row := 0, col := 0 }

/-- The translated address of a global address, through a partition's page tables (17 R351; log 45). -/
def State.rimAddr (s : State) (p : Nat) (acc : Acc) (va : Nat) : Except Deny Nat :=
  if va / 2 ^ 57 ≠ 0 then .error (.cause .access)
  else match s.walk rim p va walkLevels (s.part p).ptroot with
    | .error c => .error (.cause c)
    | .ok (e, sh) => if leafTraps acc e.toNat then .error (.cause .pageFault) else s.leafAddr p true acc va e sh

/-- Read n bytes within a page. -/
def State.rimRead (s : State) (p va n : Nat) : Except Deny Nat :=
  match s.rimAddr p .load va with
  | .error d => .error d
  | .ok a => if (s.poison a n).isSome then .error (.cause .dataError) else .ok (s.load (some p) a n)

/-- Read a list of addresses, n bytes each. -/
def State.rimReads (s : State) (p n : Nat) : List Nat → Except Deny (List Nat)
  | [] => .ok []
  | a :: as =>
    match s.rimRead p a n with
    | .error d => .error d
    | .ok v => (s.rimReads p n as).map fun vs => v :: vs

/-- A faulty table entry that a walk of launch hardware meets is logged as Consumed (20 R384). -/
def State.logRimWalk (s : State) (p va : Nat) : State :=
  if va / 2 ^ 57 ≠ 0 then s
  else match s.faultyEntry rim p va walkLevels (s.part p).ptroot with
    | some a => s.logFound a
    | none => s

/-- What a read of launch hardware finds faulty is logged as Consumed: a table entry of its walk, or a byte it reads (20 R384). -/
def State.logRim (s : State) (p va n : Nat) : State :=
  match s.rimAddr p .load va with
  | .error _ => s.logRimWalk p va
  | .ok a => match s.poison a n with
    | some b => s.logFound b
    | none => s

/-- What reads of launch hardware, made up to the first that fails, find faulty is logged. -/
def State.logRims (s : State) (p n : Nat) (as : List Nat) : State :=
  match as.find? fun a => (s.rimRead p a n).toOption.isNone with
  | some a => s.logRim p a n
  | none => s

/-- Store n bytes within a page; a store that cannot be made is not made. Launch hardware writes outside the dies' caches, which hold
copies of those lines no more (10 R231). -/
def State.rimWrite (s : State) (p va n v : Nat) : State :=
  match s.rimAddr p .store va with
  | .error _ => s.logRimWalk p va
  | .ok a => (s.put a n v).uncache a n

/-- Addresses base, base + step, ..., n of them. -/
def stepsFrom (base step n : Nat) : List Nat := (List.range n).map fun i => base + step * i

/-! ## Ranks (13 R302) -/

/-- Write rank r of a launch to its place in memory. -/
def State.writeRank (s : State) (l : Launch) (r : Nat) (e : RankEntry) : State :=
  s.rimWrite l.part (l.hdr 255 192 + 8 * r) 8 e.word.toNat

/-- Change the rank entries that a condition selects, in the table and in memory. -/
def State.mapRanks (s : State) (j : Nat) (sel : RankEntry → Bool) (f : RankEntry → RankEntry) : State :=
  match s.launch? j with
  | none => s
  | some l =>
    let rs := l.ranks.map fun e => if sel e then f e else e
    (List.range rs.length).foldl (fun (t : State) r =>
      match l.ranks[r]?, rs[r]? with
      | some a, some b => if a = b then t else t.writeRank l r b
      | _, _ => t) (s.setLaunch j { l with ranks := rs })

/-! ## The state of Table 16.7 -/

/-- The core's global index: COREID<27:6>. -/
def globalIndex (k : CoreId) : Nat := coreIdBits { core := k, num := 0 } / 64

/-- The spill area of a context: its first byte (Table 16.7). -/
def Launch.spillArea (l : Launch) (k : CoreId) (c : Nat) : Nat := l.hdr 383 320 + (11 * globalIndex k + c) * l.hdr 287 256

/-- OVFRING of a core: EN and LCAP of OVF with BASE advanced, its reserved bits 0; 0 in a grid stage. -/
def Launch.ovfring (l : Launch) (st : Nat) (k : CoreId) : Nat :=
  let ovf := stageBits l.packet st 575 512
  if l.pool st then
    bits ovf 63 58 * 2 ^ 58 + (bits ovf 56 5 + globalIndex k * 2 ^ bits ovf 62 58) % 2 ^ 52 * 2 ^ 5
  else 0

/-- The steal state of the core with placement index i. -/
def Launch.stealSeed (l : Launch) (i : Nat) : Word :=
  let x := BitVec.ofNat 64 (l.hdr 511 448) ^^^ (BitVec.ofNat 64 i * 0x9E3779B97F4A7C15#64)
  if x = 0 then 1 else x

/-- What the launch gives every context number of a core: TVEC, LAMPCLS, its spill area; at admission everything else is
as after reset. -/
def Context.prepare (m : Context) (l : Launch) (k : CoreId) (c : Nat) (fresh : Bool) : Context :=
  let m := if fresh then Context.reset else m
  let base := l.spillArea k c
  { m with
    tvec := BitVec.ofNat 64 (l.hdr 191 128)
    lampcls := BitVec.ofNat 3 (l.hdr 17 15)
    spillBase := BitVec.ofNat 64 base &&& ~~~7
    spillLimit := BitVec.ofNat 64 (base + l.hdr 287 256) &&& ~~~7 }

/-- A context starts at an entry with a work identifier: registers zero, FCTL and TCAUSE at Reset. What lives for the
launch stays. -/
def Context.launch (m : Context) (entry w : Word) : Context :=
  { Context.reset with
    pc := entry
    work := w
    live := true
    tvec := m.tvec
    lampcls := m.lampcls
    rasp := m.spillBase
    rasl := m.spillLimit
    spillBase := m.spillBase
    spillLimit := m.spillLimit
    copyTl := m.copyTl
    matTl := m.matTl
    collTl := m.collTl
    mailbox := m.mailbox
    groups := m.groups
    takes := m.takes
    nextTag := m.nextTag
    throttle := m.throttle }

/-- ENTRY of a stage. -/
def Launch.entry (l : Launch) (st : Nat) : Word := BitVec.ofNat 64 (stageBits l.packet st 63 0)

/-- The smallest rectangle that holds cores of one die, as a BGn value. -/
def boundingRect (ks : List CoreId) : BitVec 30 :=
  let rows := ks.map (·.row)
  let cols := ks.map (·.col)
  let r0 := rows.foldl min 127
  let c0 := cols.foldl min 255
  BitVec.ofNat 30 ((rows.foldl max 0 - r0) * 2 ^ 23 + (cols.foldl max 0 - c0) * 2 ^ 15 + r0 * 2 ^ 8 + c0)

/-- The rectangle of a stage on a die, if every core in it is the stage's. -/
def stageRect (die : Nat) (ks : List CoreId) : Option (BitVec 30) :=
  let mine := ks.filter fun k => k.die == die
  let r := boundingRect mine
  if mine.isEmpty || mine.length ≠ (rectNrm r + 1) * (rectNcm r + 1) then none else some r

/-- BGI of a stage. -/
def bgi (packet : BitVec 11264) (st : Nat) : Nat := stageBits packet st 122 119

/-- BG0 to BG3 unbound, then bound for each set bit of BGI (log 46). -/
def State.bindStart (s : State) (l : Launch) (st : Nat) (k : CoreId) (ks : List CoreId) (fresh : Bool) : State :=
  [(0 : Fin 4), 1, 2, 3].foldl (fun (t : State) n =>
    let b := (t.core k).bgs[n]
    let b := if fresh then Barrier.reset else { b with word := 0, broken := false, arrival := none, sent := false, startAt := none }
    let t := t.setBar k n b
    if bgi l.packet st / 2 ^ n.val % 2 = 1 then
      match stageRect k.die ks with
      | some r => (t.setBar k n (b.bind r)).compareHeld k n true
      | none => t
    else t) s

/-! ## Start-up windows (R331) -/

/-- Read a record of 128 bytes as the acting context's loads. -/
def State.loadBytes (s : State) (a : Word) : Nat → Run Nat
  | 0 => .ok 0
  | n + 1 => (s.loadMem a 1 1).bind fun v => (s.loadBytes (a + 1) n).map fun r => v.1 + 256 * r

/-- Apply window start-up entries as WINSET, in order, in the acting context (R331). -/
def applyEntries : List Nat → State → Run State
  | [], s => .ok s
  | e :: es, s =>
    (s.loadBytes (BitVec.ofNat 64 (bits e 63 0)) 128).bind fun r =>
      (winset ⟨bits e 127 125, Nat.mod_lt _ (by decide)⟩ false (BitVec.ofNat 1024 r) (BitVec.ofNat 64 (bits e 127 64)) .nop s).bind
        fun t => applyEntries es t

/-- The addresses of a stage's start-up entries. -/
def windowAddrs (packet : BitVec 11264) (st : Nat) : List Nat :=
  stepsFrom (stageBits packet st 511 448) 16 (stageBits packet st 687 684)

/-- The start-up windows of a core, applied in its control context: the state after them, with the trap of the entry that
fails (R331). A table that cannot be read fails as its first entry. -/
def State.startWindows (s : State) (l : Launch) (st : Nat) (k : CoreId) : State × Option Stop :=
  let t := { s with cur := { core := k, num := 0 } }
  let r : Run State :=
    match t.rimReads l.part 16 (windowAddrs l.packet st) with
    | .ok es => applyEntries es t
    | .error d =>
      let u := t.logRims l.part 16 (windowAddrs l.packet st)
      match d with
      | .cause c => trapAt u c (BitVec.ofNat 64 (stageBits l.packet st 511 448))
      | .fenced => .error (.hold u)
  match r with
  | .ok u => ({ u with cur := s.cur }, none)
  | .error (.trap e u) => ({ u with cur := s.cur }, some (.trap e u))
  | .error (.hold u) => ({ u with cur := s.cur }, some (.hold u))

/-- Start-up windows at a start after admission: a trap waits for the control context's first instruction, LEN 00 (R331). -/
def State.applyWindows (s : State) (l : Launch) (st : Nat) (k : CoreId) : State :=
  match s.startWindows l st k with
  | (t, some (.trap e _)) =>
    let c : CtxId := { core := k, num := 0 }
    t.setCtx c { t.ctx c with pendingTrap := some (e, some 0) }
  | (t, _) => t

/-! ## A kernel start on a core (R326, R327) -/

/-- Copy a stage's local image into a little core: whole 64-byte pieces that can be read (log 47). -/
def State.copyImage (s : State) (l : Launch) (st : Nat) (k : CoreId) : State :=
  if k.big then s
  else
    let src := stageBits l.packet st 767 704
    let dst := localAddr k (stageBits l.packet st 663 645)
    (List.range (stageBits l.packet st 683 664 / 64)).foldl (fun (t : State) j =>
      match t.rimRead l.part (src + 64 * j) 64 with
      | .ok v => t.write (dst + 64 * j) 64 v
      | .error _ => t.logRim l.part (src + 64 * j) 64) s

/-- Windows unbound. -/
def Core.unbindWindows (k : Core) : Core := { k with wins := Vector.replicate 8 Window.reset }

/-- The matrix context of a context at a kernel start: no command, no descriptor (07 R179). -/
def State.resetMat (s : State) (c : CtxId) : State := s.setMat c MatCtx.reset

/-- The core part of Table 16.7 for a core that joins a stage. -/
def Core.launch (k : Core) (id : CoreId) (j st : Nat) (l : Launch) (index : Nat) (fresh : Bool) : Core :=
  { k.unbindWindows with
    status := if k.status = .idle then .running else k.status
    job := some { launch := j, stage := st }
    ctxs := Vector.ofFn fun i => (k.ctxs[i]).prepare l id i.val fresh
    hbTimer := 0
    hbint := BitVec.ofNat 32 (l.hdr 127 96)
    ovfring := BitVec.ofNat 64 (l.ovfring st id)
    ovfTop := 0
    deque := []
    steal := l.stealSeed index
    probe := none
    transfer := none }

/-- Start the contexts of items on a core. -/
def Core.startItems (k : Core) (entry : Word) (items : List (Fin 11 × Word)) : Core :=
  { k with ctxs := items.foldl (fun v i => v.set i.1 ((v[i.1]).launch entry i.2)) k.ctxs }

/-- The items of a stage on a core. -/
def stageItems (packet : BitVec 11264) (st : Nat) (x : Stage) (ks : List CoreId) (k : CoreId) : List (Fin 11 × Word) :=
  ctxNums.filterMap fun c => (itemOf packet st (stagePool packet st) x.units ks k c).map fun w => (c, w)

/-- A core of a stage starts the contexts its items name, by Table 16.7; a core that no item names starts nothing. At admission
(`fresh`) its local image is in place already (R330 step 6). -/
def State.startCore (s : State) (j st : Nat) (ks : List CoreId) (index : Nat) (fresh : Bool) (k : CoreId) : State :=
  match s.launch? j with
  | none => s
  | some l =>
    match l.stages[st]? with
    | none => s
    | some x =>
      let items := stageItems l.packet st x ks k
      let c := (s.core k).launch k j st l index fresh
      if items.isEmpty then s.setCore k { c with status := if c.status = .running then .idle else c.status }
      else
        let t := if fresh then s else s.copyImage l st k
        let t := t.setCore k ((t.core k).launch k j st l index fresh |>.startItems (l.entry st) items)
        let t := ctxNums.foldl (fun (t : State) i => t.resetMat { core := k, num := i }) t
        let t := if k.big then t else t.bindStart l st k ks fresh
        let t := t.mapStage j st fun y => { y with running := y.running ++ [k] }
        let t := if decide (t.power.active ≤ l.hdr 17 15) then t.setCore k { t.core k with holdSince := some t.refCount } else t
        t.applyWindows l st k

/-- Start several cores of a stage, each with its placement index. -/
def State.startCores (j st : Nat) (ks : List CoreId) (fresh : Bool) : List CoreId → State → State
  | [], s => s
  | k :: rest, s =>
    State.startCores j st ks fresh rest (s.startCore j st ks ((ks.findIdx? fun x => x == k).getD 0) fresh k)

/-- GSHARE of the big cores of groups: GSHK and GSHM unless both are 0. -/
def State.setShares (s : State) (l : Launch) (gs : List Group) : State :=
  if l.hdr 95 80 = 0 then s
  else
    (gs.filter (·.big)).foldl (fun (t : State) g =>
      t.setHive g.hive { t.hive g.hive with gshareM := l.hdr 87 80, gshareK := l.hdr 95 88, gshareNext := [] }) s

/-! ## END (08 R197, R326) -/

/-- What lives for the kernel alone and no start sets again is lost at its end: the mailboxes of the core (00 R1, 13 Table 13.2). -/
def State.endMail (s : State) : State :=
  let c := s.myCore
  s.setMyCore { c with ctxs := c.ctxs.map fun m => { m with mailbox := [] } }

/-- A loop restart: the context starts again at ENTRY with the next identifier, and what lives for the kernel is set
again, local memory apart (R326). -/
def State.restart (s : State) (st : Nat) (l : Launch) (x : Stage) (w : Word) : State :=
  let k := s.cur.core
  let c := s.myCore
  let t := s.setMyCore { c.unbindWindows with
    ctxs := c.ctxs.set s.cur.num (s.me.launch (l.entry st) w)
    hbTimer := 0
    transfer := none
    divider := if c.transfer.isSome then c.dividerKept else c.divider }
  let t := ctxNums.foldl (fun (t : State) i => t.resetMat { core := k, num := i }) t
  let t := if k.big then t else t.bindStart l st k (coresOf x.alloc) false
  t.applyWindows l st k

/-- The kernel on the core ends: its control context ends, and the core runs nothing. -/
def State.endKernel (s : State) (job : Option (Nat × Nat)) : State :=
  let t := s.endContext
  let c := t.myCore
  let t := t.setMyCore { c with status := if c.status = .running then .idle else c.status, transfer := none,
                                divider := if c.transfer.isSome then c.dividerKept else c.divider }
  match job with
  | some (j, st) => t.mapStage j st fun y => { y with running := y.running.filter fun k => k != s.cur.core }
  | none => t

/-- END: PRIVILEGED in a helper; it waits for its timelines and for the helpers, releases, and the kernel starts again with
the next loop value or ends (08 R195, R197, R326). -/
def endFrom (len : BitVec 2) (i : Instr) (s : State) : Host.Outcome State Fault Refusal :=
  settle len
    (if s.cur.num ≠ 0 then privileged s i
     else (s.implicitWait i).bind fun t =>
       if t.myCore.live.any fun n => n != 0 then .error (.hold (t.blockIn i none 0))
       else
         let t := t.freeSlots.endMail
         match t.stageOf t.cur.core with
         | none => .ok (t.endKernel none)
         | some (j, l, st, x) =>
           match nextLoop l.packet st (loopFields l.packet st) t.me.work with
           | some w => .ok (t.restart st l x w)
           | none => .ok (t.endKernel (some (j, st))))

/-- END, base form. -/
def execEndK (s : State) : Host.Outcome State Fault Refusal := endFrom 0 .endK s

/-- END, extended form. -/
def execEndX (s : State) : Host.Outcome State Fault Refusal := endFrom 2 .endX s

end Sys2Proof.Machine
end

