-- ==== Sys2Proof/Machine/Admit.lean ====
section
/-! DEFINITION. Admission of a launch: the checks of a packet, the allotment, and what admission does (16 R323, R330, R331,
R335, R336), with the residency reports (R337). -/

namespace Sys2Proof.Machine

/-! ## Reports (R337, Table 16.9) -/

/-- The dies a list of groups touches, as DIES. -/
def groupDies (gs : List Group) : Nat :=
  ((List.range 36).filter fun d => gs.any fun g => g.hive.die == d).foldl (fun n d => n + 2 ^ d) 0

/-- A residency report. REASON holds the trap cause in its low bits for reason 7 (Table 16.9). -/
def reportWord (now p : Nat) (packet : BitVec 11264) (event reason : Nat) (gs : List Group) : Nat :=
  bits packet.toNat 63 32 * 2 ^ 224 + event * 2 ^ 216 + reason * 2 ^ 208 + bits packet.toNat 23 18 * 2 ^ 202 + p * 2 ^ 196 +
    groupDies gs * 2 ^ 160 + gs.length * 2 ^ 128 + now * 2 ^ 64

/-- Send a report: stored at RPT for a doorbell submission; a fabric submitter's leaves the module (log 48). -/
def State.report (s : State) (p : Nat) (q : Queued) (event reason : Nat) (gs : List Group) : State :=
  let rpt := bits q.packet.toNat 447 384
  match q.source with
  | .doorbell => if rpt = 0 then s else s.rimWrite p rpt 32 (reportWord s.now p q.packet event reason gs)
  | .fabric a =>
    let w := reportWord s.now p q.packet event reason gs
    { s with fw := { s.fw with sent := s.fw.sent ++ [(some a, (List.range 32).map fun i => BitVec.ofNat 8 (w / 2 ^ (8 * i)))] } }

/-! ## Checks that need no allotment (R330 step 1) -/

/-- A rejection's REASON field; reason 7 carries 256 times its trap cause. -/
abbrev Rej := Nat

/-- Checks in order: the first that fails decides. -/
def firstFail : List (Bool × Nat) → Except Rej Unit
  | [] => .ok ()
  | (bad, n) :: rest => if bad then .error n else firstFail rest

/-- Whether a stage descriptor breaks reason 1. -/
def stageReserved (p : BitVec 11264) (st : Nat) : Bool :=
  stageBits p st 1023 768 != 0 || stageBits p st 644 640 != 0 || stageBits p st 447 416 != 0 || stageBits p st 84 64 != 0 ||
    (List.range 6).any fun n =>
      if n < numFields p st then fieldBits p st n 47 41 != 0 else fieldBits p st n 47 0 != 0

/-- Reason 1: VERSION, reserved bits, unused descriptors. -/
def badForm (p : BitVec 11264) : Bool :=
  bits p.toNat 7 0 != 1 || bits p.toNat 1023 512 != 0 || bits p.toNat 79 74 != 0 ||
    ((List.range 8).any fun st => if st ≤ bits p.toNat 10 8 then stageReserved p st else stageBits p st 1023 0 != 0) ||
    (List.range 16).any fun n =>
      if ringBits p n 127 127 = 1 then ringBits p n 104 57 != 0 else ringBits p n 127 0 != 0

/-- Floor of a stage in cores. -/
def floorCores (p : BitVec 11264) (st : Nat) : Nat := if stageBig p st then stageFloor p st else 8 * stageFloor p st

/-- Whether a stage descriptor breaks reason 2, seed records apart. -/
def stageRange (p : BitVec 11264) (st : Nat) : Bool :=
  let n := numFields p st
  let seedn := stageBits p st 703 688
  n == 0 || n == 7 ||
    ((fieldNums p st).any fun i =>
      fieldWid p st i == 0 || decide (32 < fieldWid p st i) || decide (2 ^ fieldWid p st i < fieldExt p st i)) ||
    decide (64 < fieldPos p st n) || stageFloor p st == 0 || stageBits p st 1 0 != 0 || stageBits p st 580 576 != 0 ||
    stageBits p st 669 664 != 0 || stageBits p st 650 645 != 0 || stageBits p st 709 704 != 0 ||
    decide (0x80000 < stageBits p st 663 645 + stageBits p st 683 664) || decide (8 < stageBits p st 687 684) ||
    stageBits p st 451 448 != 0 || decide (64 * floorCores p st < seedn) ||
    (!stagePool p st && (seedn != 0 || stageBits p st 575 512 != 0)) || (stageBig p st && bgi p st != 0)

/-- Whether a ring descriptor breaks reason 2. -/
def ringRange (p : BitVec 11264) (n : Nat) : Bool :=
  ringBits p n 127 127 == 1 &&
    (decide (ringBits p n 120 117 < 6) || decide (12 < ringBits p n 120 117) || ringBits p n 126 124 == ringBits p n 123 121)

/-- Reason 2, seed records apart. -/
def badRange (p : BitVec 11264) : Bool :=
  decide (bits p.toNat 87 80 < bits p.toNat 95 88) || bits p.toNat 129 128 != 0 || bits p.toNat 258 256 != 0 ||
    bits p.toNat 194 192 != 0 || bits p.toNat 388 384 != 0 || (stageNums p).any (stageRange p) || (List.range 16).any (ringRange p)

/-- Levels strictly increase with the field number: the list runs from the highest field. -/
def descending : List (Nat × Nat) → Bool
  | a :: b :: rest => decide (b.2 < a.2) && descending (b :: rest)
  | _ => true

/-- Reason 3 of R325. -/
def stagePlaces (p : BitVec 11264) (st : Nat) : Bool :=
  let fs := placedFields p st
  let unit := groupsPerUnit (stageBig p st) (topLevel p st)
  (fieldNums p st).any (fun n => decide (5 < fieldPlace p st n)) || fs.isEmpty || !descending fs ||
    (!(loopFields p st).isEmpty && fs.any fun f => f.2 == 0) ||
    (stageBig p st && fs.any fun f => f.2 == 0 || (f.2 == 1 && fieldExt p st f.1 != 1)) ||
    stageFloor p st % unit != 0 || stageBits p st 101 85 % unit != 0

/-- Reason 5. -/
def ringBroken (p : BitVec 11264) (n : Nat) : Bool :=
  ringBits p n 127 127 == 1 &&
    (decide (bits p.toNat 10 8 < ringBits p n 126 124) || decide (bits p.toNat 10 8 < ringBits p n 123 121) ||
      ringBits p n 56 0 % 2 ^ ringBits p n 120 117 != 0 ||
      (ringBits p n 112 109 != 0 && decide (ringBits p n 112 109 ≤ ringBits p n 108 105)))

/-- The addresses of a stage's seed records. -/
def seedAddrs (p : BitVec 11264) (st : Nat) : List Nat := stepsFrom (stageBits p st 639 576) 32 (stageBits p st 703 688)

/-- Seed records in order up to the first that cannot be read: whether one of them is invalid, and the failed read. -/
def State.scanSeeds (s : State) (part : Nat) : List Nat → Bool × Option Deny
  | [] => (false, none)
  | a :: as =>
    match s.rimRead part a 32 with
    | .error d => (false, some d)
    | .ok v => if taskValid (BitVec.ofNat 256 v) then s.scanSeeds part as else (true, none)

/-- The sum of the floors of a kind. -/
def floorSum (p : BitVec 11264) (big : Bool) : Nat :=
  (((stageNums p).filter fun st => stageBig p st == big).map (stageFloor p)).sum

/-- Step 1 of R330. -/
def State.firstChecks (s : State) (part : Nat) (p : BitVec 11264) : Except Rej Unit :=
  let scans := (stageNums p).map fun st => s.scanSeeds part (seedAddrs p st)
  (firstFail
    [(badForm p, 1), (badRange p || scans.any fun r => r.1, 2), ((stageNums p).any (stagePlaces p), 3),
     (decide (304 < bits p.toNat 73 64), 4), ((List.range 16).any (ringBroken p), 5),
     (decide ((s.ownedGroups part false).length < floorSum p false) ||
      decide ((s.ownedGroups part true).length < floorSum p true), 6)]).bind fun _ =>
    match scans.findSome? fun r => r.2 with
    | some _ => .error 8
    | none =>
      match s.rimReads part 16 ((stageNums p).flatMap (windowAddrs p)) with
      | .error _ => .error 8
      | .ok _ => .ok ()

/-! ## Checks of an allotment (R330 step 5) -/

/-- The stages of a launch with an allotment, pool units numbered in placement order. -/
def freshStages (p : BitVec 11264) (alloc : List (List Group)) : List Stage :=
  (stageNums p).map fun st =>
    let gs := sortGroups (alloc.getD st [])
    let us := topUnits (topLevel p st) (coresOf gs)
    { alloc := gs, units := if stagePool p st then us.foldl numberUnit [] else [], work := 0, running := [], done := false }

/-- The cores of a stage that start a context, in placement order. -/
def startingCores (p : BitVec 11264) (st : Nat) (x : Stage) : List CoreId :=
  let ks := coresOf x.alloc
  ks.filter fun k => !(stageItems p st x ks k).isEmpty

/-- The control contexts of a launch that start, in stage order and then in placement order (R327). -/
def controlContexts (p : BitVec 11264) (stages : List Stage) : List CtxId :=
  (stageNums p).flatMap fun st =>
    match stages[st]? with
    | none => []
    | some x =>
      let ks := coresOf x.alloc
      (ks.filter fun k => (stageItems p st x ks k).any fun i => i.1 == 0).map fun k => { core := k, num := 0 }

/-- Whether a stage's BGI names a rectangle that is not valid on some die (reason 9). -/
def badRects (p : BitVec 11264) (st : Nat) (x : Stage) : Bool :=
  let ks := coresOf x.alloc
  bgi p st != 0 && ks.any fun k => (stageRect k.die ks).isNone

/-- A core as it stands when its start-up windows are checked: its control context in user mode, windows unbound. -/
def State.windowProbe (s : State) (k : CoreId) : State :=
  let c := s.core k
  s.setCore k { c.unbindWindows with ctxs := c.ctxs.set 0 { Context.reset with live := true } }

/-- The window checks of a launch, in stage, placement and table order: reason 7 with the cause (R331). -/
def State.checkWindows (s : State) (l : Launch) (st : Nat) : List CoreId → Except Rej Unit
  | [] => .ok ()
  | k :: ks =>
    match ((s.windowProbe k).startWindows l st k).2 with
    | none => s.checkWindows l st ks
    | some (.trap t _) => .error (7 + 256 * t.cause.code)
    | some (.hold _) => .error (7 + 256 * Cause.access.code)

/-- The errors that the window checks of cores find, up to the first that fails, are logged (20 R384). -/
def State.logWindows (s : State) (l : Launch) (st : Nat) : List CoreId → State
  | [] => s
  | k :: ks =>
    match ((s.windowProbe k).startWindows l st k).2 with
    | none => s.logWindows l st ks
    | some (.trap _ u) => { s with dies := u.dies }
    | some (.hold _) => s

/-- Seeds a core gets when n cores share them: record i goes to core i mod n. -/
def seedShare (n i : Nat) (seeds : List Nat) : List Nat :=
  ((List.range seeds.length).filter fun j => j % n == i).map fun j => seeds.getD j 0

/-- The seed records of a stage. -/
def State.seedsOf (s : State) (part : Nat) (p : BitVec 11264) (st : Nat) : List Nat :=
  match s.rimReads part 32 (seedAddrs p st) with
  | .ok vs => vs
  | .error _ => []

/-- Whether a core can hold m seeds: 64 in its deque, the others in its overflow ring (R327). -/
def State.holdsSeeds (s : State) (l : Launch) (st : Nat) (k : CoreId) (m : Nat) : Bool :=
  let ovf := l.ovfring st k
  decide (m ≤ 64) ||
    (bits ovf 63 63 == 1 && decide (m ≤ 64 + 2 ^ bits ovf 62 58) &&
      (stepsFrom (bits ovf 56 5 * 32) 32 (m - 64)).all fun a =>
        match s.rimAddr l.part .store a with | .ok _ => true | .error _ => false)

/-- Whether areas of a core pass 2^57 (R327). -/
def areasPass (l : Launch) (st : Nat) (k : CoreId) : Bool :=
  let ovf := stageBits l.packet st 575 512
  decide (2 ^ 57 < l.spillArea k 11) ||
    (l.pool st && bits ovf 63 63 == 1 &&
      decide (2 ^ 57 < bits ovf 56 5 * 32 + (globalIndex k + 1) * 32 * 2 ^ bits ovf 62 58))

/-- Reason 2 of step 5: seeds that cannot be held, or areas past 2^57. -/
def State.badSeeds (s : State) (l : Launch) (st : Nat) (x : Stage) : Bool :=
  let ks := startingCores l.packet st x
  let n := stageBits l.packet st 703 688
  ks.any (areasPass l st) || (ks.isEmpty && n != 0) ||
    (List.range ks.length).any fun i =>
      match ks[i]? with
      | some k => !s.holdsSeeds l st k ((n + ks.length - 1 - i) / ks.length)
      | none => false

/-- The addresses of a stage's local image, by 64 bytes. -/
def imageAddrs (p : BitVec 11264) (st : Nat) : List Nat := stepsFrom (stageBits p st 767 704) 64 (stageBits p st 683 664 / 64)

/-- The translation checks of a list of addresses. -/
def State.rimChecks (s : State) (part : Nat) (acc : Acc) : List Nat → Except Rej Unit
  | [] => .ok ()
  | a :: as =>
    match s.rimAddr part acc a with
    | .error _ => .error 8
    | .ok _ => s.rimChecks part acc as

/-- The rank table's addresses. -/
def rankAddrs (p : BitVec 11264) : List Nat := stepsFrom (bits p.toNat 255 192) 8 (bits p.toNat 319 288)

/-- The window checks of every stage. -/
def State.checkAllWindows (s : State) (l : Launch) : List Nat → Except Rej Unit
  | [] => .ok ()
  | st :: rest =>
    match l.stages[st]? with
    | none => s.checkAllWindows l rest
    | some x => (s.checkWindows l st (startingCores l.packet st x)).bind fun _ => s.checkAllWindows l rest

/-- The errors that the window checks of every stage find are logged, up to the first that fails. -/
def State.logAllWindows (s : State) (l : Launch) : List Nat → State
  | [] => s
  | st :: rest =>
    match l.stages[st]? with
    | none => s.logAllWindows l rest
    | some x =>
      match s.checkWindows l st (startingCores l.packet st x) with
      | .ok _ => s.logAllWindows l rest
      | .error _ => s.logWindows l st (startingCores l.packet st x)

/-- Whether some stage of a launch meets a condition. -/
def Launch.anyStage (l : Launch) (f : Nat → Stage → Bool) : Bool :=
  (stageNums l.packet).any fun st => match l.stages[st]? with | some x => f st x | none => false

/-- Step 5 of R330 for a launch with its allotment. -/
def State.lastChecks (s : State) (l : Launch) : Except Rej Unit :=
  let p := l.packet
  (firstFail
    [(l.anyStage fun st x => !mapsWhole p st (stagePool p st) (coresOf x.alloc), 3),
     (decide ((controlContexts p l.stages).length < bits p.toNat 319 288), 6),
     (l.anyStage (badRects p), 9)]).bind fun _ =>
    (s.checkAllWindows l (stageNums p)).bind fun _ =>
      (firstFail [(l.anyStage (s.badSeeds l), 2)]).bind fun _ =>
        (s.rimChecks l.part .load ((stageNums p).flatMap (imageAddrs p))).bind fun _ => s.rimChecks l.part .store (rankAddrs p)

/-- The errors that the checks of a packet meet in the reads of its seed records and start-up tables are logged (20 R384). -/
def State.logFirst (s : State) (part : Nat) (p : BitVec 11264) (e : Rej) : State :=
  if e ≠ 8 then s
  else
    let seeds := (stageNums p).flatMap (seedAddrs p)
    if seeds.any fun a => (s.rimRead part a 32).toOption.isNone then s.logRims part 32 seeds
    else s.logRims part 16 ((stageNums p).flatMap (windowAddrs p))

/-- The errors that the checks of an allotment meet are logged: of the window checks, or of the walks for images and rank table (20
R384). -/
def State.logLast (s : State) (l : Launch) (e : Rej) : State :=
  let denied (acc : Acc) (a : Nat) : Bool := (s.rimAddr l.part acc a).toOption.isNone
  if e % 256 = 7 then s.logAllWindows l (stageNums l.packet)
  else if e = 8 then
    match ((stageNums l.packet).flatMap (imageAddrs l.packet)).find? (denied .load) with
    | some a => s.logRimWalk l.part a
    | none => match (rankAddrs l.packet).find? (denied .store) with
      | some a => s.logRimWalk l.part a
      | none => s
  else s

/-! ## What admission does (R330 step 6) -/

/-- The first uncorrectable byte of a little-core stage's local image, by its offset. -/
def State.imageFault (s : State) (part : Nat) (p : BitVec 11264) (st : Nat) : Option Nat :=
  if stageBig p st then none
  else (imageAddrs p st).findSome? fun a =>
    match s.rimAddr part .load a with
    | .ok pa => (s.poison pa 64).map fun b => a - stageBits p st 767 704 + (b - pa)
    | .error _ => none

/-- Copy the images of the stages up to the first with an uncorrectable byte, whose first core keeps the bytes before it;
whether there is one (R330 step 6). -/
def State.copyImages (s : State) (l : Launch) : List Nat → State × Bool
  | [] => (s, false)
  | st :: rest =>
    match l.stages[st]? with
    | none => s.copyImages l rest
    | some x =>
      let ks := startingCores l.packet st x
      match s.imageFault l.part l.packet st, ks with
      | some off, k :: _ =>
        let src := stageBits l.packet st 767 704
        let dst := localAddr k (stageBits l.packet st 663 645)
        ((List.range off).foldl (fun (t : State) i =>
          match t.rimAddr l.part .load (src + i) with
          | .ok a => t.write (dst + i) 1 (t.byte a).toNat
          | .error _ => t) (s.logRim l.part (src + off) 1), true)
      | _, _ => (ks.foldl (fun (t : State) k => t.copyImage l st k) s).copyImages l rest

/-- The array split of a hive rises to n units: lines of the departing units are written back and dropped, and the units
are cleared (R336). -/
def State.raiseSplit (s : State) (j n : Nat) (h : HiveId) : State :=
  let k := bigCore h
  let gone := (s.core k).l1.filter fun e => decide (e.way < n)
  let t := gone.foldl (fun (t : State) e => t.evict k e.line) s
  let t := t.clear (scratchAddr h 0) (16384 * n)
  t.setHive h { t.hive h with split := n, splitBy := some j }

/-- The units of a launch's splits return to the cache as invalid ways (R336). -/
def State.dropSplits (s : State) (j : Nat) : State :=
  { s with hives := s.hives.map fun (e : HiveId × Hive) =>
      if e.2.splitBy = some j then (e.1, { e.2 with split := 0, splitBy := none }) else e }

/-- The splits of a launch (R335). -/
def State.setSplits (s : State) (j : Nat) (l : Launch) : State :=
  if l.splitUnits = 0 then s
  else ((l.stages.flatMap (·.alloc)).map (·.hive)).eraseDups.foldl (State.raiseSplit · j l.splitUnits) s

/-- Seeds of one core that its deque does not hold go to its overflow ring, oldest first (R327, 13 R291). -/
def State.spillSeeds (s : State) (l : Launch) (st : Nat) (k : CoreId) (seeds : List Nat) : State :=
  let base := bits (l.ovfring st k) 56 5 * 32
  (List.range (seeds.length - 64)).foldl (fun (t : State) i => t.rimWrite l.part (base + 32 * i) 32 (seeds.getD i 0)) s

/-- A core's deque holds its newest 64 seeds; the others are in its overflow ring. -/
def State.holdSeeds (s : State) (k : CoreId) (seeds : List Nat) : State :=
  let overrun := seeds.length - 64
  s.setCore k { s.core k with deque := (seeds.drop overrun).map (BitVec.ofNat 256), ovfTop := overrun }

/-- Do something with every core of a stage that gets seeds, and its share of them. -/
def State.eachShare (s : State) (l : Launch) (st : Nat) (seeds : List Nat) (f : State → CoreId → List Nat → State) : State :=
  match l.stages[st]? with
  | none => s
  | some x =>
    let ks := startingCores l.packet st x
    (List.range ks.length).foldl (fun (t : State) i =>
      match ks[i]? with
      | some k => f t k (seedShare ks.length i seeds)
      | none => t) s

/-- The seeds of a stage that pass a deque are stored. -/
def State.storeSeeds (s : State) (l : Launch) (st : Nat) (seeds : List Nat) : State :=
  s.eachShare l st seeds fun t k v => t.spillSeeds l st k v

/-- The deques of a stage hold its seeds; C counts them. -/
def State.placeSeeds (s : State) (j : Nat) (l : Launch) (st : Nat) (seeds : List Nat) : State :=
  (s.eachShare l st seeds State.holdSeeds).mapStage j st fun y => { y with work := seeds.length }

/-- Entries 32 bytes each that list groups, 8 per entry: the first core of a group in COREID's layout, its stage above
(log 49). -/
def groupWords (l : Launch) : Nat :=
  let ids := (stageNums l.packet).flatMap fun st =>
    ((l.stages[st]?).map fun x => x.alloc.map fun g =>
      (match g.cores with | k :: _ => coreIdBits { core := k, num := 0 } | [] => 0) + st * 2 ^ 28).getD []
  packLanes 32 ids

/-- Record the steal seeds of cores of a pool stage, each with its placement index among the stage's cores (20 Table 20.8). -/
def State.recordSeeds (s : State) (l : Launch) (ks new : List CoreId) : State :=
  new.foldl (fun (t : State) k =>
    let i := (ks.findIdx? fun x => x == k).getD 0
    let w := coreIdBits { core := k, num := 0 }
    t.record l.part 4 w w (l.stealSeed i).toNat i) s

/-- Record an admission and its steal seeds (20 Table 20.8). -/
def State.recordAdmission (s : State) (l : Launch) : State :=
  let n := (l.stages.map fun x => x.alloc.length).sum
  let t := (s.record l.part 3 (l.hdr 23 18) 0 n (l.hdr 63 32)).continueRecord l.part (groupWords l) ((n + 7) / 8)
  (stageNums l.packet).foldl (fun (t : State) st =>
    match l.stages[st]? with
    | none => t
    | some x => if l.pool st then t.recordSeeds l (coresOf x.alloc) (coresOf x.alloc) else t) t

/-- Start every core of every stage of a launch. -/
def State.startStages (j : Nat) (l : Launch) : List Nat → State → State
  | [], s => s
  | st :: rest, s =>
    match l.stages[st]? with
    | none => State.startStages j l rest s
    | some x =>
      let ks := coresOf x.alloc
      State.startStages j l rest (State.startCores j st ks true ks s)

/-- Whether an entry is a draw or an admission. -/
def isLaunching (e : Nat) : Bool := recType e == 2 || recType e == 3

/-- A new mode of recording takes effect at an admission (20 R392): a record begins with the lottery state and the queue drawn, and a
replay takes the state its record begins with. -/
def State.switchMode (s : State) (p queue : Nat) : State :=
  let q := s.part p
  match q.recNext with
  | none => s
  | some (m, base, size, dest) =>
    let t := s.setPart p { q with rmode := m, recNext := none, rbase := base, rsize := size, replayTo := dest, rhead := 0, rseq := [], applied := [], truncated := false,
                                  lastApplied := s.refCount }
    if m = 1 then t.record p 2 queue 0 q.lottery.toNat queue
    else if m = 2 then
      match t.nextEntry p isLaunching with
      | some (i, e) =>
        if recType e = 2 then
          let u := t.applyEntry p i
          u.setPart p { u.part p with lottery := BitVec.ofNat 64 (recPayload e) }
        else t
      | none => t
    else t

/-- Admit a launch whose checks have passed and whose splits are set and images copied: seeds, ranks, starts and the report
(R330 step 6). -/
def State.makeResident (s : State) (j : Nat) (l : Launch) (seeds : List (List Nat)) : State :=
  let p := l.packet
  let ranks := ((controlContexts p l.stages).take (bits p.toNat 319 288)).map fun c =>
    ({ ctx := c, transit := false, ended := false } : RankEntry)
  let l := { l with ranks := ranks, sampled := s.refCount }
  let t := (stageNums p).foldl (fun (t : State) st => t.storeSeeds l st (seeds.getD st [])) (s.setLaunch j l)
  let t := (List.range ranks.length).foldl (fun (t : State) r =>
    match ranks[r]? with | some e => t.writeRank l r e | none => t) t
  let t := t.setShares l (l.stages.flatMap (·.alloc))
  let t := State.startStages j l (stageNums p) t
  let t := (stageNums p).foldl (fun (t : State) st => t.placeSeeds j l st (seeds.getD st [])) t
  let t := t.recordAdmission l
  t.report l.part { packet := p, source := l.source } 2 0 (l.stages.flatMap (·.alloc))

/-- What became of the head of a queue. -/
inductive Tried where
  | admitted | rejected | stays
  deriving DecidableEq, Repr

/-- The groups a record names for the next admission of a launch, by stage (20 R394). -/
def State.recordedGroups (s : State) (l : Launch) : Option (Nat × List (List Group)) :=
  match s.nextEntry l.part isLaunching with
  | none => none
  | some (i, e) =>
    if recType e ≠ 3 ∨ recAux e ≠ l.hdr 63 32 then none
    else
      let base := (s.part l.part).rbase + 32 * (i + 1)
      let ids := (List.range (recPayload e)).map fun n => s.physRead l.part (base + 4 * n) 4
      let groupAt (w : Nat) : Group :=
        groupOf { big := bits w 27 27 == 1, die := bits w 26 21, row := bits w 20 14, col := bits w 13 6 }
      some (i, (stageNums l.packet).map fun st => (ids.filter fun w => bits w 30 28 == st).map groupAt)

/-- The allotment of a drawn head: by R330, or in replay mode the recorded one, if its groups are free (20 R394). -/
def State.allotFor (s : State) (l : Launch) : Option (State × List (List Group)) :=
  if s.enforced l.part isLaunching then
    match s.recordedGroups l with
    | none => none
    | some (i, gs) =>
      let free := s.freeGroups l.part false ++ s.freeGroups l.part true
      if gs.flatten.all fun g => free.contains g then some (s.applyEntry l.part i, gs) else none
  else (s.allot l).map fun gs => (s, gs)

/-- The head leaves its queue. -/
def State.dequeue (s : State) (p queue : Nat) : State :=
  let q := s.part p
  s.setPart p { q with queues := store queue (lookup [] queue q.queues).tail q.queues }

/-- The head is rejected: it leaves its queue and is reported. -/
def State.rejectHead (s : State) (p queue : Nat) (h : Queued) (e : Rej) : Tried × State :=
  (.rejected, (s.dequeue p queue).report p h 3 (if e % 256 = 7 then e / 256 else e) [])

/-- A packet as a launch with no allotment. -/
def Queued.launch (h : Queued) (p : Nat) : Launch where
  part := p
  source := h.source
  packet := h.packet
  stages := []
  rings := []
  ranks := []
  groups := []
  samples := []
  moves := []
  sampled := 0

/-- The beginning of step 6 of R330: splits are set and images copied; whether a byte of an image is uncorrectable. -/
def State.prepareLaunch (s : State) (l : Launch) : State × Bool :=
  (({ s with nextLaunch := s.nextLaunch + 1 }).setSplits s.nextLaunch l).copyImages l (stageNums l.packet)

/-- Step 6 of R330: splits and images, then everything else; an uncorrectable byte of an image rejects the launch, and nothing but the
copied bytes stays: `was` is the state before a new mode of recording took effect (R323, 20 R392). -/
def State.admitHead (was s : State) (p queue : Nat) (h : Queued) (l : Launch) : Tried × State :=
  let seeds := (stageNums l.packet).map (s.seedsOf p l.packet)
  match s.prepareLaunch l with
  | (_, true) => ((was.prepareLaunch l).1.dropSplits was.nextLaunch).rejectHead p queue h 8
  | (t, false) => (.admitted, (t.dequeue p queue).makeResident s.nextLaunch l seeds)

/-- Try to admit the head of a queue (R330): what became of it, and the state. -/
def State.tryAdmit (s : State) (p queue : Nat) : Tried × State :=
  match lookup [] queue (s.part p).queues with
  | [] => (.stays, s)
  | h :: _ =>
    match s.firstChecks p h.packet with
    | .error e => (s.logFirst p h.packet e).rejectHead p queue h e
    | .ok _ =>
      match (s.switchMode p queue).allotFor (h.launch p) with
      | none => (.stays, s)
      | some (t, alloc) =>
        let l := { h.launch p with stages := freshStages h.packet alloc }
        match t.lastChecks l with
        | .error e => (s.logLast l e).rejectHead p queue h e
        | .ok _ => s.admitHead t p queue h l

end Sys2Proof.Machine
end

