-- ==== Sys2Proof/Machine/Launch.lean ====
section
/-! DEFINITION. Queues, the lottery, the governor, moves of groups, and the completion and abort of launches (16 R328 to R337,
21 R400, R401). -/

namespace Sys2Proof.Machine

/-! ## What a launch leaves (R334) -/

/-- A core as the end of its stage leaves it: no contexts, no engine state; its caches, clocks and fence stay, its barrier registers
and OVFRING keep what the launch left in them (19 R381, R383), and accepted messages are delivered as long as the launch is
resident (13 R304). -/
def Core.release (k : Core) : Core :=
  { Core.reset with
    status := if k.status = .fenced then .fenced else .idle
    cycles := k.cycles
    within := k.within
    scalarAt := k.scalarAt
    vectorAt := k.vectorAt
    scalarTurn := k.scalarTurn
    vectorTurn := k.vectorTurn
    lanes := k.lanes
    divider := k.ownDivider
    dividerKept := k.dividerKept
    dividerNext := k.dividerNext
    icache := k.icache
    l1 := k.l1
    tlb := k.tlb
    sensB := k.sensB
    sensK := k.sensK
    sensM := k.sensM
    windowTicks := k.windowTicks
    droop := k.droop
    bgs := k.bgs
    ovfring := k.ovfring
    sendBuf := k.sendBuf }

/-- A hive without the packets, results, engine commands and slots of one core's contexts. -/
def Hive.release (h : Hive) (k : CoreId) (pooled : Nat) : Hive :=
  { h with
    slots := h.slots.map fun x => if x.owner.any fun c => c.core == k then Slot.reset else x
    mats := h.mats.filter fun e => e.1.core != k
    copies := h.copies.filter fun e => e.1.core != k
    arriving := h.arriving.filter fun p => p.sender.core != k
    queue := h.queue.filter fun p => p.sender.core != k
    results := h.results.filter fun r => r.sender.core != k
    pooled := h.pooled + pooled }

/-- Whether no command of a hive's engines is outstanding. -/
def Hive.enginesIdle (x : Hive) : Bool := x.mats.all (fun e => e.2.queue.isEmpty) && x.copies.all fun e => e.2.isEmpty

/-- The hive's engines are switched off once all 33 cores are off and no command is outstanding (18 R373). -/
def State.enginesFollow (s : State) (h : HiveId) : State :=
  let x := s.hive h
  s.setHive h { x with enginesOff := (hiveCores h).all (fun k => (s.core k).status == .off) && x.enginesIdle }

/-- A core leaves its launch: its contexts, deque, messages, engine commands and tokens on their way are gone (R334). -/
def State.releaseCore (s : State) (k : CoreId) : State :=
  let c := s.core k
  let s := s.setHive (coreHive k) ((s.hive (coreHive k)).release k c.creditsPooled)
  let s := s.setCore k c.release
  let d := s.die k.die
  let s := s.setDie k.die { d with
    tokens := d.tokens.filter fun f => f.dest != k
    releases := d.releases.filter fun f => f.dest != k
    wires := d.wires.filter fun f => f.dest != k }
  { s.enginesFollow (coreHive k) with
    spawns := s.spawns.filter fun p => p.dest != k
    badRegs := s.badRegs.filter fun b => b.1.core != k
    fence := { s.fence with waiting := s.fence.waiting.filter fun w => w.ctx.core != k } }

/-- Groups have been freed in a partition (R329). -/
def State.groupsFreed (s : State) (p : Nat) : State :=
  let q := s.part p
  s.setPart p { q with armed := true, freed := true }

/-- GSHARE lives for a launch: as groups leave theirs, the registers of its big cores, and of hives where no launch holds groups any
more, read their reset values again (00 R1, 06 Table 6.3). -/
def State.freeShares (s : State) (gs : List Group) : State :=
  gs.foldl (fun (t : State) g =>
    if g.big || !(t.launches.any fun e => e.2.stages.any fun x => x.alloc.any fun y => y.hive == g.hive) then
      t.setHive g.hive { t.hive g.hive with gshareM := 2, gshareK := 1, gshareNext := [] }
    else t) s

/-- A launch leaves: every core it holds is released, its scratch returns to the cache, its residency ends (R334, R336). -/
def State.dropLaunch (s : State) (j : Nat) : State :=
  match s.launch? j with
  | none => s
  | some l =>
    let t := (l.stages.flatMap Stage.cores).foldl State.releaseCore s
    let t := { t.dropSplits j with
      launches := t.launches.filter fun e => e.1 != j
      cores := t.cores.map fun (e : CoreId × Core) => (e.1, { e.2 with sendBuf := e.2.sendBuf.filter fun m => m.launch != j }) }
    (t.freeShares (l.stages.flatMap (·.alloc))).groupsFreed l.part

/-- The packet of a launch with who submitted it. -/
def Launch.queued (l : Launch) : Queued := { packet := l.packet, source := l.source }

/-- An abort (R334): every context ends without saving, and reason 0 is reported. -/
def State.abortLaunch (s : State) (j : Nat) : State :=
  match s.launch? j with
  | none => s
  | some l => (s.dropLaunch j).report l.part l.queued 5 0 (l.stages.flatMap (·.alloc))

/-- Abort every launch of a partition. -/
def State.abortPart (s : State) (p : Nat) : State :=
  ((s.launches.filter fun e => e.2.part == p).map (·.1)).foldl State.abortLaunch s

/-! ## Arrivals (R328, 21 R400, R401) -/

/-- A packet reaches its queue: it is queued and reported, or rejected with reason 10; in record mode it is recorded. -/
def State.arrivePacket (s : State) (p : Nat) (h : Queued) : State :=
  let q := s.part p
  let n := bits h.packet.toNat 23 18
  let l := lookup [] n q.queues
  if 256 ≤ l.length then s.report p h 3 10 []
  else
    let t := s.setPart p { q with queues := store n (l ++ [h]) q.queues, armed := true }
    let t := (t.record p 1 n 0 n (bits h.packet.toNat 63 32)).continueRecord p h.packet.toNat 44
    t.report p h 1 0 []

/-- Read a packet through a partition's page tables: 11 lines of 128 bytes (21 R400). -/
def State.readPacket (s : State) (p a : Nat) : Except Deny (BitVec 11264) :=
  (s.rimReads p 128 (stepsFrom a 128 11)).map fun vs => BitVec.ofNat 11264 (packLanes 1024 vs)

/-- A packet that cannot be read whole is rejected with reason 8, reported at the RPT of its header; where the header itself
cannot be read there is no report (R323, 21 R400). -/
def State.rejectUnread (s : State) (p a : Nat) : State :=
  match s.rimRead p a 128 with
  | .ok h => s.report p { packet := BitVec.ofNat 11264 h, source := .doorbell } 3 8 []
  | .error _ => s

/-- The partition a doorbell page belongs to. Virtual function p + 1 carries the page of partition p only, if it is bound to it
(21 R395; log 121). -/
def State.doorbellPart (s : State) (page : DoorbellPage) : Option Nat :=
  match page with
  | .pf p => if p < 64 then some p else none
  | .vf v => ((s.fw.vf.find? fun e => e.1 == v).map (·.2)).filter fun p => v == p + 1

/-- Whether a PART_RELEASE or PART_DESTROY of a partition runs (21 R399). -/
def State.changes (s : State) (p : Nat) : Bool := s.fw.changing.any fun c => c.part == p

/-- A submission for a partition is discarded and counted (21 R399, R401). -/
def State.dropSubmission (s : State) (p : Nat) : State := s.setPart p { s.part p with dbdrop := (s.part p).dbdrop + 1 }

/-- DBPKT (21 R400): the packet is read and queued, or rejected where it cannot be read; replay ignores doorbells (20 R394). The
address is taken as a multiple of 128. -/
def execDbpkt (page : DoorbellPage) (addr : Word) (s : State) : Host.Outcome State Fault Refusal :=
  match s.doorbellPart page with
  | none => .next s
  | some p =>
    if s.replays p then .next s
    else if s.changes p then .next (s.dropSubmission p)
    else match s.readPacket p (addr.toNat / 128 * 128) with
      | .ok packet => .next (s.arrivePacket p { packet := packet, source := .doorbell })
      | .error _ =>
        .next ((s.logRims p 128 (stepsFrom (addr.toNat / 128 * 128) 128 11)).rejectUnread p (addr.toNat / 128 * 128))

/-- FABRIC_SUBMISSION (21 R401): a message whose payload is a 16-byte head, as a number, its byte 0 lowest, and a packet. It is accepted
from an allowed source of the partition that the head names, else discarded and counted; a head that names none is discarded (log
130). -/
def execFabricSubmission (source head : Nat) (packet : BitVec 11264) (s : State) : Host.Outcome State Fault Refusal :=
  let p := head % 256
  if 64 ≤ p || s.replays p then .next s
  else if head / 256 = 1 && !s.changes p && (s.part p).fabric.contains source then
    .next (s.arrivePacket p { packet := packet, source := .fabric source })
  else .next (s.dropSubmission p)

/-! ## The lottery (R329) -/

/-- Launches of a partition that are resident. -/
def State.residents (s : State) (p : Nat) : Nat := (s.launches.filter fun e => e.2.part == p).length

/-- The non-empty queues of a partition, in increasing number. -/
def Partition.waiting (q : Partition) : List Nat := (List.range 64).filter fun n => !(lookup [] n q.queues).isEmpty

/-- Tickets of a queue: those of the packet at its head (R328). -/
def Partition.tickets (q : Partition) (n : Nat) : Nat :=
  match lookup [] n q.queues with
  | h :: _ => bits h.packet.toNat 31 24
  | [] => 0

/-- The first queue whose running ticket sum exceeds r. -/
def pickTicket (q : Partition) (r : Nat) : List Nat → Option Nat
  | [] => none
  | n :: ns => if r < q.tickets n then some n else pickTicket q (r - q.tickets n) ns

/-- The queue a draw selects with state x, and whether it is forced (R329). -/
def Partition.select (q : Partition) (x : Word) : Option (Nat × Bool) :=
  let e := q.waiting.filter fun n => 0 < q.tickets n
  match e.find? fun n => lookup 0 n q.skip == 4096 with
  | some n => some (n, true)
  | none =>
    if e.isEmpty then q.waiting.head?.map fun n => (n, false)
    else (pickTicket q (x.toNat % (e.map q.tickets).sum) e).map fun n => (n, false)

/-- Whether a draw may be taken (R329). -/
def State.mayDraw (s : State) (p : Nat) : Bool :=
  let q := s.part p
  q.live && !q.waiting.isEmpty && q.forced.isNone && decide (s.residents p < 64) && q.armed &&
    (match q.lastDraw with | none => true | some t => decide (t + 256 ≤ s.refCount))

/-- The state and queue of the next recorded draw (20 R394). -/
def State.recordedDraw (s : State) (p : Nat) : Option (Nat × Word × Nat) :=
  match s.nextEntry p isLaunching with
  | some (i, e) => if recType e = 2 then some (i, BitVec.ofNat 64 (recPayload e), recAux e) else none
  | none => none

/-- The draw of a partition: the state x after it, the queue, whether it is forced, and the machine after the record was
consulted or written. -/
def State.drawOf (s : State) (p : Nat) : Option (State × Word × Nat × Bool) :=
  let q := s.part p
  if s.enforced p isLaunching then
    (s.recordedDraw p).map fun r => (s.applyEntry p r.1, r.2.1, r.2.2, (q.select r.2.1).any fun e => e.2)
  else
    let x := xorshift q.lottery
    (q.select x).map fun r => (s.record p 2 r.1 0 x.toNat r.1, x, r.1, r.2)

/-- SKIP of the queues with tickets after a draw (R329). -/
def Partition.age (q : Partition) (e : List Nat) (drawn : Nat) (admitted : Bool) : Partition :=
  { q with skip := e.foldl (fun m n =>
      store n (if n = drawn ∧ admitted then 0 else min (lookup 0 n m + 1) 4096) m) q.skip }

/-- LOTTERY_DRAW (R329). -/
def execLotteryDraw (part : Nat) (s : State) : Host.Outcome State Fault Refusal :=
  if !s.mayDraw part then .next s
  else match s.drawOf part with
    | none => .next s
    | some (t, x, n, forced) =>
      let q := t.part part
      let e := q.waiting.filter fun n => 0 < q.tickets n
      let t := t.setPart part { q with lottery := x, armed := false, freed := false, lastDraw := some t.refCount }
      let r := t.tryAdmit part n
      let q := (r.2.part part).age e n (r.1 == .admitted)
      .next (r.2.setPart part { q with forced := if forced && r.1 == .stays then some n else none })

/-- FORCED_HEAD_RETRY (R329): the forced head is tried again once groups have been freed. -/
def execForcedHeadRetry (part : Nat) (s : State) : Host.Outcome State Fault Refusal :=
  let q := s.part part
  match q.forced with
  | none => .next s
  | some n =>
    if !q.freed || !decide (s.residents part < 64) then .next s
    else
      let r := (s.setPart part { q with freed := false }).tryAdmit part n
      let q := r.2.part part
      let q := if r.1 = .stays then q else { q with forced := none }
      .next (r.2.setPart part (if r.1 = .admitted then { q with skip := store n 0 q.skip } else q))

/-! ## Groups that join a stage (R326, R333, R334) -/

/-- Groups join a running pool stage: the units take numbers, and the cores start the contexts of their items. -/
def State.joinStage (s : State) (j st : Nat) (gs : List Group) : State :=
  match s.launch? j with
  | none => s
  | some l =>
    let us := topUnits (topLevel l.packet st) (coresOf gs)
    let t := s.mapStage j st fun x =>
      { x with alloc := sortGroups (x.alloc ++ gs), units := us.foldl numberUnit x.units }
    let t := t.setShares l gs
    match (t.launch? j).bind fun l => l.stages[st]? with
    | none => t
    | some x => (State.startCores j st (coresOf x.alloc) false (coresOf gs) t).recordSeeds l (coresOf x.alloc) (coresOf gs)

/-- The ranks of control contexts of cores have ended: others start in their place (16 R327). -/
def State.endRanks (s : State) (j : Nat) (ks : List CoreId) : State :=
  s.mapRanks j (fun e => ks.contains e.ctx.core) fun e => { e with ended := true }

/-- Groups leave a stage: their units' numbers are free. -/
def State.leaveStage (s : State) (j st : Nat) (gs : List Group) : State :=
  match s.launch? j with
  | none => s
  | some l =>
    let us := topUnits (topLevel l.packet st) (coresOf gs)
    let ks := coresOf gs
    s.mapStage j st fun x =>
      { x with
        alloc := x.alloc.filter fun g => !gs.contains g
        units := x.units.filter fun e => !us.contains e.2
        running := x.running.filter fun k => !ks.contains k }

/-- The contexts of a core end; what lives for the launch stays. -/
def State.endContexts (s : State) (k : CoreId) : State :=
  let c := s.core k
  s.setCore k { c with
    ctxs := c.ctxs.map fun m => { m with live := false, blocked := none, yielding := none, spec := [], ras := [] }
    probe := none
    status := if c.status = .running then .idle else c.status }

/-! ## The governor (R332, R333) -/

/-- Whether a stage is a running pool stage. -/
def Launch.runs (l : Launch) (st : Nat) : Bool :=
  l.pool st && match l.stages[st]? with | some x => !x.done | none => false

/-- Groups a stage holds. -/
def Launch.held (l : Launch) (st : Nat) : Nat := match l.stages[st]? with | some x => x.alloc.length | none => 0

/-- Groups one move carries between two stages: one whole unit of the higher of their levels (R326). -/
def Launch.carry (l : Launch) (a b : Nat) : Nat :=
  groupsPerUnit (stageBig l.packet a) (max (topLevel l.packet a) (topLevel l.packet b))

/-- Whether a move from stage a to stage b may take place, movable groups apart (R332). -/
def Launch.mayMove (l : Launch) (a b : Nat) : Bool :=
  l.runs a && l.runs b && stageBig l.packet a == stageBig l.packet b &&
    decide (stageFloor l.packet a + l.carry a b ≤ l.held a) && decide (l.held b + l.carry a b ≤ stageCeiling l.packet b)

/-- Whether a ring's occupancy meets its high and its low condition (R332). -/
def Launch.occupancy (l : Launch) (n : Nat) (r : Ring) : Bool × Bool :=
  let o := r.pubf - r.take
  let cap := l.slots n
  let ghi := ringBits l.packet n 112 109
  let glo := ringBits l.packet n 108 105
  (decide ((ghi * cap + 15) / 16 ≤ o), decide (o ≤ glo * cap / 16) && !r.closed)

/-- The moves two samples in a row decide, rings in increasing number, each stage in at most one. -/
def Launch.decideMoves (l : Launch) (samples : Assoc Nat (Bool × Bool)) : List Nat → List (Nat × Nat × Nat) → List (Nat × Nat × Nat)
  | [], done => done
  | n :: ns, done =>
    let now := lookup (false, false) n samples
    let before := lookup (false, false) n l.samples
    let prod := ringBits l.packet n 126 124
    let cons := ringBits l.packet n 123 121
    let busy (st : Nat) : Bool := done.any fun m => m.2.1 == st || m.2.2 == st
    let move : Option (Nat × Nat) :=
      if now.1 && before.1 then some (prod, cons) else if now.2 && before.2 then some (cons, prod) else none
    match move with
    | some (a, b) =>
      if busy a || busy b || !l.mayMove a b then l.decideMoves samples ns done else l.decideMoves samples ns (done ++ [(n, a, b)])
    | none => l.decideMoves samples ns done

/-- GOVERNOR_SAMPLE (R332): every 16,384 ticks; decisions not carried out since the last sample lapse. -/
def execGovernorSample (launch : Nat) (s : State) : Host.Outcome State Fault Refusal :=
  match s.launch? launch with
  | none => .next s
  | some l =>
    if s.refCount < l.sampled + 16384 then .next s
    else
      let rings := (List.range 16).filter fun n => ringBits l.packet n 127 127 == 1 && ringBits l.packet n 112 109 != 0
      let samples := rings.filterMap fun n => (l.ring? n).map fun r => (n, l.occupancy n r)
      .next (s.setLaunch launch
        { l with samples := samples, moves := l.decideMoves samples rings [], sampled := l.sampled + 16384 })

/-- Whether a context lets its group move (R333). -/
def Context.movable (m : Context) (k : Core) : Bool :=
  !m.parked && m.takes == 0 && m.pendS == 0 && m.pendV == 0 && m.pendP == 0 && m.flagQueue.isEmpty &&
    m.copyTl.value == m.copyTl.last && m.mailbox.isEmpty &&
    (!m.live || match m.blocked with
      | some b =>
        (match b.instr with
         | .taskget _ => k.deque.isEmpty && k.ovfTop == 0
         | .rgtake _ => true
         | _ => false)
      | none => false)

/-- Whether a core lets its group move (R333): its deque and overflow ring are empty too (13 R296), and no record is on its way
to it. -/
def State.movableCore (s : State) (k : CoreId) : Bool :=
  let c := s.core k
  c.deque.isEmpty && c.ovfTop == 0 && (s.spawns.all fun p => p.dest != k) &&
    (c.status == .running || c.status == .idle) && c.parkedSince.isNone && (ctxNums.all fun i => (c.ctxs[i]).movable c) &&
    (s.hive (coreHive k)).slots.all fun x => !(x.owner.any fun o => o.core == k)

/-- The movable units of a stage for a move to another. -/
def State.movableUnits (s : State) (l : Launch) (a b : Nat) : List (List Group) :=
  match l.stages[a]? with
  | none => []
  | some x =>
    let lv := max (topLevel l.packet a) (topLevel l.packet b)
    (wholeUnits (stageBig l.packet a) lv x.alloc).filter fun u => u.all fun g => g.cores.all s.movableCore

/-- The ranks of the control contexts of cores are in transit (R333 step 2). -/
def State.inTransit (s : State) (j : Nat) (ks : List CoreId) : State :=
  s.mapRanks j (fun e => ks.contains e.ctx.core) fun e => { e with transit := true }

/-- The ranks of cores whose control contexts have started name them again (R333 step 4); the others stay in transit. -/
def State.arrived (s : State) (j : Nat) (ks : List CoreId) : State :=
  s.mapRanks j (fun e => ks.contains e.ctx.core && (s.ctx e.ctx).live) fun e => { e with transit := false }

/-- GROUP_MOVE (R333): the decided move of a ring takes place, with one of the movable units; the blocked instructions are
abandoned, and the ranks of the cores name their new control contexts. -/
def execGroupMove (launch ring : Nat) (s : State) : Host.Outcome State Fault Refusal :=
  match s.launch? launch with
  | none => .next s
  | some l =>
    match l.moves.find? fun m => m.1 == ring with
    | none => .next s
    | some (_, a, b) =>
      let us := s.movableUnits l a b
      if !l.mayMove a b then .next s
      else match us[Config.choose s.free % us.length]? with
        | none => .next s
        | some gs =>
          let t := s.fresh.2.setLaunch launch { l with moves := l.moves.filter fun m => m.1 != ring }
          let t := ((coresOf gs).foldl State.endContexts t).leaveStage launch a gs
          .next (((t.inTransit launch (coresOf gs)).joinStage launch b gs).arrived launch (coresOf gs))

/-! ## Completion (R334) -/

/-- Whether a stage's work is over: every item has ended, and in a pool stage C = 0. -/
def Launch.stageOver (l : Launch) (st : Nat) : Bool :=
  match l.stages[st]? with
  | none => false
  | some x => !x.done && x.running.isEmpty && (!l.pool st || x.work == 0)

/-- Close the rings a stage produces. -/
def Launch.closeRings (l : Launch) (st : Nat) : Launch :=
  let mine := (List.range 16).filter fun n => ringBits l.packet n 127 127 == 1 && ringBits l.packet n 126 124 == st
  { l with rings := mine.foldl (fun m n => store n { lookup Ring.reset n m with closed := true } m) l.rings }

/-- The launch's lowest-numbered running pool stage of a kind below its ceiling. -/
def Launch.heir (l : Launch) (big : Bool) : Option Nat :=
  (stageNums l.packet).find? fun st => l.runs st && stageBig l.packet st == big && decide (l.held st < stageCeiling l.packet st)

/-- The groups of a completed stage pass on, in whole units of both stages (R326); the others return to the partition (R334). -/
def State.passGroups (s : State) (j st : Nat) (gs : List Group) : State :=
  match s.launch? j with
  | none => s
  | some l =>
    let big := stageBig l.packet st
    let t := s.leaveStage j st gs
    let give := match l.heir big with
      | some h => takeUnits (stageCeiling l.packet h - l.held h)
          (wholeUnits big (max (topLevel l.packet st) (topLevel l.packet h)) (sortGroups gs))
      | none => []
    let rest := gs.filter fun g => !give.contains g
    let t := (coresOf rest).foldl State.releaseCore t
    let t := if rest.isEmpty then t else t.groupsFreed l.part
    let t := match l.heir big with
      | some h => if give.isEmpty then t else (t.endRanks j (coresOf give)).joinStage j h give
      | none => t
    t.freeShares rest

/-- The launch completes once every stage has: its residency ends, and completion is reported (R334). -/
def State.finishLaunch (s : State) (j : Nat) : State :=
  match s.launch? j with
  | none => s
  | some l => if l.stages.all (·.done) then (s.dropLaunch j).report l.part l.queued 4 0 [] else s

/-- STAGE_COMPLETE (R334). -/
def execStageComplete (launch stage : Nat) (s : State) : Host.Outcome State Fault Refusal :=
  match s.launch? launch with
  | none => .next s
  | some l =>
    if !l.stageOver stage then .next s
    else
      let gs := match l.stages[stage]? with | some x => x.alloc | none => []
      let t := (s.setLaunch launch (l.closeRings stage)).mapStage launch stage fun x => { x with done := true }
      .next ((t.passGroups launch stage gs).finishLaunch launch)

end Sys2Proof.Machine
end

