-- ==== Sys2Proof/Machine/Preempt.lean ====
section
/-! DEFINITION. Pre-emption, saves, restores and moves, shootdowns, and heartbeat fencing (17 R339 to R354, 20 R391). -/

namespace Sys2Proof.Machine

/-! ## Halts (17 R339, R340) -/

/-- A pre-emption request reaches a core: its divider is 1 until it goes on. A core that is halted, parked or saved takes no
further effect (R339). -/
def State.reach (s : State) (k : CoreId) : State :=
  let c := s.core k
  if (c.status = .running || c.status = .idle) && c.parkedSince.isNone then
    s.setCore k { c with
      status := .halting, dividerKept := if c.transfer.isSome then c.dividerKept else c.divider, divider := 1 }
  else s

/-- PREEMPTION_REQUEST (R339): a request on its way reaches its core. -/
def execPreemptionRequest (k : CoreId) (s : State) : Host.Outcome State Fault Refusal :=
  .next (if (s.core k).requested then s.reach k else s)

/-- The members of the transfer phase a core is in: those of its rectangle whose open phase is that barrier's; the core alone outside one (12 R274, R281). -/
def State.gang (s : State) (k : CoreId) : List CoreId :=
  match (s.core k).transfer with
  | none => [k]
  | some x => (rectCores k.die x.rect).filter fun m =>
      (s.core m).status != .fenced && (s.core m).transfer.any fun y => y.bg == x.bg && y.rect == x.rect

/-- Whether a context of a core waits at a timed instruction due in this die clock cycle. -/
def State.timedNow (s : State) (k : CoreId) : Bool :=
  (s.core k).live.any fun i =>
    match ((s.core k).ctxs[i]).blocked with
    | some b => looksAgain b.instr && b.deadline == some s.dieCycle
    | none => false

/-- Whether a phase of a core's barriers starts in this die clock cycle at a member where it has not started yet (12 R274). -/
def State.startsNow (s : State) (k : CoreId) : Bool :=
  [(0 : Fin 4), 1, 2, 3].any fun n =>
    let b := (s.core k).bgs[n]
    b.state != 0 && (rectCores k.die b.rect).any fun m => (((s.core m).bgs[n]).startAt).any fun r => decide (r ≤ s.dieCycle)

/-- A core halts: a transfer phase stands after the present cycle, and a forced shed parks its contexts (12 R281, 18 R371). -/
def State.haltCore (forced : Bool) (s : State) (k : CoreId) : State :=
  let c := s.core k
  if c.status = .running || c.status = .halting then
    let c := { c with
      status := .halted
      transfer := c.transfer.map fun x => { x with halted := some (x.count s.dieCycle + 1) } }
    if forced && c.parkedSince.isNone then
      let t := s.setCore k { c with
        ctxs := c.ctxs.map (Context.park · s.now true), parkedSince := some s.refCount, forcedPark := true }
      t.groupParked (groupOf k) 11
    else s.setCore k c
  else s

/-- CORE_HALT (R339, 12 R281): every context of the core stops at an instruction boundary, and with it, in the same die
clock cycle, every member of an open transfer phase; instructions due in this cycle, and phases that start in it, come first. -/
def execCoreHalt (k : CoreId) (s : State) : Host.Outcome State Fault Refusal :=
  let c := s.core k
  let g := s.gang k
  if c.status ≠ .halting || g.any s.timedNow || s.startsNow k then .next s
  else .next (g.foldl (State.haltCore c.forcedPark) s)

/-! ## Saves (R341 to R347) -/

/-- The rank entries of a core's contexts, in transit or not (R346, 13 R302). -/
def State.setTransit (s : State) (k : CoreId) (b : Bool) : State :=
  match (s.core k).job with
  | some j => s.mapRanks j.launch (fun e => e.ctx.core == k) fun e => { e with transit := b }
  | none => s

/-- The save of a core: its image and engine state are written, its ranks are in transit until the restore, and the supervising
context is told (R341, R342, R346, R347). -/
def State.saveCore (s : State) (p : Nat) (k : CoreId) : State :=
  let t := ((s.logRegisters k).writeImage p k).writeEngine p k |>.setTransit k true
  let t := t.setCore k { t.core k with status := .saved, saveWanted := false }
  t.notify { core := k, num := 0 } 3 0 ((s.core k).ctxs[0]).pc.toNat

/-- CORE_SAVE (R341): a halted core whose save was asked for, once it is quiescent; a parked one counts as halted. -/
def execCoreSave (k : CoreId) (s : State) : Host.Outcome State Fault Refusal :=
  let c := s.core k
  match s.owner k with
  | none => .next s
  | some p =>
    if c.saveWanted && (c.status == .halted || (c.status == .running && c.parkedSince.isSome)) && s.quiescent k then
      .next (s.saveCore p k)
    else .next s

/-! ## Going on (R341, R345) -/

/-- A context that goes on in a transfer phase, whose start moves from one die clock cycle to another: the cycle it waits for in a timed
instruction moves along (12 R281). -/
def Context.retime (m : Context) (start start' : Nat) : Context :=
  match m.blocked with
  | some b => if isTimed b.instr then { m with blocked := some { b with deadline := b.deadline.map fun d => d + start' - start } } else m
  | none => m

/-- The control context of a core that goes on inside a transfer phase issues next in the present cycle, unless it is blocked (12 R281). -/
def Core.wakeControl (k : Core) (now : Nat) : Core :=
  if k.transfer.isSome && (k.ctxs[0]).blocked.isNone then k.mapCtx 0 fun m => { m with wakeAt := some now } else k

/-- A context of a core that goes on, in a transfer phase where `phase` gives its start before and after: of a shed class it stays parked,
or parks where it stands at a release point; else it is released (12 R281, 18 R370, R376). -/
def State.goOn (s : State) (phase : Option (Nat × Nat)) (m : Context) : Context :=
  let m := match phase with | some x => m.retime x.1 x.2 | none => m
  if !m.live then m
  else if !s.shed m then m.unpark s.now
  else if m.atRelease && phase.isNone then m.park s.now false
  else m

/-- The barriers of a core that goes on: a release recorded meanwhile completes the wait, a broken barrier traps (12 R275,
R276). -/
def State.rejoin (s : State) (k : CoreId) : State :=
  [(0 : Fin 4), 1, 2, 3].foldl (fun (t : State) n =>
    let t := if ((t.core k).bgs[n]).broken then t.breakBar k n else t
    if ((t.core k).bgs[n]).state = 1 then t.wakeBarrier k n else t) s

/-- A halted core goes on; a transfer phase goes on with the cycle at which it was halted (12 R281). A core of a shed class that
was parked stays so, and the forced-shed timer runs at one that was not (18 R371, R376). -/
def State.resumeCore (s : State) (k : CoreId) : State :=
  let c := s.core k
  let live := !c.live.isEmpty
  let phase := c.transfer.map fun x => (x.start, (x.halted.map fun h => s.dieCycle - h).getD x.start)
  let t := s.setCore k { c.wakeControl s.dieCycle with
    status := if live then .running else .idle
    ctxs := (c.wakeControl s.dieCycle).ctxs.map (s.goOn phase)
    holdSince := if c.live.any fun i => s.shed c.ctxs[i] then some (c.holdSince.getD s.refCount) else none
    divider := if c.transfer.isSome then 1 else c.dividerKept
    parkedSince := none
    forcedPark := false
    transfer := c.transfer.map fun x => match x.halted with
      | some h => { x with start := s.dieCycle - h, halted := none }
      | none => x }
  let t := t.rejoin k
  if c.parkedSince.isSome && t.allParked k then
    t.setCore k { t.core k with parkedSince := c.parkedSince, forcedPark := c.forcedPark }
  else t.settlePark k false

/-- Whether a core may go on: halted, and neither a request nor a forced shed of a class that is still shed holds it (18 R376). -/
def State.mayResume (s : State) (k : CoreId) : Bool :=
  let c := s.core k
  c.status == .halted && !c.requested && !(c.forcedPark && c.live.any fun i => s.shed c.ctxs[i])

/-- Let a core go on, with every member of its transfer phase in the same cycle, once none of them is held back. -/
def State.resumeGang (s : State) (k : CoreId) : State :=
  let g := s.gang k
  if g.all s.mayResume then g.foldl State.resumeCore s else s

/-- The restore of a saved core: the image is checked first; a bad one leaves the core saved, a notice says so, and power control does
not try it again (R345). -/
def State.restoreSaved (s : State) (p : Nat) (k : CoreId) : State :=
  let who : CtxId := { core := k, num := 0 }
  let pc := ((s.core k).ctxs[0]).pc.toNat
  if !s.imageGood p k then (s.setCore k { s.core k with parkedSince := none }).notify who 2 0 pc
  else
    let t := (s.restoreCore p k).setTransit k false
    let t := t.setCore k { t.core k with status := .halted, saveWanted := false }
    (t.enginesFollow (coreHive k)).notify who 4 0 pc

/-- Withdraw the request for a core: a saved or switched-off core is restored, and it goes on (R341, R345). -/
def State.withdraw (s : State) (p : Nat) (k : CoreId) : State :=
  let c := s.core k
  let s := s.setCore k { c with requested := false, saveWanted := false }
  if c.status = .saved || c.status = .off then s.restoreSaved p k else s

/-! ## Moves (R346) -/

/-- The place of a core after a move. -/
def movedTo (k k' : CoreId) (c : CoreId) : CoreId := if c = k then k' else c

/-- The context after a move of its core. -/
def movedCtx (k k' : CoreId) (c : CtxId) : CtxId := { c with core := movedTo k k' c.core }

/-- A group id after a move of a member's core. -/
def GroupId.move (k k' : CoreId) (g : GroupId) : GroupId :=
  { g with
    members := g.members.map fun m => (movedCtx k k' m.1, m.2)
    parts := g.parts.map fun p => { p with ctx := movedCtx k k' p.ctx }
    frees := g.frees.map (movedCtx k k') }

/-- Whether every copy command of a core's contexts has completed, and no tile load is under way (R346). -/
def State.copiesDone (s : State) (k : CoreId) : Bool :=
  let c := s.core k
  (ctxNums.all fun i => (s.copyQueue { core := k, num := i }).isEmpty && (c.ctxs[i]).copyTl.value == (c.ctxs[i]).copyTl.last) &&
    c.wins.toList.all fun w => w.load.isNone

/-- The sixteen slot numbers. -/
def slotNums : List (Fin 16) := [0, 1, 2, 3, 4, 5, 6, 7, 8, 9, 10, 11, 12, 13, 14, 15]

/-- Whether a slot the contexts of a core own is owned on another engine (R346). -/
def State.slotsClash (s : State) (k k' : CoreId) : Bool :=
  coreHive k != coreHive k' &&
    slotNums.any fun n => ((s.slot (coreHive k) n).owner.any fun c => c.core == k) && (s.slot (coreHive k') n).owner.isSome

/-- Move the engine state of a core's contexts (R346, R347). -/
def State.moveEngine (s : State) (k k' : CoreId) : State :=
  let h := coreHive k
  let h' := coreHive k'
  let mine (c : CtxId) : Bool := c.core == k
  let a := s.hive h
  let mats := (a.mats.filter fun e => mine e.1).map fun e => (movedCtx k k' e.1, e.2)
  let own (x : Slot) : Bool := x.owner.any mine
  let s := s.setHive h { a with
    mats := a.mats.filter fun e => !mine e.1
    copies := a.copies.filter fun e => !mine e.1
    slots := a.slots.map fun x => if own x then Slot.reset else x }
  let b := s.hive h'
  s.setHive h' { b with
    mats := mats ++ b.mats
    slots := Vector.ofFn fun n =>
      if own a.slots[n] then { a.slots[n] with owner := a.slots[n].owner.map (movedCtx k k') } else b.slots[n] }

/-- A window record on another core: DST at the new coordinate, the offset the same (R346). -/
def Window.move (k' : CoreId) (x : Window) : Window :=
  let r := x.record
  { x with record := recWith r (recSrc r) (BitVec.ofNat 64 (localAddr k' (bits (recDst r).toNat 18 0))) }

/-- A ring after a move of a context that holds tickets. -/
def Ring.move (k k' : CoreId) (r : Ring) : Ring :=
  let go (l : Assoc Nat CtxId) : Assoc Nat CtxId := l.map fun e => (e.1, movedCtx k k' e.2)
  { r with reserved := go r.reserved, taken := go r.taken }

/-- A launch after a move of a core: its groups and rings name the contexts at their new place. -/
def Launch.move (k k' : CoreId) (l : Launch) : Launch :=
  { l with
    groups := l.groups.map fun (e : Nat × GroupId) => (e.1, e.2.move k k')
    rings := l.rings.map fun (e : Nat × Ring) => (e.1, e.2.move k k') }

/-- A partition after a move of a core: its shootdown requests name the requesters at their new place. -/
def Partition.move (k k' : CoreId) (q : Partition) : Partition :=
  { q with requests := q.requests.map fun r => { r with by_ := movedCtx k k' r.by_ } }

/-- Spill entries to a core's overflow ring, oldest first: how many it took; one whose store cannot be made stays (13 R296, R291). -/
def State.spillEntries (s : State) (p : Nat) (c : Core) : List (BitVec 256) → Nat → State × Nat
  | [], n => (s, n)
  | e :: es, n =>
    let va := (c.ovfAddr (c.ovfTop + n)).toNat
    if !c.spills || decide (c.ovfCap ≤ c.ovfTop + n) then (s, n)
    else match s.rimAddr p .store va with
      | .ok a => ((s.put a 32 e.toNat).uncache a 32).spillEntries p c es (n + 1)
      | .error _ => (s, n)

/-- Spill a deque to its overflow ring as far as the ring allows: what stays stays in the deque. -/
def State.spillDeque (s : State) (p : Nat) (k : CoreId) : State :=
  let c := s.core k
  let r := s.spillEntries p c c.deque 0
  r.1.setCore k { r.1.core k with deque := c.deque.drop r.2, ovfTop := c.ovfTop + r.2 }

/-- The new core after a move: what the old one held, at its new place; `deque` moves with a fenced core's image. -/
def Core.moved (k k' : CoreId) (old new : Core) : Core :=
  { new with
    status := .halted
    job := old.job
    ctxs := old.ctxs
    cycles := max new.cycles old.cycles
    dividerKept := old.dividerKept
    divider := 1
    hbTimer := old.hbTimer
    hbMissed := old.hbMissed
    hbint := old.hbint
    ovfring := old.ovfring
    ovfTop := old.ovfTop
    deque := old.deque
    steal := old.steal
    wins := old.wins.map fun w => { (if w.state = 0 then w else w.move k') with fault := w.fault.map fun f => (movedCtx k k' f.1, f.2) }
    sendBuf := new.sendBuf ++ old.sendBuf.map fun m => { m with sender := movedCtx k k' m.sender }
    bgs := old.bgs
    transfer := old.transfer
    parkedSince := old.parkedSince
    forcedPark := old.forcedPark }

/-- Carry a saved core over to another: image, local memory, engine state, ranks, groups and packets on their way; the old
core's local memory is cleared (R346, 13 R302). -/
def State.moveCore (s : State) (p : Nat) (k k' : CoreId) : State :=
  let t := s.restoreCore p k
  let old := t.core k
  let t := if k.big then t else (t.copyBytes (localAddr k 0) (localAddr k' 0) (2 ^ 19)).clear (localAddr k 0) (2 ^ 19)
  let t := (ctxsOf k).foldl State.endWeak (t.moveEngine k k')
  let t := t.setCore k' (old.moved k k' (t.core k'))
  let t := (t.setCore k { old.release with job := old.job, sendBuf := [] }).enginesFollow (coreHive k)
  let t := { t with
    parts := t.parts.map fun (e : Nat × Partition) => (e.1, e.2.move k k')
    spawns := t.spawns.map fun q => { q with dest := movedTo k k' q.dest, by_ := movedCtx k k' q.by_ }
    badRegs := t.badRegs.map fun b => (movedCtx k k' b.1, b.2)
    fence := { t.fence with waiting := t.fence.waiting.map fun w => { w with ctx := movedCtx k k' w.ctx } } }
  match old.job with
  | none => t
  | some j =>
    let t := t.mapStage j.launch j.stage fun x => { x with running := x.running.map (movedTo k k') }
    let t := t.mapRanks j.launch (fun e => e.ctx.core == k) fun e => { e with ctx := movedCtx k k' e.ctx, transit := false }
    match t.launch? j.launch with
    | none => t
    | some l => t.setLaunch j.launch (l.move k k')

/-- The restore at the end of a move. -/
def State.finishMove (s : State) (k' : CoreId) : State :=
  (s.notify { core := k', num := 0 } 4 0 ((s.core k').ctxs[0]).pc.toNat).resumeGang k'

/-- Whether a core can take a moved image: the same launch and kind, running nothing. -/
def State.canTake (s : State) (k k' : CoreId) : Bool :=
  let a := s.core k
  let b := s.core k'
  k != k' && k.big == k'.big && b.status == .idle && b.live.isEmpty && s.owner k == s.owner k' &&
    (a.job.map (·.launch)) == (b.job.map (·.launch))

/-- Whether a core's contexts are in its image alone: it is saved, and may be off. -/
def Core.away (k : Core) : Bool := k.status == .saved || k.status == .off

/-- CONTEXT_MOVE (R346): a saved core's image goes on at another core of its partition and launch. It waits for copies and
for the deque to be spilled; a slot owned on the target engine refuses it with a notice. -/
def execContextMove (k k' : CoreId) (s : State) : Host.Outcome State Fault Refusal :=
  match s.owner k with
  | none => .next s
  | some p =>
    if !(s.core k).away || !s.canTake k k' || !s.copiesDone k then .next s
    else if s.slotsClash k k' then .next (s.notify { core := k, num := 0 } 8 0 ((s.core k).ctxs[0]).pc.toNat)
    else if !s.imageGood p k then .next (s.notify { core := k, num := 0 } 2 0 ((s.core k).ctxs[0]).pc.toNat)
    else
      let t := s.spillDeque p k
      if !(t.core k).deque.isEmpty then .next t else .next ((t.moveCore p k k').finishMove k')

/-! ## Shootdown (R353, R354) -/

/-- Whether a range of addresses meets a request's. -/
def Shootdown.meets (r : Shootdown) (a n : Nat) : Bool := r.all || rangesMeet a n r.va (16384 * r.npg)

/-- Whether translations kept by page meet a request. -/
def Shootdown.meetsPages (r : Shootdown) (ps : List (Nat × Nat)) : Bool := ps.any fun p => r.meets (p.1 * 16384) 16384

/-- Whether something accepted or shipped still uses a translation of a request (R354). -/
def State.usesRange (s : State) (p : Nat) (r : Shootdown) : Bool :=
  (s.hives.any fun e => e.2.owner == some p &&
    ((e.2.mats.any fun m => m.2.queue.any fun c => r.meetsPages c.pages) ||
      (e.2.copies.any fun q => q.2.any fun c => r.meetsPages c.pages) ||
      (e.2.arriving ++ e.2.queue).any fun q =>
        match q.work with
        | .atomic j => bits j.va.toNat 63 60 == 0 && r.meets j.va.toNat j.size
        | .float _ => false)) ||
  (s.cores.any fun e => s.owner e.1 == some p && e.2.wins.toList.any fun w => w.load.any fun l => r.meetsPages l.pages) ||
  (s.launches.any fun e => e.2.part == p && e.2.groups.any fun g => g.2.parts.any fun q => r.meetsPages q.pages)

/-- Whether a pointer entry serves addresses of a request. -/
def Shootdown.meetsPtr (r : Shootdown) (e : PtrEntry) : Bool :=
  match walkLevels.find? fun l => l.1 == e.level with
  | some l => r.meets (e.pre * 2 ^ l.2.1) (2 ^ l.2.1)
  | none => true

/-- A context without the speculative-load entries of a request's range (R354). -/
def Context.shoot (r : Shootdown) (m : Context) : Context :=
  { m with spec := m.spec.map fun e => if r.meets e.va e.size then { e with valid := false } else e }

/-- Remove every translation of a request from a partition's TLBs and pointer caches (R354). -/
def State.shoot (s : State) (p : Nat) (r : Shootdown) : State :=
  let keep (e : TlbEntry) : Bool := !r.meets e.page (2 ^ e.log)
  { s with
    cores := s.cores.map fun (e : CoreId × Core) =>
      if s.owner e.1 = some p then
        (e.1, { e.2 with tlb := e.2.tlb.filter keep, ctxs := e.2.ctxs.map (Context.shoot r) })
      else e
    hives := s.hives.map fun (e : HiveId × Hive) =>
      if e.2.owner = some p then
        (e.1, { e.2 with tlb := e.2.tlb.filter keep, ptrs := e.2.ptrs.filter fun q => !r.meetsPtr q })
      else e }

/-- SHOOTDOWN_COMPLETE (R353, R354): the oldest request of a partition completes once nothing uses its range; a bad one
completes without effect, with a notice. -/
def execShootdownComplete (part : Nat) (s : State) : Host.Outcome State Fault Refusal :=
  let q := s.part part
  match q.requests with
  | [] => .next s
  | r :: rest =>
    let t := s.setPart part { q with requests := rest, donen := q.donen + 1 }
    if r.bad then .next (t.postNotice part (t.noticeEntry 7 0 (coreIdBits r.by_) (t.lidOf r.by_.core) r.va))
    else if s.usesRange part r then .next s
    else .next (t.shoot part r)

/-- The contexts of a partition that wait in an STP. -/
def State.portWriters (s : State) (p : Nat) : List CtxId :=
  (s.cores.filter fun e => s.owner e.1 == some p).flatMap fun e =>
    (e.2.live.filter fun i => match (e.2.ctxs[i]).blocked with
      | some b => (match b.instr with | .stp _ => true | _ => false)
      | none => false).map fun i => { core := e.1, num := i }

/-- SHOOTDOWN_REQUEST (R353): the port takes the write of the first writer that waits for room. -/
def execShootdownRequest (part : Nat) (s : State) : Host.Outcome State Fault Refusal :=
  match s.portWriters part with
  | [] => .next s
  | c :: _ => retry c (fun i => match i with | .stp x => some (execStp x) | _ => none) s

/-! ## Heartbeat fencing (20 R391) -/

/-- Fault messages of a fenced core: every barrier bound in it breaks at each member, and a mesh neighbour's open transfer
phase ends with reason 13. -/
def State.faultMessages (s : State) (k : CoreId) : State :=
  let c := s.core k
  let s := [(0 : Fin 4), 1, 2, 3].foldl (fun (t : State) n =>
    let b := c.bgs[n]
    if b.state = 0 then t
    else ((rectCores k.die b.rect).filter fun m => m != k).foldl (fun (t : State) m => t.breakBar m n) t) s
  match c.transfer with
  | none => s
  | some x =>
    (dirs.filterMap fun d => neighbour x.rect k d).foldl (fun (t : State) m =>
      let y := t.core m
      t.setCore m { y with transfer := y.transfer.map fun z => { z with violated := true } }) s

/-- A core is fenced (steps 1 to 4): it halts without a save, its wires go dead, its ranks are in transit, members and
neighbours are told, and so are the supervising context and the host. Its barrier registers and transfer state stay as they are,
for its image. -/
def State.fenceCore (s : State) (k : CoreId) : State :=
  let c := s.core k
  let who : CtxId := { core := k, num := 0 }
  if c.status = .fenced then s
  else
    let t := s.faultMessages k
    let c := t.core k
    let stop (x : Transfer) : Transfer := { x with halted := some (x.halted.getD (x.count s.dieCycle + 1)) }
    let t := t.setCore k { c with
      status := .fenced, transfer := c.transfer.map stop, dividerKept := c.ownDivider, requested := false, hbMissed := false }
    let t := t.setTransit k true
    (t.notify who 6 0 (c.ctxs[0]).pc.toNat).postEvent 5 0

/-- The partition's policy for a fenced core (step 5): a pool stage under FPOL 1 waits to be re-homed; anything else aborts
the launch. -/
def State.fencePolicy (s : State) (k : CoreId) : State :=
  match (s.core k).job, s.owner k with
  | some j, some p =>
    let pool := (s.launch? j.launch).any fun l => l.pool j.stage
    if pool && (s.part p).fpol then
      let c := s.core k
      s.setCore k { c with fencing := true, saveWanted := true, holdSince := some s.refCount }
    else s.abortLaunch j.launch
  | _, _ => s

/-- HEARTBEAT_MISS: the timer has reached HBINT, which stands whatever a BEAT does later; a big core's fence fences its hive. -/
def execHeartbeatMiss (k : CoreId) (s : State) : Host.Outcome State Fault Refusal :=
  let c := s.core k
  if c.hbMissed && (c.status == .running || c.status == .halting || c.status == .halted) then
    let ks := if k.big then hiveCores (coreHive k) else [k]
    .next (ks.foldl State.fencePolicy (ks.foldl State.fenceCore s))
  else .next s

/-- FENCE_QUIESCENCE_TIMEOUT: a fenced core that is not quiescent within 1,000,000 ticks aborts its launch. -/
def execFenceQuiescenceTimeout (k : CoreId) (s : State) : Host.Outcome State Fault Refusal :=
  let c := s.core k
  match c.job, c.holdSince with
  | some j, some t =>
    if c.fencing && c.saveWanted && !s.quiescent k && decide (t + 1000000 ≤ s.refCount) then .next (s.abortLaunch j.launch) else .next s
  | _, _ => .next s

/-- Groups that join with a core for a fenced image, of the whole unit the stage asks for. -/
def State.rescueUnit (s : State) (p : Nat) (l : Launch) (st : Nat) (k' : CoreId) : Option (List Group) :=
  (wholeUnits k'.big (topLevel l.packet st) (s.freeGroups p k'.big)).find? fun u => u.contains (groupOf k')

/-- The maintenance path writes the image of a fenced core that is quiescent, once (R391 step 5). -/
def State.fenceImage (s : State) (p : Nat) (k : CoreId) : State :=
  let c := s.core k
  if c.fencing && c.saveWanted && s.quiescent k then
    let t := ((s.logRegisters k).writeImage p k).writeEngine p k
    t.setCore k { t.core k with saveWanted := false }
  else s

/-- A fenced core's image goes on at core k' of a free group: the group joins the stage, and the image, with the deque, is its
state. -/
def State.rehome (s : State) (p : Nat) (j : Job) (gs : List Group) (k k' : CoreId) : State :=
  let t := ((s.joinStage j.launch j.stage gs).endRanks j.launch (coresOf gs)).endContexts k'
  let t := t.mapStage j.launch j.stage fun x => { x with running := x.running.filter fun m => m != k' }
  let t := t.moveCore p k k'
  let t := t.setCore k { t.core k with status := .fenced, fencing := false }
  t.finishMove k'

/-- FENCE_REHOME: the image of a fenced core of a pool stage, written over the maintenance path, goes to a core of a free group of
its kind; until there is one it stays saved, as does one whose image is bad (17 R345). -/
def execFenceRehome (k k' : CoreId) (s : State) : Host.Outcome State Fault Refusal :=
  match (s.core k).job, s.owner k with
  | some j, some p =>
    let t := s.fenceImage p k
    let c := t.core k
    match t.launch? j.launch with
    | none => .next s
    | some l =>
      if !c.fencing || c.saveWanted || !t.copiesDone k || k.big != k'.big || t.slotsClash k k' then .next t
      else if !t.imageGood p k then .next (t.notify { core := k, num := 0 } 2 0 ((t.core k).ctxs[0]).pc.toNat)
      else match t.rescueUnit p l j.stage k' with
        | none => .next t
        | some gs => .next (t.rehome p j gs k k')
  | _, _ => .next s

end Sys2Proof.Machine
end

