-- ==== Sys2Proof/Machine/Power.lean ====
section
/-! DEFINITION. Power: telemetry frames, the droop curve, the active count, shedding and restoring of lamp classes, dividers,
segment voltage and the droop detector (18 R363 to R379). -/

namespace Sys2Proof.Machine

/-! ## The active count (R363, R368) -/

/-- Whether some partition replays a record: frames are then ignored (R376). -/
def State.replaying (s : State) : Bool := s.parts.any fun e => e.2.live && e.2.rmode == 2

/-- Record an event of the module in every recording partition. -/
def State.recordAll (s : State) (type payload aux : Nat) : State :=
  s.parts.foldl (fun (t : State) (e : Nat × Partition) => t.record e.1 type 0 0 payload aux) s

/-- Whether a core holds contexts that run, or have been halted. -/
def Core.holding (k : Core) : Bool := k.status == .running || k.status == .halting || k.status == .halted

/-- The class hold is set at a core: contexts at release points park, the forced-shed timer starts (R370, R371). -/
def State.holdCore (s : State) (k : CoreId) : State :=
  let c := s.core k
  if c.holding && c.parkedSince.isNone && c.live.any fun i => s.shed c.ctxs[i] then
    let park (m : Context) : Context :=
      if m.live && s.shed m && m.atRelease && c.transfer.isNone then m.park s.now false else m
    (s.setCore k { c with ctxs := c.ctxs.map park, holdSince := some (c.holdSince.getD s.refCount) }).settlePark k false
  else s

/-- A restored class's context is released, and runs its TASKGET or RGTAKE again (R374). -/
def State.freeCtx (s : State) (m : Context) : Context :=
  if m.parked && !s.shed m then
    let m := m.unpark s.now
    if m.atRelease && (match m.blocked with | some b => b.phase != 1 | none => true) then { m with blocked := none } else m
  else m

/-- A class is restored at a core that is neither saved nor off: its contexts are released; halted by a forced shed, it goes on, and
a forced shed that has not halted it yet is withdrawn (R374). -/
def State.freeCore (s : State) (k : CoreId) : State :=
  let c := s.core k
  let ctxs := c.ctxs.map s.freeCtx
  if !c.holding || ctxs.toList.any fun m => m.live && s.shed m then s
  else if c.status = .halted then
    let t := s.setCore k { c with ctxs := ctxs, holdSince := none }
    if c.forcedPark then t.resumeGang k else t
  else
    let back := c.status == .halting && c.forcedPark && !c.requested
    s.setCore k { c with
      ctxs := ctxs, holdSince := none, parkedSince := none, forcedPark := false
      status := if back then .running else c.status
      divider := if back && c.transfer.isNone then c.dividerKept else c.divider }

/-- A changes: recorded, and the class holds follow; restored cores go on, then withheld releases (R368, R370, R374, 12 R277). -/
def State.setActive (s : State) (a : Nat) : State :=
  let old := s.power.active
  if a = old then s
  else
    let t := ({ s with power := { s.power with active := a, changed := s.refCount } }).recordAll 11 a 0
    let ks := t.cores.map (·.1)
    if a < old then (ks.foldl State.holdCore t).withholdAll else (ks.foldl State.freeCore t).sweepAll

/-- A falls to a lower target at once (R368). -/
def State.followTarget (s : State) : State := if s.power.target < s.power.active then s.setActive s.power.target else s

/-! ## Frames (R364 to R367) -/

/-- Byte i of a payload. -/
def frameByte (p : BitVec 320) (i : Nat) : Nat := bits p.toNat (8 * i + 7) (8 * i)

/-- A field of 4 bytes in network byte order. -/
def frameWord (p : BitVec 320) (i : Nat) : Nat :=
  frameByte p i * 2 ^ 24 + frameByte p (i + 1) * 2 ^ 16 + frameByte p (i + 2) * 2 ^ 8 + frameByte p (i + 3)

/-- Whether a frame's SEQ follows the last valid one (R365). -/
def seqFollows (last : Option (BitVec 32)) (seq : Nat) : Bool :=
  match last with
  | none => true
  | some q =>
    let d := (seq + 2 ^ 32 - q.toNat) % 2 ^ 32
    decide (1 ≤ d) && decide (d ≤ 2 ^ 31 - 1)

/-- Whether a frame is valid (R365); without a shelf key no tag matches. -/
def Power.frameValid (w : Power) (p : BitVec 320) : Bool :=
  frameByte p 0 == 1 && frameByte p 1 == 1 && bits p.toNat 31 16 == 0 && bits p.toNat 191 128 == 0 &&
    (match w.shelfKey with
     | some key => p.extractLsb' 192 128 == hmacTag key (p.extractLsb' 0 192)
     | none => false) && seqFollows w.seq (frameWord p 4)

/-- One point of the curve: whether it is tripped after a frame (R367). -/
def curveTrips (c : Word) (was : Bool) (hysf hysv : Nat) (dev : Int) (v : Nat) : Bool :=
  let dthr := signed (bits c.toNat 47 32) 16
  let vthr := bits c.toNat 31 0
  let fd := bits c.toNat 47 32 != 0x8000
  let vd := vthr != 0
  c.getLsbD 63 &&
    ((fd && decide (dev ≤ dthr)) || (vd && decide (v ≤ vthr)) ||
      (was && ((fd && decide (dev ≤ dthr + hysf)) || (vd && decide (v ≤ vthr + hysv)))))

/-- The tripped bits after a frame with frequency f and voltage v (R367). -/
def Power.evaluate (w : Power) (f v : Nat) : BitVec 8 :=
  let dev : Int := (f : Int) - bits w.cfg.toNat 31 0
  BitVec.ofNat 8 (((List.range 8).filter fun i =>
    curveTrips (w.curve.toList.getD i 0) (w.tripped.getLsbD i) (bits w.cfg.toNat 58 49) (bits w.cfg.toNat 48 39) dev v).foldl
      (fun n i => n + 2 ^ i) 0)

/-- TGT of tripped bits (R367). -/
def Power.targetOf (w : Power) (t : BitVec 8) : Nat :=
  ((List.range 8).filter fun i => t.getLsbD i).foldl (fun m i => min m (bits (w.curve.toList.getD i 0).toNat 62 60 + 1)) 8

/-- PWRCFG.EN. -/
def Power.enabled (w : Power) : Bool := w.cfg.getLsbD 63

/-- Active count in loss mode. -/
def Power.safe (w : Power) : Nat := bits w.cfg.toNat 61 59 + 1

/-- A segment's state. -/
def State.segment (s : State) (g : SegId) : Segment := lookup Segment.reset (g.row, g.seg) (s.die g.die).segments

/-- Replace a segment. -/
def State.setSegment (s : State) (g : SegId) (x : Segment) : State :=
  let d := s.die g.die
  s.setDie g.die { d with segments := store (g.row, g.seg) x d.segments }

/-- What was last written of the settings of power control, in force yet or not (R366). -/
def Power.written (w : Power) : PowerSet :=
  w.next.getD { cfg := w.cfg, time := w.time, dvcfg := w.dvcfg, curve := w.curve, ddctl := [] }

/-- DDCTL as PWR_SET leaves it: TRIPS is read only, the reserved bits stay 0 (18 Table 18.10). -/
def ddctlWrite (old v : Word) : Word :=
  BitVec.ofNat 64 (bits v.toNat 63 63 * 2 ^ 63 + bits old.toNat 47 32 * 2 ^ 32 + bits v.toNat 23 12 * 2 ^ 12 + bits v.toNat 7 0)

/-- What PWR_SET and CURVE_SET have written comes in force (R366, 21 R399). -/
def State.settlePower (s : State) : State :=
  match s.power.next with
  | none => s
  | some q =>
    q.ddctl.foldl (fun (t : State) e =>
      let x := t.segment e.1
      t.setSegment e.1 { x with ddctl := ddctlWrite x.ddctl e.2 })
      { s with power := { s.power with cfg := q.cfg, time := q.time, dvcfg := q.dvcfg, curve := q.curve, next := none } }

/-- With EN = 0, A is 8 (Table 18.3; log 89). -/
def State.allActive (s : State) : State := ({ s with power := { s.power with target := 8 } }).setActive 8

/-- The effect of a valid frame, which is an evaluation (R365 to R368); with EN = 0 frames are only counted, and A is 8. -/
def State.validFrame (s : State) (p : BitVec 320) : State :=
  let s := s.settlePower
  let w := s.power
  let f := frameWord p 8
  let v := frameWord p 12
  let seq := frameWord p 4
  let t := if w.enabled then w.evaluate f v else w.tripped
  let w := { w with
    frames := w.frames + 1, seq := some (BitVec.ofNat 32 seq), lastValid := s.refCount, loss := false, freq := f, vbus := v,
    tripped := t, target := if w.enabled then w.targetOf t else 8 }
  let u := ({ s with power := w }).recordAll 10 (f + v * 2 ^ 32) seq
  if w.enabled then u.followTarget else u.allActive

/-- TELEMETRY_FRAME (R364 to R368): the port takes only frames addressed to the module with EtherType 0x88B5; an invalid one is
counted and dropped; replay ignores frames (R376). -/
def execTelemetryFrame (f : EthFrame) (s : State) : Host.Outcome State Fault Refusal :=
  if f.dest ≠ Config.macAddress ∨ f.etherType ≠ 0x88B5 ∨ s.replaying then .next s
  else if s.power.frameValid f.payload then .next (s.validFrame f.payload)
  else .next { s with power := { s.power with frames := s.power.frames + 1, invalid := s.power.invalid + 1 } }

/-- TELEMETRY_LOSS (R365, R369): LOSS ticks have passed without a valid frame. -/
def execTelemetryLoss (s : State) : Host.Outcome State Fault Refusal :=
  let w := s.power
  if w.loss || s.replaying || decide (s.refCount < w.lastValid + bits w.time.toNat 63 32) then .next s
  else
    let target := if w.enabled then min w.target w.safe else w.target
    .next ({ s with power := { w with loss := true, target := target } }).followTarget

/-- ACTIVE_COUNT_RISE (R368): A rises by one class when the target lies above it and 2,000,000 ticks have passed since it
last changed. -/
def execActiveCountRise (s : State) : Host.Outcome State Fault Refusal :=
  let w := s.power
  if w.active < w.target ∧ w.changed + 2000000 ≤ s.refCount ∧ !s.replaying then .next (s.setActive (w.active + 1)) else .next s

/-! ## Forced sheds, switching off and on (R371, R373, R374) -/

/-- Whether every guest entry and result of a core's hive is gone (06 R161). -/
def State.guestsGone (s : State) (h : HiveId) : Bool :=
  let q := s.hive h
  q.arriving.isEmpty && q.queue.isEmpty && q.results.isEmpty

/-- A halted core of a shed class counts as parked, its contexts at their instructions (R371). -/
def State.parkHalted (s : State) (k : CoreId) : State :=
  let c := s.core k
  let t := s.setCore k { c with ctxs := c.ctxs.map (Context.park · s.now true), parkedSince := some s.refCount, forcedPark := true }
  t.groupParked (groupOf k) 11

/-- A core of a group is pre-empted by a forced shed; one that is halted already counts as parked from now on. -/
def State.forceCore (s : State) (k : CoreId) : State :=
  let c := s.core k
  if c.live.isEmpty || c.parkedSince.isSome then s
  else if c.status = .halted then s.parkHalted k
  else
    let t := s.reach k
    let c := t.core k
    if c.status = .halting then t.setCore k { c with forcedPark := true } else t

/-- FORCED_SHED (R371): a core whose class hold is FSB ticks old and that is not parked; its whole group is pre-empted. -/
def execForcedShed (k : CoreId) (s : State) : Host.Outcome State Fault Refusal :=
  let c := s.core k
  match c.holdSince with
  | none => .next s
  | some t =>
    if c.holding && c.parkedSince.isNone && (c.live.any fun i => s.shed c.ctxs[i]) &&
        decide (t + bits s.power.time.toNat 31 0 ≤ s.refCount) then
      .next ((groupOf k).cores.foldl State.forceCore s)
    else .next s

/-- SAVED in the throttle records of a core's live contexts (Table 18.7). -/
def Core.markSaved (k : Core) : Core :=
  { k with ctxs := k.ctxs.map fun m => if m.live then { m with throttle := m.throttle ||| 64 } else m }

/-- Whether a core may be switched off: a big core once its guests are gone (R373, 06 R161). -/
def State.mayGoOff (s : State) (k : CoreId) : Bool := !k.big || s.guestsGone (coreHive k)

/-- A saved core is switched off, once its deque has been spilled and its guests are gone (R373). -/
def State.switchOff (s : State) (p : Nat) (k : CoreId) : State :=
  if !s.mayGoOff k then s
  else
    let u := s.spillDeque p k
    if !(u.core k).deque.isEmpty then u
    else (u.setCore k { u.core k with status := .off }).enginesFollow (coreHive k)

/-- PARKED_SWITCH_OFF (R373): a core parked for 2,000,000 ticks is saved once it is quiescent, then switched off. -/
def execParkedSwitchOff (k : CoreId) (s : State) : Host.Outcome State Fault Refusal :=
  let c := s.core k
  match c.parkedSince, s.owner k with
  | some t, some p =>
    if s.refCount < t + 2000000 then .next s
    else if c.status = .saved then .next (s.switchOff p k)
    else if (c.status = .running || c.status = .halted) && s.quiescent k then
      .next (((s.setCore k c.markSaved).saveCore p k).switchOff p k)
    else .next s
  | _, _ => .next s

/-- Whether a core waits to be switched on: saved by power control, its class restored (R374). -/
def State.waitsOn (s : State) (k : CoreId) (c : Core) : Bool :=
  (c.status == .off || c.status == .saved) && c.parkedSince.isSome && !c.requested &&
    (c.live.all fun i => !s.shed c.ctxs[i]) && (s.owner k).isSome

/-- CORE_SWITCH_ON (R374, 17 R345): the lantern restores a saved core of a restored class, at most 96 cores of its die in
1,000 ticks, in placement order. -/
def execCoreSwitchOn (k : CoreId) (s : State) : Host.Outcome State Fault Refusal :=
  let d := s.die k.die
  let recent := d.switchOns.filter fun t => decide (s.refCount < t + 1000)
  let earlier := s.cores.any fun e => e.1.die == k.die && decide (placeKey e.1 < placeKey k) && s.waitsOn e.1 e.2
  match s.owner k with
  | none => .next s
  | some p =>
    if !s.waitsOn k (s.core k) || decide (96 ≤ recent.length) || earlier then .next s
    else
      let t := s.setDie k.die { d with switchOns := s.refCount :: recent }
      let t := t.restoreSaved p k
      if (t.core k).status = .halted then .next ((t.resumeGang k).sweepAll) else .next t

/-! ## Dividers and segments (R377, R378) -/

/-- A core's sensitivity over a window. -/
def Core.sensitivity (k : Core) : Nat :=
  let n := k.sensB + k.sensK + k.sensM
  if n = 0 then 0 else 256 * (k.sensB + k.sensK) / n

/-- The divider a core asks for at the end of a window. -/
def Power.nextDivider (w : Power) (k : Core) : Nat :=
  if !w.cfg.getLsbD 62 then 1
  else if k.sensitivity < bits w.dvcfg.toNat 15 8 ∧ k.divider < bits w.dvcfg.toNat 2 0 + 1 then k.divider + 1
  else if bits w.dvcfg.toNat 23 16 ≤ k.sensitivity ∧ 1 < k.divider then k.divider - 1
  else k.divider

/-- DIVIDER_WINDOW_END (R377): a rise takes effect at once, a fall once the segment has its voltage; windows pause in a
transfer phase and after a pre-emption request. -/
def execDividerWindowEnd (k : CoreId) (s : State) : Host.Outcome State Fault Refusal :=
  let c := s.core k
  if k.big || c.status != .running || c.transfer.isSome || decide (c.windowTicks < 16000) then .next s
  else
    let n := s.power.nextDivider c
    let c := { c with sensB := 0, sensK := 0, sensM := 0, windowTicks := 0 }
    .next (s.setCore k (if n < c.divider then { c with dividerNext := some n } else { c with divider := n, dividerNext := none }))

/-- The cores of a segment (R378). -/
def segCores (g : SegId) : List CoreId :=
  (List.range 16).map fun j => { big := false, die := g.die, row := g.row, col := 16 * g.seg + j }

/-- The segment of a little core. -/
def segOf (k : CoreId) : SegId := { die := k.die, row := k.row, seg := k.col / 16 }

/-- Whether a core is powered: it runs, or holds state on its way to a save. -/
def Core.powered (k : Core) : Bool := k.status != .idle && k.status != .off

/-- Level in hundredths of a volt for the smallest divider (Table 18.9). -/
def levelOf (n : Nat) : Nat := if n ≤ 1 then 75 else if n = 2 then 62 else if n = 3 then 58 else 55

/-- The divider a core's segment is to have the level for: the one it runs at, or a smaller one that it waits for. -/
def Core.levelDivider (k : Core) : Nat := min (k.dividerNext.getD k.divider) k.divider

/-- The level a segment is to have: that of the smallest divider of its powered cores, or retention (R378). -/
def State.segTarget (s : State) (g : SegId) : Nat :=
  ((segCores g).filter fun k => (s.core k).powered).foldl (fun m k => max m (levelOf (s.core k).levelDivider)) 45

/-- A core's new divider takes effect; held at 1 in a transfer phase or after a pre-emption request, it has it afterwards (R377). -/
def Core.takeDivider (k : Core) (n : Nat) : Core :=
  if k.status = .running && k.transfer.isNone then { k with divider := n, dividerNext := none }
  else { k with dividerKept := n, dividerNext := none }

/-- SEGMENT_VOLTAGE_REACHED (R377, R378): the segment has its level, and dividers that wait for it fall. -/
def execSegmentVoltageReached (g : SegId) (s : State) : Host.Outcome State Fault Refusal :=
  let v := s.segTarget g
  let t := s.setSegment g { s.segment g with level := v }
  .next ((segCores g).foldl (fun (t : State) k =>
    let c := t.core k
    match c.dividerNext with
    | some n => if levelOf n ≤ v then t.setCore k (c.takeDivider n) else t
    | none => t) t)

/-! ## The droop detector (R379) -/

/-- DROOP_TRIP: lane wakes have tripped the detector, or the sensed supply has fallen, which the environment says; the trip is
counted. No action in a segment with a core in a transfer phase; else every core's next 6 cycles are stretched and the 64 after
them issue at half rate. -/
def execDroopTrip (g : SegId) (s : State) : Host.Outcome State Fault Refusal :=
  let x := s.segment g
  if !x.ddctl.getLsbD 63 then .next s
  else
    let trips := min (bits x.ddctl.toNat 47 32 + 1) 65535
    let t := s.setSegment g
      { x with
        ddctl := BitVec.ofNat 64 (bits x.ddctl.toNat 63 48 * 2 ^ 48 + trips * 2 ^ 32 + bits x.ddctl.toNat 31 0), tripDue := false }
    if (segCores g).any fun k => (t.core k).transfer.isSome then .next t
    else .next ((segCores g).foldl (fun (t : State) k => t.setCore k { t.core k with droop := some (t.core k).cycles }) t)

/-- DROOP_RECOVERY: the 70 cycles after that of a trip have run out. -/
def execDroopRecovery (k : CoreId) (s : State) : Host.Outcome State Fault Refusal :=
  let c := s.core k
  match c.droop with
  | none => .next s
  | some t => if t + 71 ≤ c.cycles then .next (s.setCore k { c with droop := none }) else .next s

end Sys2Proof.Machine
end

