-- ==== Sys2Proof/Machine/Errors.lean ====
section
/-! DEFINITION. Errors, fatal errors and dumps, links, divergence of a replay, and module reset (20 R384 to R390, R394, 21 R402,
R403). -/

namespace Sys2Proof.Machine

/-! ## Dumps (20 R390) -/

/-- n bytes that hold fields, 0 elsewhere. -/
def fieldBytes (n : Nat) (fs : List Field) : List Byte :=
  let m := fs.foldl (fun m f => cellsPut m f.off f.len f.val) []
  (List.range n).map (cellGet m)

/-- A dump record: its 16-byte head, and its body padded to 16 bytes. -/
def dumpRecord (type die : Nat) (body : List Byte) : List Byte :=
  bytesLE 2 type ++ bytesLE 1 die ++ [0] ++ bytesLE 4 body.length ++ bytesLE 8 (crc32c body).toNat ++ body ++
    List.replicate ((16 - body.length % 16) % 16) 0

/-- The header of a dump (Table 20.5). -/
def dumpHeader (scope cause time dies part nrec len : Nat) : List Byte :=
  let h := fieldBytes 252
    [⟨0, 8, 0x31504D5544564C50⟩, ⟨8, 4, 1⟩, ⟨12, 4, scope⟩, ⟨16, 8, cause⟩, ⟨24, 8, time⟩, ⟨32, 8, dies⟩, ⟨40, 8, part⟩,
     ⟨48, 8, nrec⟩, ⟨56, 8, len⟩]
  h ++ bytesLE 4 (crc32c h).toNat

/-- An HREMAP or SREMAP entry as software reads it (Tables 20.2, 20.3). -/
def Remap.word (r : Remap) : Nat := r.valid.toNat * 2 ^ 15 + r.abs.toNat * 2 ^ 14 + r.phys

/-- The remap tables of a die, 576 and 384 entries of 2 bytes. -/
def Die.remapBytes (d : Die) : List Byte :=
  ((List.range 576).flatMap fun i => bytesLE 2 (remapOf d.hremap i).word) ++
    (List.range 384).flatMap fun i => bytesLE 2 (remapOf d.sremap i).word

/-- The error log of a die. -/
def Die.errlogBytes (d : Die) : List Byte := d.errlog.flatMap fun e => bytesLE 16 e.toNat

/-- The power state: A, and as last written PWRCFG, PWRTIME, CURVE0 to CURVE7. -/
def Power.bytes (w : Power) : List Byte :=
  ([w.active, w.written.cfg.toNat, w.written.time.toNat] ++ w.written.curve.toList.map (·.toNat)).flatMap (bytesLE 8)

/-- The image of a core as bytes (17 Table 17.2). -/
def State.coreImageBytes (s : State) (k : CoreId) : List Byte :=
  let b := fieldBytes 49148 (s.coreFields k)
  b ++ bytesLE 4 (crc32c b).toNat

/-- The notice queue of a partition: header and entries (17 R348). -/
def State.noticeBytes (s : State) (p : Nat) : List Byte :=
  let q := s.part p
  s.physBytes p q.nqbase (128 + 32 * 2 ^ q.nql)

/-- The last 4,096 record entries of a partition. -/
def State.recordBytes (s : State) (p : Nat) : List Byte :=
  let q := s.part p
  let n := min q.rhead 4096
  s.physBytes p (q.rbase + 32 * (q.rhead - n)) (32 * n)

/-- Cores of a partition's launches that hold contexts. -/
def State.dumpedCores (s : State) (p : Nat) : List CoreId :=
  (s.cores.filter fun e => s.owner e.1 == some p && e.2.job.isSome && !e.2.live.isEmpty).map (·.1)

/-- The records of a partition dump: its cores, its engines, its notices, its record (log 54). -/
def State.partRecords (s : State) (p : Nat) : List (List Byte) :=
  let ks := s.dumpedCores p
  (ks.map fun k => dumpRecord 3 k.die (s.coreImageBytes k)) ++
    ((ks.map coreHive).eraseDups.map fun h =>
      dumpRecord 4 h.die (fieldBytes (1536 * 1024) ((ks.filter fun k => coreHive k == h).flatMap s.engineFields))) ++
    [dumpRecord 5 0 (s.noticeBytes p), dumpRecord 7 0 (s.recordBytes p)]

/-- The records of a module dump: error logs and repair maps of every die, and the power state (log 54). -/
def State.moduleRecords (s : State) : List (List Byte) :=
  ((List.range 36).map fun d => dumpRecord 1 d (s.die d).errlogBytes) ++
    ((List.range 36).map fun d => dumpRecord 2 d (s.die d).remapBytes) ++ [dumpRecord 6 0 s.power.bytes]

/-- Records as far as they fit in n bytes. -/
def fitRecords (n : Nat) : List (List Byte) → List (List Byte)
  | [] => []
  | r :: rs => if r.length ≤ n then r :: fitRecords (n - r.length) rs else []

/-- The mask of a list of dies. -/
def dieMask (ds : List Nat) : Nat := ds.eraseDups.foldl (fun m d => m + 2 ^ d) 0

/-- A dump from its records. -/
def State.makeDump (s : State) (part : Option Nat) (cause room : Nat) (dies : List Nat) (records : List (List Byte)) : Dump :=
  let rs := fitRecords (room - 256) records
  let body := rs.flatten
  { part := part, cause := cause, time := s.now, dies := BitVec.ofNat 36 (dieMask dies)
    bytes := dumpHeader (if part.isSome then 2 else 1) cause s.now (dieMask dies) (part.getD 255) rs.length (256 + body.length) ++ body }

/-- Keep a dump in place of an older one of its scope, and report it: the header's bytes 16 to 63 (21 Table 21.3). -/
def State.keepDump (s : State) (d : Dump) : State :=
  let t := { s with fw := { s.fw with dumps := (s.fw.dumps.filter fun (e : Dump) => e.part != d.part) ++ [d] } }
  t.postEvent 4 ((List.range 48).foldl (fun n i => n + (d.bytes.getD (16 + i) 0).toNat * 2 ^ (8 * i)) 0)

/-- The bytes of a partition dump go to PDUMP, as far as the partition's ranges hold it. -/
def State.storeDump (s : State) (p : Nat) (d : Dump) : State :=
  let a := (s.part p).pdump
  if s.inRange p a d.bytes.length then s.writeBytes a d.bytes else s

/-- A partition fatal error (R390). -/
def State.partFatal (s : State) (p cause : Nat) (dies : List Nat) : State :=
  let d := s.makeDump (some p) cause (2 ^ 26) dies (s.partRecords p)
  let t := (s.abortPart p).setPart p { (s.abortPart p).part p with outOfUse := true }
  (t.storeDump p d).keepDump d

/-- A module fatal error (R390): every launch stops. DUMPBASE lies in no partition's range, so its bytes are held with the dump. -/
def State.moduleFatal (s : State) (cause : Nat) (dies : List Nat) : State :=
  let d := s.makeDump none cause (2 ^ 28) dies s.moduleRecords
  ((s.launches.map (·.1)).foldl State.abortLaunch s).keepDump d

/-! ## Errors (20 R384, R385, R389) -/

/-- The code of a class in the error log: a clean copy is logged as corrected (Tables 20.1, 20.4). -/
def errCode : ErrClass → Nat
  | .corrected => 0 | .cleanCopy => 0 | .consumed => 2 | .latent => 3 | .orphaned => 4 | .moduleWide => 5

/-- The first address of the 256-byte block that WHERE names: physical, or in a local memory for unit 3, in scratch for unit 0
(log 53). -/
def errBlock (unit pos : Nat) : Nat :=
  (if unit = 3 then 8 * 2 ^ 60 else if unit = 0 then 10 * 2 ^ 60 else 0) + pos % 2 ^ 49 * 256

/-- The logical core that a physical one serves, if it serves one. -/
def State.logicCore (s : State) (k : CoreId) : Option CoreId := (s.logicHive (coreHive k)).map (CoreId.inHive k)

/-- The address by which programs name a byte of a physical local memory or scratch, if a logical hive has it; other addresses as they
are. -/
def State.logicPlace (s : State) (a : Nat) : Option Nat :=
  if bits a 63 60 = 8 then (s.logicCore (localCore a)).map fun k => localAddr k (bits a 18 0)
  else if bits a 63 60 = 10 then
    (s.logicHive { die := bits a 34 29, row := bits a 28 24, col := bits a 23 19 }).map fun h => scratchAddr h (bits a 18 0)
  else some a

/-- The context a register's number in the log names (log 53). -/
def unitCtx (pos : Nat) : CtxId :=
  let c := pos / 256
  let big := bits c 27 27 == 1
  { core := { big := big, die := bits c 26 21, row := bits c 20 14, col := bits c 13 6 }
    num := Fin.ofNat 11 (bits c 5 0) }

/-- The register a number in the log names (log 53). -/
def unitDest (pos : Nat) : Dest :=
  match bits pos 7 5 with
  | 0 => .s (BitVec.ofNat 5 pos)
  | 1 => .v (BitVec.ofNat 5 pos)
  | _ => .p (BitVec.ofNat 3 pos)

/-- A faulty word: a register, an accumulator slot, or 64 bytes of the block that WHERE names; every reader finds it until it
is overwritten (R385). WHERE names physical units (R389): one that serves no logical hive has no reader. -/
def State.markFaulty (s : State) (die unit pos : Nat) : State :=
  if unit = 2 then
    match s.logicCore (unitCtx pos).core with
    | some k => { s with badRegs := ({ unitCtx pos with core := k }, unitDest pos) :: s.badRegs }
    | none => s
  else if unit = 9 then
    let n := Fin.ofNat 16 pos
    match s.logicHive (hiveOf die (pos / 16)) with
    | some h => s.setSlot h n { s.slot h n with bad := true }
    | none => s
  else
    match s.logicPlace (errBlock unit pos) with
    | some b =>
      let a := b + 64 * (Config.choose s.free % 4)
      { s with poisoned := ((List.range 64).map fun i => a + i) ++ s.poisoned, free := s.free + 1 }
    | none => s

/-- A clean copy is invalidated and fetched again from its home (Table 20.1): lines of the block, or a hive's translations. -/
def State.dropClean (s : State) (die unit pos : Nat) : State :=
  if unit = 10 then
    match s.logicHive (hiveOf die pos) with
    | some h =>
      let t := s.setHive h { s.hive h with tlb := [], ptrs := [] }
      (hiveCores h).foldl (fun (t : State) k => t.setCore k { t.core k with tlb := [] }) t
    | none => s
  else if unit = 0 ∨ unit = 1 then
    let clean (e : L1Line) : Bool := e.line / 2 == pos && !e.dirty
    let t := { s with cores := s.cores.map fun (e : CoreId × Core) =>
      if e.1.die = die then
        (e.1, { e.2 with l1 := e.2.l1.filter fun x => !clean x, icache := e.2.icache.filter fun x => x.1 / 256 != pos })
      else e }
    [2 * pos, 2 * pos + 1].foldl (fun (t : State) l => t.setEntry die l { t.entry die l with replica := none }) t
  else s

/-- ERROR_DETECTED (R384): the error is logged, and its class decides what follows. An orphaned error of a unit that Table 20.4
does not name is one of ring state or a rank table (log 55). -/
def execErrorDetected (die : Nat) (cls : ErrClass) (unit : Nat) (pos : Nat) (part : Option Nat) (s : State) :
    Host.Outcome State Fault Refusal :=
  let t := s.logError die (errCode cls) unit pos
  match cls with
  | .corrected => .next t
  | .cleanCopy => .next (t.dropClean die unit pos)
  | .consumed => .next (t.markFaulty die unit pos)
  | .latent => .next (t.markFaulty die unit pos)
  | .orphaned =>
    .next (match part with
      | some p => if (t.part p).live then t.partFatal p (if unit ≤ 10 then 1 else 2) [die] else t
      | none => t)
  | .moduleWide => .next (t.moduleFatal 3 [die])

/-- THERMAL_TRIP (21 Table 21.6): fatal cause 6. -/
def execThermalTrip (die : Nat) (s : State) : Host.Outcome State Fault Refusal := .next (s.moduleFatal 6 [die])

/-- MANAGEMENT_WATCHDOG (Table 20.6): fatal cause 5. -/
def execManagementWatchdog (s : State) : Host.Outcome State Fault Refusal := .next (s.moduleFatal 5 [])

/-! ## Links (20 R386) -/

/-- The die in a direction, on the 6 by 6 grid of hive dies. -/
def nextDie (d : Nat) : Dir → Option Nat
  | .n => if d < 6 then none else some (d - 6)
  | .s => if d + 6 < 36 then some (d + 6) else none
  | .w => if d % 6 = 0 then none else some (d - 1)
  | .e => if d % 6 = 5 then none else some (d + 1)

/-- The link of a die in a direction. -/
def State.link (s : State) (d : Nat) (x : Dir) : Link := lookup Link.reset x (s.die d).links

/-- Replace a link. -/
def State.setLink (s : State) (d : Nat) (x : Dir) (l : Link) : State :=
  let e := s.die d
  s.setDie d { e with links := store x l e.links }

/-- LINK_LANE_FAILURE (R386): two spare lanes per direction; with more failed lanes the link runs at half width. -/
def execLinkLaneFailure (die : Nat) (d : Dir) (s : State) : Host.Outcome State Fault Refusal :=
  let l := s.link die d
  .next (s.setLink die d { l with failed := l.failed + 1 })

/-- Whether a link runs at half width (R386). -/
def Link.half (l : Link) : Bool := decide (2 < l.failed)

/-- Whether packets can pass from a die to its neighbour in a direction. -/
def State.passes (s : State) (d : Nat) (x : Dir) : Bool :=
  match nextDie d x with
  | some e => !(s.link d x).down && !(s.link e (dirOpp x)).down
  | none => false

/-- The dies reached from a list of dies in n hops or fewer. -/
def State.reached (s : State) : Nat → List Nat → List Nat
  | 0, ds => ds
  | n + 1, ds =>
    s.reached n ((ds ++ ds.flatMap fun d =>
      dirs.filterMap fun x => if s.passes d x then nextDie d x else none).eraseDups)

/-- LINK_DOWN (R386): the link is routed around, the old path drained first; a die left unreachable is fatal cause 4. -/
def execLinkDown (die : Nat) (d : Dir) (s : State) : Host.Outcome State Fault Refusal :=
  let t := s.setLink die d { s.link die d with down := true }
  let lost := (List.range 36).filter fun k => !(t.reached 36 [0]).contains k
  .next (if lost.isEmpty then t else t.moduleFatal 4 lost)

/-! ## Divergence of a replay (20 R394) -/

/-- Whether a context of a partition waits on replay order. -/
def State.waitsOnReplay (s : State) (p : Nat) : Bool :=
  s.cores.any fun e => s.owner e.1 == some p && e.2.live.any fun i =>
    match (e.2.ctxs[i]).blocked with | some b => b.phase == 2 | none => false

/-- Whether a replay applies entries of a type: steal seeds follow from the packet, frames are ignored (20 R394). -/
def isApplied (e : Nat) : Bool := recType e != 4 && recType e != 10 && recType e != 0xFE

/-- The next entry of a record that a replay has still to apply; 0 when there is none. -/
def State.nextUnapplied (s : State) (p : Nat) : Nat :=
  match s.nextEntry p isApplied with | some (_, e) => e | none => 0

/-- REPLAY_DIVERGENCE (R394): REPLAYTO ticks without an applied entry while a context waits on replay order; the launch is
aborted and the next unapplied entry is reported. -/
def execReplayDivergence (part launch : Nat) (s : State) : Host.Outcome State Fault Refusal :=
  let q := s.part part
  match s.launch? launch with
  | none => .next s
  | some l =>
    if l.part = part ∧ s.replays part ∧ s.waitsOnReplay part ∧ q.lastApplied + q.replayTo ≤ s.refCount then
      .next ((s.abortLaunch launch).postEvent 3 (s.nextUnapplied part))
    else .next s

/-! ## Module reset (21 R402, R403) -/

/-- A field of a configuration block: n bytes at an offset, little-endian. -/
def blockField (b : List Byte) (off n : Nat) : Nat :=
  (List.range n).foldl (fun v i => v + (b.getD (off + i) 0).toNat * 2 ^ (8 * i)) 0

/-- COUNTER of a configuration block: after MAGIC in bytes 0 to 5 and VERSION in bytes 6 and 7 (log 56). -/
def blockCounter (b : List Byte) : Nat := blockField b 8 4

/-- Whether a block has the header, the sections, whose bytes LEN counts (log 56), and the signature of R402. -/
def blockFormat (b : List Byte) : Bool :=
  blockField b 0 6 == 0x4746434D4C50 && blockField b 6 2 == 1 && decide (16 + blockField b 12 4 + 7856 = b.length) && Config.sectionsOk b

/-- Whether a copy is valid (R402). -/
def Firmware.validCopy (f : Firmware) (c : ConfigCopy) : Bool :=
  blockFormat c.block && Config.signatureOk c.block && decide (f.rollback ≤ blockCounter c.block)

/-- The copy boot takes (R402): the valid one with the larger COUNTER, A on a tie; `true` is B. -/
def Firmware.takes (f : Firmware) : Option Bool :=
  match f.validCopy f.copyA, f.validCopy f.copyB with
  | true, true => some (decide (blockCounter f.copyA.block < blockCounter f.copyB.block))
  | true, false => some false
  | false, true => some true
  | false, false => none

/-- The copy taken at boot. -/
def Firmware.taken (f : Firmware) : ConfigCopy := if f.tookB then f.copyB else f.copyA

/-- The copy that boot did not take, which CONFIG_STAGE writes. -/
def Firmware.other (f : Firmware) : ConfigCopy := if f.tookB then f.copyA else f.copyB

/-- A boot has looked at a copy that was staged before it: where that verifies, whether taken or not, the rollback fuses rise to its
COUNTER (R402). -/
def Firmware.verifyStaged (f : Firmware) : Firmware :=
  { f with
    staged := false
    rollback := if f.staged && f.validCopy f.other then max f.rollback (blockCounter f.other.block) else f.rollback }

/-- An entry of a repair map. -/
def remapEntry (w : BitVec 16) (width : Nat) : Remap :=
  { valid := w.getLsbD 15, abs := w.getLsbD 14, phys := w.toNat % 2 ^ width }

/-- A die after boot: its repair maps from the configuration block (20 R386). -/
def bootDie (block : List Byte) (d : Nat) : Die :=
  { Die.reset with
    hremap := (Config.hiveMap block d).map fun e => (e.1, remapEntry e.2 10)
    sremap := (Config.sliceMap block d).map fun e => (e.1, remapEntry e.2 9) }

/-- What survives a reset: the flash, the fuses, the module dump (R390, R402), and the model's own fields. -/
def State.afterReset (s : State) : State :=
  let f := s.fw
  { State.reset with
    cur := s.cur
    agenda := s.agenda
    free := s.free + 6
    fw := { Firmware.reset with
      copyA := f.copyA, copyB := f.copyB, tookB := f.tookB, staged := f.staged, rollback := f.rollback
      dumps := f.dumps.filter fun d => d.part.isNone } }

/-- A boot that fails at a step: READY stays 0 (R403). -/
def State.bootFails (s : State) (stage : Nat) : State := { s with fw := { s.fw with ready := false, stage := stage } }

/-- MODULE_RESET (R403): the steps of Table 21.5; a step that fails leaves READY 0. Step 2 verifies a copy staged before, too. -/
def execModuleReset (s : State) : Host.Outcome State Fault Refusal :=
  let t := s.afterReset
  if !Config.selfTest s.free then .next (t.bootFails 1)
  else match s.fw.takes with
    | none => .next (t.bootFails 2)
    | some b =>
      let f := { t.fw.verifyStaged with tookB := b }
      let t := { t with fw := f }
      if !Config.selfTest (s.free + 1) then .next (t.bootFails 3)
      else
        let block := f.taken.block
        let t := { t with dies := (List.range 36).map fun d => (d, bootDie block d) }
        if !Config.selfTest (s.free + 2) then .next (t.bootFails 4)
        else if !Config.selfTest (s.free + 3) then .next (t.bootFails 5)
        else .next t

end Sys2Proof.Machine
end

