-- ==== Sys2Proof/Machine/Fence.lean ====
section
/-! DEFINITION. Fences, prefetch and cache maintenance (09 R223 to R227). -/

namespace Sys2Proof.Machine

/-- FENCE (R224): accesses perform in program order in this model (log 6); the speculative-load table is invalidated. -/
def execFence (x : MForm) (s : State) : Host.Outcome State Fault Refusal := finish x.form.len (.ok (s.setMe s.me.dropSpec))

/-- FENCESC.mod, base form (R225). -/
def execFencesc (s : State) : Host.Outcome State Fault Refusal := fenceSc .fencesc 0 s

/-- FENCESC.mod, extended form. -/
def execFencescX (s : State) : Host.Outcome State Fault Refusal := fenceSc .fencescX 2 s

/-- FENCESC.sys, base form. -/
def execFencescSys (s : State) : Host.Outcome State Fault Refusal := fenceSc .fencescSys 0 s

/-- FENCESC.sys, extended form. -/
def execFencescSysX (s : State) : Host.Outcome State Fault Refusal := fenceSc .fencescSysX 2 s

/-- PREF (R226): a hint, ignored. -/
def execPref (x : MForm) (s : State) : Host.Outcome State Fault Refusal := finish x.form.len (.ok s)

/-- PREF.w (R226): a hint, ignored. -/
def execPrefW (x : MForm) (s : State) : Host.Outcome State Fault Refusal := finish x.form.len (.ok s)

/-- The checks of cache maintenance, as a 1-byte access without DATA_ERROR (R227): the resolved address. It accesses no byte, so
it touches no window; in a shootdown port it raises ACCESS (17 R353). -/
def State.checkLine (s : State) (acc : Acc) (x : MForm) : Run Nat :=
  let va := x.addr 1 s.me
  (s.translate acc va).bind fun a => if inPort a then trapAt s .access va else .ok a

/-- Whether a resolved address is a byte of global memory. -/
def isGlobal (a : Nat) : Bool := decide (a < 2 ^ 52)

/-- Whether cache maintenance of a scope reaches a core's L1 (R227): the issuing core's, the die's or the module's. -/
def State.reaches (s : State) (scope : Nat) (k : CoreId) : Bool :=
  if scope = 1 then k == s.cur.core else if scope = 2 then k.die == s.cur.core.die else true

/-- The dirty copies of a line within a scope are written back, and stay as clean ones (R227). -/
def State.clean (s : State) (scope line : Nat) : State :=
  { s with cores := s.cores.map fun (e : CoreId × Core) =>
      if s.reaches scope e.1 then
        (e.1, { e.2 with l1 := e.2.l1.map fun x => if x.line = line then { x with dirty := false } else x })
      else e }

/-- CCLEAN (R227): the copies are clean; memory holds the latest bytes already (log 6). -/
def execCclean (x : MForm) (s : State) : Host.Outcome State Fault Refusal :=
  finish x.form.len ((s.checkLine .load x).map fun a => if isGlobal a then s.clean x.scope.toNat (a / 128) else s)

/-- Invalidate one core's copy of a line, with the directory entry as after its eviction. -/
def State.flushOwn (s : State) (k : CoreId) (line : Nat) : State :=
  if s.holdsLine k line then
    let t := s.dropLine k line
    t.setEntry k.die line ((t.entry k.die line).unshare k)
  else s

/-- The copies CFLUSH invalidates by its scope (R227): the core's, the die's or the module's. -/
def State.flush (s : State) (scope line : Nat) : State :=
  if scope = 1 then s.flushOwn s.cur.core line
  else if scope = 2 then s.dropCopies s.cur.core.die line
  else (List.range 36).foldl (fun s d => s.dropCopies d line) s

/-- CFLUSH (R227). -/
def execCflush (x : MForm) (s : State) : Host.Outcome State Fault Refusal :=
  finish x.form.len
    ((s.checkLine .load x).map fun a => if isGlobal a then s.flush x.scope.toNat (a / 128) else s)

/-- CINV (R227): the line leaves the issuing core's instruction cache. -/
def execCinv (x : MForm) (s : State) : Host.Outcome State Fault Refusal :=
  finish x.form.len
    ((s.checkLine .cinv x).map fun a =>
      if isGlobal a then
        let k := s.myCore
        s.setMyCore { k with icache := k.icache.filter fun e => e.1 / 128 != a / 128 }
      else s)

end Sys2Proof.Machine
end

