-- ==== Sys2Proof/Machine/Firmware.lean ====
section
/-! DEFINITION. The mailbox: host registers, the commands of Nerdigar, host memory requests, and packets injected by a replay
(21 R395 to R402, 17 R355 to R360, 20 R386 to R394). -/

namespace Sys2Proof.Machine

/-- Bytes leave the module. -/
def State.send (s : State) (dst : Option Nat) (bs : List Byte) : State :=
  { s with fw := { s.fw with sent := s.fw.sent ++ [(dst, bs)] } }

/-! ## Registers (21 Table 21.1) -/

/-- MBEC: the host has consumed events; held ones go out (R397). -/
def execMbec (v : BitVec 32) (s : State) : Host.Outcome State Fault Refusal :=
  let f := { s.fw with mbec := v }
  .next { s with fw := Firmware.release f.heldEvents f }

/-- MBCQ or MBEQ as a write leaves it: bits 11:4 are reserved. -/
def ringRegister (v : Word) : Word := BitVec.ofNat 64 (bits v.toNat 63 12 * 2 ^ 12 + bits v.toNat 3 0)

/-- Entries of the command ring (Table 21.1). -/
def Firmware.commandRing (f : Firmware) : Nat := 16 * 2 ^ min (bits f.mbcq.toNat 3 0) 8

/-- MBCP as a write leaves it: a value more than the ring size ahead of CONS is taken as CONS plus the ring size (R396). -/
def Firmware.produced (f : Firmware) (v : BitVec 32) : BitVec 32 :=
  if f.commandRing < (v - f.mbcc).toNat then f.mbcc + BitVec.ofNat 32 f.commandRing else v

/-- MBST: READY, FATAL while a module dump exists, STAGE (Table 21.1). -/
def Firmware.mbst (f : Firmware) : Word :=
  BitVec.ofNat 64 (f.ready.toNat * 2 ^ 63 + (f.dumps.any fun (d : Dump) => d.part.isNone).toNat * 2 ^ 62 + f.stage % 256)

/-- A mailbox register by its offset in BAR 0 (Table 21.1). -/
def Firmware.register (f : Firmware) (off : Nat) : Word :=
  match off with
  | 0x00 => f.mbcq
  | 0x08 => f.mbcp.setWidth 64
  | 0x10 => f.mbcc.setWidth 64
  | 0x18 => f.mbeq
  | 0x20 => f.mbep.setWidth 64
  | 0x28 => f.mbec.setWidth 64
  | 0x30 => f.mbst
  | _ => 0

/-- What 8 bytes at an offset of a doorbell page read as: DBDROP, and 0 for the write-only DBPKT and in a page that no partition
has (R395, R400). -/
def State.doorbellRead (s : State) (page : DoorbellPage) (off : Nat) : Word :=
  match s.doorbellPart page with
  | some p => if off = 8 then BitVec.ofNat 64 (s.part p).dbdrop else 0
  | none => 0

/-- The host reads 8 bytes of a function's BAR: of PF 0 the mailbox or any doorbell page, of a virtual function its own page (R395). -/
def execHostRead (fn bar off : Nat) (s : State) : Host.Outcome State Fault Refusal :=
  let v : Word :=
    if fn = 0 ∧ bar = 0 then s.fw.register off
    else if fn = 0 ∧ bar = 2 then s.doorbellRead (.pf (off / 4096)) (off % 4096)
    else if bar = 2 then s.doorbellRead (.vf fn) off
    else 0
  .next (s.send none (bytesLE 8 v.toNat))

/-- MMIO_REGISTER_WRITE (R395): the RW registers take the value; writes to the RO ones have no effect. -/
def execMmioRegisterWrite (r : MmioReg) (v : Word) (s : State) : Host.Outcome State Fault Refusal :=
  let f := s.fw
  .next { s with fw := match r with
    | .mbcq => { f with mbcq := ringRegister v }
    | .mbeq => { f with mbeq := ringRegister v }
    | .mbcp => { f with mbcp := f.produced (v.extractLsb' 0 32) }
    | .mbcc => f
    | .mbep => f
    | .mbst => f }

/-! ## Commands (21 R396 to R398) -/

/-- A completion event, and with it MBCC (R396, R397). -/
def State.complete (s : State) (c : Cmd) (status data : Nat) : State :=
  { s with fw := s.fw.announce (eventEntry 1 status c.tag.toNat 0 data) }

/-- Whether Nerdigar takes the next command: the host has written one, none is running, and the event ring has room (R396, R397). -/
def Firmware.takesCommand (f : Firmware) : Bool := f.mbcp != f.mbcc && f.heldEvents.isEmpty && f.room && f.changing.isNone

/-- A command of a module that has booted: with a reserved bit set it is refused (STATUS 2); a refused command changes
nothing, and one that is done answers its data (R398, R403). -/
def State.command (s : State) (c : Cmd) (r : Except Nat (State × Nat)) : Host.Outcome State Fault Refusal :=
  if !s.fw.takesCommand || !s.fw.ready then .next s
  else if c.reserved then .next (s.complete c 2 0)
  else match r with
    | .ok (t, data) => .next (t.complete c 0 data)
    | .error status => .next (s.complete c status 0)

/-- A command that is never refused but for a reserved bit, and answered also where boot has failed when `always` holds (R398, R403). -/
def State.query (s : State) (c : Cmd) (always : Bool) (data : Nat) : Host.Outcome State Fault Refusal :=
  if !s.fw.takesCommand || !(s.fw.ready || always) then .next s
  else if c.reserved then .next (s.complete c 2 0)
  else .next (s.complete c 0 data)

/-- The first check that fails gives the STATUS. -/
def refuseIf : List (Bool × Nat) → Except Nat Unit
  | [] => .ok ()
  | (bad, n) :: rest => if bad then .error n else refuseIf rest

/-- A command done without data, unless a check refuses it. -/
def checked (checks : List (Bool × Nat)) (t : State) : Except Nat (State × Nat) := (refuseIf checks).map fun _ => (t, 0)

/-- Whether a command's partition does not exist: STATUS 2 (log 57). -/
def State.noPart (s : State) (c : Cmd) : Bool × Nat := (!(s.part c.part).live, 2)

/-- INFO: version and die count, 6 bits each, the spare hives of each die, 5 bits each, and the whole digest of the identity key, which
fill the 448 bits of DATA (log 58). -/
def execInfo (c : Cmd) (s : State) : Host.Outcome State Fault Refusal :=
  s.query c true (1 + 36 * 2 ^ 6 +
    (packLanes 5 ((List.range 36).map fun d => min 24 (s.die d).spareHives.length)) * 2 ^ 12 + (digest Config.identityKey).toNat * 2 ^ 192)

/-! ## Partitions (17 R355, R357, R360) -/

/-- The lowest empty key slot of a die. -/
def Die.emptySlot (d : Die) : Option Nat := (List.range 64).find? fun n => (lookup KeySlot.reset n d.keys).state == .empty

/-- Load a partition's default slot on a die with a random key (R360, log 59). -/
def State.defaultKey (p : Nat) (s : State) (die : Nat) : State :=
  let d := s.die die
  match d.emptySlot with
  | none => s
  | some n =>
    { s.setDie die { d with keys := store n { state := .default, part := some p, keyid := 0, key := Config.random s.free } d.keys }
      with free := s.free + 1 }

/-- PART_CREATE (R355, R360): the partition exists with its settings, and owns nothing but its default slots. -/
def execPartCreate (c : Cmd) (a : PartArgs) (s : State) : Host.Outcome State Fault Refusal :=
  let wide (x : Nat) : Bool := decide (2 ^ 57 ≤ x)
  let out := wide a.ptroot || a.ptroot % 8192 != 0 || wide a.nqbase || a.nqbase % 128 != 0 || a.nql < 4 || 12 < a.nql ||
    wide a.sdport || a.sdport < 2 ^ 52 || a.sdport % 128 != 0 || wide a.pdump
  let t := s.setPart c.part { Partition.reset with
    live := true, ptroot := a.ptroot, nqbase := a.nqbase, nql := a.nql, sdport := a.sdport, fpol := a.fpol, pdump := a.pdump }
  s.command c (checked [((s.part c.part).live, 3), (out, 2)] ((List.range 36).foldl (State.defaultKey c.part) t))

/-- Whether a line lies in a partition's ranges. -/
def State.lineOf (s : State) (p line : Nat) : Bool := s.inRange p (128 * line) 128

/-- Whether any line of a partition is cached (10 R243). -/
def State.cachesLines (s : State) (p : Nat) : Bool :=
  (s.cores.any fun e => s.owner e.1 == some p && !e.2.l1.isEmpty) ||
    s.dies.any fun e => (e.2.home ++ e.2.proxy).any fun x =>
      s.lineOf p x.1 && (x.2.state != .uncached || x.2.replica.isSome)

/-- Flush a partition's lines from every cache; their directory entries are invalid (10 R243, 17 R357). -/
def State.flushPart (s : State) (p : Nat) : State :=
  { s with
    cores := s.cores.map fun (e : CoreId × Core) => if s.owner e.1 = some p then (e.1, { e.2 with l1 := [] }) else e
    hives := s.hives.map fun (e : HiveId × Hive) => if e.2.owner = some p then (e.1, { e.2 with replies := [] }) else e
    dies := s.dies.map fun (e : Nat × Die) => (e.1, { e.2 with
      home := e.2.home.filter fun x => !s.lineOf p x.1
      proxy := e.2.proxy.filter fun x => !s.lineOf p x.1 }) }

/-- The owner of a slice. -/
def State.sliceOwned (s : State) (die j : Nat) : Option Nat := ((s.die die).sliceOwner.find? fun e => e.1 == j).map (·.2)

/-- The owner of a unit. -/
def State.unitOwner (s : State) (die : Nat) (kind : UnitKind) (n : Nat) : Option Nat :=
  match kind with
  | .hive => (s.hive (hiveOf die n)).owner
  | .slice => s.sliceOwned die n

/-- Whether no physical unit serves a logical unit (20 R387). -/
def State.unitAbsent (s : State) (die : Nat) (kind : UnitKind) (n : Nat) : Bool :=
  match kind with
  | .hive => s.hiveAbsent (hiveOf die n)
  | .slice => !(remapOf (s.die die).sremap n).serves

/-- Units of a kind on a die. -/
def unitTotal : UnitKind → Nat
  | .hive => 576
  | .slice => 384

/-- Give a unit to a partition. -/
def State.giveUnit (p die : Nat) (kind : UnitKind) (s : State) (n : Nat) : State :=
  match kind with
  | .hive => s.setHive (hiveOf die n) { s.hive (hiveOf die n) with owner := some p }
  | .slice =>
    let d := s.die die
    s.setDie die { d with sliceOwner := store n p d.sliceOwner }

/-- PART_ASSIGN (R355, 20 R387): units that nobody else owns become the partition's. New groups count as freed ones. While its dump
is unread, the partition's units stay out of use (20 R390; log 118). -/
def execPartAssign (c : Cmd) (die : Nat) (kind : UnitKind) (units : List Nat) (s : State) : Host.Outcome State Fault Refusal :=
  let us := units.filter fun n => decide (n < unitTotal kind)
  let foreign := us.any fun n =>
    s.unitAbsent die kind n || match s.unitOwner die kind n with | some p => p != c.part | none => false
  let changes := us.any fun n => s.unitOwner die kind n != some c.part
  s.command c (checked [s.noPart c, (decide (36 ≤ die), 2), ((s.part c.part).outOfUse, 3), (foreign, 4),
    (kind == .slice && changes && s.cachesLines c.part, 3)]
    ((us.foldl (State.giveUnit c.part die kind) s).groupsFreed c.part))

/-- A core that changes owner: nothing of it is left but its clock settings and a fence (R357). -/
def Core.cleared (k : Core) : Core :=
  { Core.reset with
    status := if k.status = .fenced then .fenced else .idle
    divider := k.ownDivider
    dividerKept := k.ownDivider
    cycles := k.cycles
    within := k.within }

/-- Take a hive from its owner: its caches, deques, slots, scratch and local memories are cleared (R357). -/
def State.takeHive (s : State) (h : HiveId) : State :=
  let t := (hiveCores h).foldl (fun (t : State) k => t.setCore k (t.core k).cleared) s
  let t := t.setHive h Hive.reset
  let t := t.clear (scratchAddr h 0) (2 ^ 19)
  (List.range 32).foldl (fun (t : State) i => t.clear (localAddr (littleCore h i) 0) (2 ^ 19)) t

/-- Take a unit from a partition (R357). -/
def State.takeUnit (p die : Nat) (kind : UnitKind) (s : State) (n : Nat) : State :=
  match kind with
  | .hive => s.takeHive (hiveOf die n)
  | .slice =>
    let t := s.flushPart p
    let d := t.die die
    t.setDie die { d with
      sliceOwner := d.sliceOwner.filter fun e => e.1 != n
      l2split := d.l2split.filter fun e => e.1 != n }

/-- Whether a resident launch holds a unit: a group in the hive, or, for a slice, any launch of the partition. -/
def State.unitHeld (s : State) (p die : Nat) (kind : UnitKind) (n : Nat) : Bool :=
  match kind with
  | .hive => (hiveCores (hiveOf die n)).any fun k => (s.jobLaunch k).isSome
  | .slice => s.launches.any fun e => e.2.part == p

/-- Whether giving up slices of a die leaves a partition that homes memory there without one (10 R243). -/
def State.stripped (s : State) (p die : Nat) (units : List Nat) : Bool :=
  ((s.slicesOf die p).all fun j => units.contains j) &&
    (s.die die).krange.any fun r => bits r.2.toNat 127 127 == 1 && bits r.2.toNat 126 121 == p

/-- A command that changes a partition runs from one occurrence to the next, if nothing refuses it at the first: in between, the
doorbells and fabric packets of the partition are discarded (R399; log 67). The second one is checked again, and completes it. -/
def State.change (s : State) (c : Cmd) (run : State → Except Nat (State × Nat)) : Host.Outcome State Fault Refusal :=
  if s.fw.changing = some c then
    let t := { s with fw := { s.fw with changing := none } }
    t.command c (run t)
  else
    match run s with
    | .ok _ =>
      if !s.fw.takesCommand || !s.fw.ready || c.reserved then s.command c (run s)
      else .next { s with fw := { s.fw with changing := some c } }
    | .error n => s.command c (.error n)

/-- PART_RELEASE (R357): units of the partition that no resident launch holds lose their owner; others in the mask stay. -/
def execPartRelease (c : Cmd) (die : Nat) (kind : UnitKind) (units : List Nat) (s : State) : Host.Outcome State Fault Refusal :=
  s.change c fun s =>
    let us := units.filter fun n => decide (n < unitTotal kind) && s.unitOwner die kind n == some c.part
    checked [s.noPart c, (decide (36 ≤ die), 2), ((s.part c.part).outOfUse, 3),
      (us.any (s.unitHeld c.part die kind), 3), (kind == .slice && s.stripped c.part die us, 3)]
      (us.foldl (State.takeUnit c.part die kind) s)

/-- Whether a partition still owns a unit, a key slot or a range. -/
def State.ownsSome (s : State) (p : Nat) : Bool :=
  (s.hives.any fun e => e.2.owner == some p) ||
    s.dies.any fun e =>
      (e.2.sliceOwner.any fun x => x.2 == p) ||
        (e.2.keys.any fun x => x.2.part == some p && x.2.state != .empty) ||
        e.2.krange.any fun x => bits x.2.toNat 127 127 == 1 && bits x.2.toNat 126 121 == p

/-- PART_DESTROY: a partition that owns nothing no longer exists; its virtual functions are unbound. -/
def execPartDestroy (c : Cmd) (s : State) : Host.Outcome State Fault Refusal :=
  s.change c fun s =>
    let t := s.setPart c.part Partition.reset
    checked [s.noPart c, (s.ownsSome c.part, 3)]
      { t with fw := { t.fw with vf := t.fw.vf.filter fun e => e.2 != c.part } }

/-- Whether a slice holds no line of its owner (10 R244). -/
def State.sliceEmpty (s : State) (p die j : Nat) : Bool :=
  !((s.die die).home ++ (s.die die).proxy).any fun x =>
    s.lineOf p x.1 && ((s.homeSlice die p (128 * x.1) == some j && x.2.state != .uncached) || x.2.replica == some j)

/-- An L2SPLIT value firmware takes, its reserved bits ignored (10 Table 10.2, 00 R7). -/
def splitOk (v : Word) : Bool := decide (4 ≤ bits v.toNat 3 0) && decide (bits v.toNat 3 0 ≤ 12)

/-- L2SPLIT without its reserved bits. -/
def splitWrite (v : Word) : Word := v &&& 0x1f

/-- PART_SET: image bases, supervising launch, lottery seed (0 is replaced by 1, 16 R329), L2SPLIT of empty slices. -/
def execPartSet (c : Cmd) (a : PartSetArgs) (s : State) : Host.Outcome State Fault Refusal :=
  let q := s.part c.part
  let bad := (a.imgbase.any fun e => e.1 ≥ 36 || e.2 % 2 ^ 21 != 0 || decide (2 ^ 57 ≤ e.2)) ||
    a.l2split.any fun e => e.1 ≥ 36 || e.2.1 ≥ 384 || !splitOk e.2.2
  let q := { q with
    imgbase := a.imgbase.foldl (fun m e => store e.1 e.2 m) q.imgbase
    supervisor := match a.supervisor with | some l => some l | none => q.supervisor
    lottery := match a.seed with | some x => (if x = 0 then 1 else x) | none => q.lottery }
  let t := a.l2split.foldl (fun (t : State) e =>
    let d := t.die e.1
    t.setDie e.1 { d with l2split := store e.2.1 (splitWrite e.2.2) d.l2split }) (s.setPart c.part q)
  s.command c (checked [s.noPart c, (bad, 2), (a.l2split.any fun e => s.sliceOwned e.1 e.2.1 != some c.part, 4),
    (a.l2split.any fun e => !s.sliceEmpty c.part e.1 e.2.1, 3)] t)

/-- VF_BIND (R395): a virtual function 1 to 64 is bound to the partition, or the partition's are unbound. -/
def execVfBind (c : Cmd) (vf : Nat) (bind : Bool) (s : State) : Host.Outcome State Fault Refusal :=
  let off := !bind || vf == 0
  let elsewhere := s.fw.vf.any fun e => e.1 == vf && e.2 != c.part
  let m := if off then s.fw.vf.filter fun e => e.2 != c.part else store vf c.part s.fw.vf
  s.command c (checked [s.noPart c, (!off && decide (64 < vf), 2), (!off && elsewhere, 4)] { s with fw := { s.fw with vf := m } })

/-- FABRIC_ALLOW (R401): up to 6 source addresses are registered, as far as the table has room for them. -/
def execFabricAllow (c : Cmd) (sources : List Nat) (s : State) : Host.Outcome State Fault Refusal :=
  let q := s.part c.part
  let l := (q.fabric ++ sources).eraseDups
  s.command c (checked [s.noPart c, (decide (6 < sources.length), 2), (decide (Config.fabricSlots < l.length), 5)]
    (s.setPart c.part { q with fabric := l }))

/-! ## Ranges and keys (17 R359, R360) -/

/-- Whether a range lies in one of the die's two homed spaces (17 R349). -/
def homedRange (die base limit : Nat) : Bool :=
  decide (base < limit) &&
    ((decide (die * 2 ^ 36 ≤ base) && decide (limit ≤ die * 2 ^ 36 + 55 * 2 ^ 30)) ||
      (decide (2 ^ 42 + die * 2 ^ 37 ≤ base) && decide (limit ≤ 2 ^ 42 + die * 2 ^ 37 + farShare die * 2 ^ 30)))

/-- Whether a value for range n of a die breaks R360: an overlap, a range outside the die's space, a slot that is empty or
another partition's, a range of another partition, or a die on which the partition owns no slice (10 R243; log 118). -/
def State.breaksRange (s : State) (p die n : Nat) (v : BitVec 128) : Bool :=
  let d := s.die die
  let base (r : BitVec 128) : Nat := bits r.toNat 56 21 * 2 ^ 21
  let limit (r : BitVec 128) : Nat := bits r.toNat 120 85 * 2 ^ 21
  let on (r : BitVec 128) : Bool := bits r.toNat 127 127 == 1
  let slot := lookup KeySlot.reset (bits v.toNat 63 58) d.keys
  (d.krange.any fun r => r.1 == n && on r.2 && bits r.2.toNat 126 121 != p) ||
    (on v && (bits v.toNat 126 121 != p || (s.slicesOf die p).isEmpty || !homedRange die (base v) (limit v) || slot.state == .empty || slot.part != some p ||
      d.krange.any fun r => r.1 != n && on r.2 && decide (base v < limit r.2) && decide (base r.2 < limit v)))

/-- KRANGE without its reserved bits (Table 17.8, 00 R7). -/
def krangeWrite (v : BitVec 128) : BitVec 128 :=
  BitVec.ofNat 128 (bits v.toNat 127 85 * 2 ^ 85 + bits v.toNat 63 58 * 2 ^ 58 + bits v.toNat 56 21 * 2 ^ 21)

/-- The key under which a line is encrypted: the one in the slot of the enabled range that holds it, on the die where the line is
homed (R358). -/
def State.lineKey (s : State) (line : Nat) : Option (BitVec 512) :=
  let d := s.die (homeDie (128 * line))
  match d.krange.find? fun r => rangeHolds (bits r.2.toNat 126 121) (128 * line) 128 r.2 with
  | none => none
  | some r =>
    let k := lookup KeySlot.reset (bits r.2.toNat 63 58) d.keys
    if k.state = .empty then none else some k.key

/-- What the DRAM holds of a line: its ciphertext (R358). The model's memory holds what a fill of the line gives. -/
def State.dramLine (s : State) (line : Nat) : List Byte := encLine (s.lineKey line) line (s.readBytes (128 * line) 128)

/-- A line's bytes follow its key: the DRAM keeps what it held, errors too, since ECC covers the ciphertext, and a fill decrypts that
under the new key (R357, R358). -/
def State.rekeyLine (was : State) (s : State) (line : Nat) : State :=
  if was.lineKey line = s.lineKey line then s
  else { s.writeBytes (128 * line) (decLine (s.lineKey line) line (was.dramLine line)) with poisoned := s.poisoned }

/-- The lines of the enabled ranges of a die, whatever they hold. -/
def Die.rangeLines (d : Die) : List Nat :=
  d.krange.flatMap fun r =>
    if bits r.2.toNat 127 127 = 1 then
      (List.range ((bits r.2.toNat 120 85 - bits r.2.toNat 56 21) * 2 ^ 14)).map fun i => bits r.2.toNat 56 21 * 2 ^ 14 + i
    else []

/-- The lines that memory lists a byte of. -/
def State.listedLines (s : State) : List Nat := (s.mem.filter fun c => decide (c.1 < 2 ^ 57)).map fun c => c.1 / 128

/-- The lines whose key a change may move follow their key: those of the die's ranges before it, where a partition may have written,
and, elsewhere, those that memory lists (log 122). -/
def State.rekeyed (was s : State) (die : Nat) : State :=
  ((was.die die).rangeLines ++ was.listedLines).eraseDups.foldl (State.rekeyLine was) s

/-- KRANGE_SET (R360). The DRAM keeps its contents, which another key makes unreadable (R357). -/
def execKrangeSet (c : Cmd) (die n : Nat) (v : BitVec 128) (s : State) : Host.Outcome State Fault Refusal :=
  let d := s.die die
  s.command c (checked [s.noPart c, (decide (36 ≤ die) || decide (16 ≤ n), 2), (s.breaksRange c.part die n v, 4)]
    (State.rekeyed s (s.setDie die { d with krange := store n (krangeWrite v) d.krange }) die))

/-- Empty a key slot of a die. -/
def State.emptyKey (slot : Nat) (s : State) (die : Nat) : State :=
  let d := s.die die
  s.setDie die { d with keys := d.keys.filter fun e => e.1 != slot }

/-- KEY_ZEROISE (R357). -/
def execKeyZeroise (c : Cmd) (dies : List Nat) (slot : Nat) (s : State) : Host.Outcome State Fault Refusal :=
  let foreign := dies.any fun d =>
    let k := lookup KeySlot.reset slot (s.die d).keys
    k.state != .empty && k.part != some c.part
  let named := dies.any fun d => (s.die d).krange.any fun r =>
    bits r.2.toNat 127 127 == 1 && bits r.2.toNat 126 121 == c.part && bits r.2.toNat 63 58 == slot
  s.command c (checked [(decide (64 ≤ slot), 2), (foreign, 4), (named, 3)] (dies.foldl (State.emptyKey slot) s))

/-! ## Pre-emption (17 R339 to R345, 21 R399) -/

/-- Whether a core of a list is not the partition's. -/
def State.notOwned (s : State) (p : Nat) (ks : List CoreId) : Bool := ks.any fun k => s.owner k != some p

/-- PREEMPT: a request goes out to every core named. -/
def execPreempt (c : Cmd) (cores : List CoreId) (save : Bool) (s : State) : Host.Outcome State Fault Refusal :=
  s.command c (checked [(s.notOwned c.part cores, 4)]
    (cores.foldl (fun (t : State) k =>
      let x := t.core k
      t.setCore k { x with requested := true, saveWanted := x.saveWanted || save }) s))

/-- ABORT (16 R334). -/
def execAbort (c : Cmd) (lid : BitVec 32) (s : State) : Host.Outcome State Fault Refusal :=
  let j := s.launches.find? fun e => e.2.part == c.part && e.2.hdr 63 32 == lid.toNat
  s.command c (match j with
    | some e => .ok (s.abortLaunch e.1, 0)
    | none => .error 2)

/-- Whether RESTORE may name a core: halted, saved or off, or parked with a request for it (R339, R399). -/
def Core.restorable (k : Core) : Bool :=
  k.status == .halted || k.status == .saved || k.status == .off || (k.requested && k.parkedSince.isSome)

/-- RESTORE (17 R341, R345): the requests are withdrawn, saved cores are restored, and the cores go on. -/
def execRestore (c : Cmd) (cores : List CoreId) (s : State) : Host.Outcome State Fault Refusal :=
  let t := cores.foldl (fun (t : State) k => t.withdraw c.part k) s
  let t := cores.foldl (fun (t : State) k => if (t.core k).status = .halted then t.resumeGang k else t) t
  s.command c (checked [(s.notOwned c.part cores, 4), (cores.any fun k => !(s.core k).restorable, 2)] t)

/-! ## Power (18) -/

/-- PWRCFG without its reserved bits (18 Table 18.3). -/
def pwrcfgWrite (v : Word) : Word := v &&& 0xffffff80ffffffff#64

/-- DVCFG without its reserved bits (18 Table 18.8). -/
def dvcfgWrite (v : Word) : Word := v &&& 0xffff07#64

/-- PWR_SET: in force at the next evaluation (R399); writes of reserved bits are ignored (00, RES). -/
def execPwrSet (c : Cmd) (cfg time dvcfg : Word) (ddctl : List (SegId × Word)) (s : State) : Host.Outcome State Fault Refusal :=
  let bad := decide (480000 < bits time.toNat 31 0) || decide (bits dvcfg.toNat 23 16 ≤ bits dvcfg.toNat 15 8)
  let q := s.power.written
  s.command c (checked [(bad, 2)]
    { s with power := { s.power with next := some { q with
        cfg := pwrcfgWrite cfg, time := time, dvcfg := dvcfgWrite dvcfg, ddctl := q.ddctl ++ ddctl } } })

/-- CURVE_SET: in force at the next evaluation (R399). -/
def execCurveSet (c : Cmd) (curve : Vector Word 8) (s : State) : Host.Outcome State Fault Refusal :=
  s.command c (checked [(curve.toList.any fun w => bits w.toNat 59 48 != 0, 2)]
    { s with power := { s.power with next := some { s.power.written with curve := curve } } })

/-- PWR_QUERY: A, TGT, loss mode, frames, invalid frames (log 58). -/
def execPwrQuery (c : Cmd) (s : State) : Host.Outcome State Fault Refusal :=
  let w := s.power
  s.query c false (w.active + w.target * 2 ^ 8 + w.loss.toNat * 2 ^ 16 + w.frames % 2 ^ 64 * 2 ^ 64 + w.invalid % 2 ^ 64 * 2 ^ 128)

/-! ## Record and replay (20 R392) -/

/-- REC_SET: in force at the next admission. -/
def execRecSet (c : Cmd) (mode : BitVec 2) (base size dest : Nat) (s : State) : Host.Outcome State Fault Refusal :=
  let wide := decide (2 ^ 57 ≤ base) || decide (2 ^ 32 ≤ size) || decide (2 ^ 32 ≤ dest)
  s.command c (checked [s.noPart c, (mode == 3 || wide, 2)]
    (s.setPart c.part { s.part c.part with recNext := some (mode, base, size, dest) }))

/-- REC_QUERY: RHEAD. -/
def execRecQuery (c : Cmd) (s : State) : Host.Outcome State Fault Refusal := s.query c false ((s.part c.part).rhead % 2 ^ 64)

/-! ## Errors and repair (20 R388 to R391) -/

/-- ERRLOG_READ: the log of a die goes to a host address. -/
def execErrlogRead (c : Cmd) (die : Nat) (dst : Nat) (s : State) : Host.Outcome State Fault Refusal :=
  let t := s.fresh.2
  t.command c (checked [(decide (36 ≤ die), 2), (Config.hostFaults s.free, 7)] (t.send (some dst) (s.die die).errlogBytes))

/-- A fenced core whose fence is cleared: idle, or saved where its image still waits (20 R391). -/
def State.unfence (s : State) (k : CoreId) : State :=
  let c := s.core k
  if c.status ≠ .fenced then s
  else
    let t := s.setCore k { c with status := .idle, fencing := false, hbTimer := 0 }
    match c.fencing, s.owner k with
    | true, some p => t.saveCore p k
    | _, _ => t

/-- FENCE_CLEAR (20 R391): a core that passes its test may run again. -/
def execFenceClear (c : Cmd) (k : CoreId) (s : State) : Host.Outcome State Fault Refusal :=
  let t := s.fresh.2
  t.command c (checked [(!decide (k.die < 36), 2), (!Config.selfTest s.free, 6)] (t.unfence k))

/-- The uncorrectable byte that a copy of the local memories and the scratch of a hive meets, if any. -/
def State.hiveFaulty (s : State) (h : HiveId) : Option Nat :=
  s.poisoned.find? fun a =>
    (decide (scratchAddr h 0 ≤ a) && decide (a < scratchAddr h 0 + 2 ^ 19)) ||
      (bits a 63 60 == 8 && coreHive (localCore a) == h)

/-- Clear the local memories of a hive. -/
def State.clearLocals (s : State) (h : HiveId) : State :=
  (List.range 32).foldl (fun (t : State) i => t.clear (localAddr (littleCore h i) 0) (2 ^ 19)) s

/-- Whether the cores of a hive can be halted and saved in this die clock cycle: they are quiescent, and nothing timed is due. -/
def State.repairReady (s : State) (ks : List CoreId) : Bool :=
  ks.all fun k => s.quiescent k && !(s.gang k).any s.timedNow && !s.startsNow k

/-- The cores among some that a repair saves: halted, with contexts. -/
def State.repairable (s : State) (ks : List CoreId) : List CoreId :=
  ks.filter fun k => (s.core k).status == .halted && !(s.core k).live.isEmpty

/-- Step 1 of a repair (R388): the running cores of the hive halt, with the gangs they are in, and every one is saved. -/
def State.repairSave (p : Nat) (s : State) (ks : List CoreId) : State :=
  let t := (ks.filter fun k => (s.core k).busy).foldl
    (fun (t : State) k => (t.gang k).foldl (State.haltCore (t.core k).forcedPark) t) s
  (t.repairable ks).foldl (fun (t : State) k => t.saveCore p k) t

/-- Step 4 of a repair (R388): the cores that step 1 has saved, from the state before it, are restored, and those go on that no request
holds. A save that was asked for is still to come. -/
def State.repairRestore (p : Nat) (was s : State) (ks : List CoreId) : State :=
  let mine := ks.filter fun k => (s.core k).status == .saved && (was.core k).status != .saved
  let back (t : State) (k : CoreId) : State :=
    let t := t.restoreSaved p k
    t.setCore k { t.core k with saveWanted := (was.core k).saveWanted }
  let t := mine.foldl back s
  (mine.filter fun k => (was.core k).busy).foldl (fun (t : State) k => t.resumeGang k) t

/-- REPAIR_HIVE (R388): the hive is served by a spare, once its cores can be saved; with an uncorrectable granule, which is logged, the
launches in the hive are aborted instead and the local memories cleared. -/
def execRepairHive (c : Cmd) (h : HiveId) (s : State) : Host.Outcome State Fault Refusal :=
  let d := s.die h.die
  let n := hiveIndex h
  let ks := hiveCores h
  let p := ((s.hive h).owner).getD c.part
  if 36 ≤ h.die then s.command c (.error 2)
  else match d.spareHives with
  | [] => s.command c (.error 5)
  | phys :: _ =>
    if !s.repairReady ks then .next s
    else match s.hiveFaulty h with
      | some a =>
        let js := (ks.filterMap fun k => (s.core k).job.map (·.launch)).eraseDups
        s.command c (.ok ((js.foldl State.abortLaunch (s.logFound a)).clearLocals h, 0))
      | none =>
        let t := s.repairSave p ks
        let d := t.die h.die
        let t := t.setDie h.die { d with hremap := store n { valid := true, abs := false, phys := phys } d.hremap }
        s.command c (.ok (ks.foldl State.unfence (s.repairRestore p t ks), 0))

/-- Firmware repairs a slice: while it is empty, a spare serves it (R388). -/
def execRepairSlice (die j : Nat) (s : State) : Host.Outcome State Fault Refusal :=
  let d := s.die die
  let empty := match s.sliceOwned die j with
    | some p => s.sliceEmpty p die j
    | none => true
  match d.spareSlices with
  | [] => .next s
  | phys :: _ =>
    if decide (36 ≤ die) || decide (384 ≤ j) || !empty then .next s
    else .next (s.setDie die { d with sremap := store j { valid := true, abs := false, phys := phys } d.sremap })

/-! ## Dumps (20 R390) -/

/-- The partition of a scope. -/
def DumpScope.part? : DumpScope → Option Nat
  | .module => none
  | .partition p => some p

/-- The dump of a scope. -/
def Firmware.dump (f : Firmware) (scope : DumpScope) : Option Dump := f.dumps.find? fun (d : Dump) => d.part == DumpScope.part? scope

/-- The hives and slices of a dump's partition come into use again. -/
def State.backInUse (s : State) (scope : DumpScope) : State :=
  match scope with
  | .module => s
  | .partition p => (s.setPart p { s.part p with outOfUse := false }).groupsFreed p

/-- DUMP_READ: the dump goes to a host address; answered also where boot has failed (R403). -/
def execDumpRead (c : Cmd) (scope : DumpScope) (dst len : Nat) (s : State) : Host.Outcome State Fault Refusal :=
  if !s.fw.takesCommand then .next s
  else if c.reserved then .next (s.complete c 2 0)
  else match s.fw.dump scope with
    | none => .next (s.complete c 2 0)
    | some d => .next (((s.send (some dst) (d.bytes.take len)).backInUse scope).complete c 0 0)

/-- DUMP_DISCARD. -/
def execDumpDiscard (c : Cmd) (scope : DumpScope) (s : State) : Host.Outcome State Fault Refusal :=
  let t := { s with fw := { s.fw with dumps := s.fw.dumps.filter fun (d : Dump) => d.part != DumpScope.part? scope } }
  s.command c (checked [((s.fw.dump scope).isNone, 2)] (t.backInUse scope))

/-- CONFIG_STAGE (R402): a block that verifies goes to the copy boot did not take. -/
def execConfigStage (c : Cmd) (block : List Byte) (s : State) : Host.Outcome State Fault Refusal :=
  let f := s.fw
  let copy : ConfigCopy := { block := block }
  let f' := if f.tookB then { f with copyA := copy, staged := true } else { f with copyB := copy, staged := true }
  s.command c (checked [(!f.validCopy copy, 6)] { s with fw := f' })

/-! ## Memory requests of host and peers (R395) -/

/-- A memory request through a bound function: a line in no range of the partition is neither read nor written (17 R360);
an unbound function reads zeros and discards writes. A faulty byte is not passed on (20 R384). A request that finds the entry of a
line at its home busy waits (10 R248), and a read recalls the owners. -/
def execHostMemoryRequest (vf : Nat) (addr : Nat) (a : HostAccess) (s : State) : Host.Outcome State Fault Refusal :=
  let part := (s.fw.vf.find? fun e => e.1 == vf).map (·.2)
  let reaches (n : Nat) : Bool := match part with | some p => s.inRange p addr n && populated addr n | none => false
  let waits (n : Nat) : Bool := reaches n && (linesOf addr n).any fun l => s.lineBusy (homeDie (128 * l)) l
  match a with
  | .read n =>
    if waits n then .next s
    else if reaches n && (s.poison addr n).isSome then .next (s.logFound addr)
    else if reaches n then
      .next (((linesOf addr n).foldl (fun (t : State) l => t.recall (homeDie (128 * l)) l) s).send none (s.readBytes addr n))
    else .next (s.send none (List.replicate n 0))
  | .write bs =>
    if waits bs.length || !reaches bs.length then .next s
    else
      .next ((linesOf addr bs.length).foldl (fun (t : State) l => t.writeLine (homeDie (128 * l)) l none (.write l))
        (s.writeBytes addr bs))

/-! ## Packets of a replay (20 R394, 18 R376) -/

/-- The packet recorded by an arrival at place i: 44 continuations of 32 bytes. -/
def State.recordedPacket (s : State) (p i : Nat) : BitVec 11264 :=
  BitVec.ofNat 11264 (packLanes 256 ((List.range 44).map fun j => s.physRead p ((s.part p).rbase + 32 * (i + 1 + j)) 32))

/-- The next recorded active count of a partition, if the reference count recorded with it has come (18 R376). -/
def State.dueCount (s : State) (p : Nat) : Option (Nat × Nat) :=
  (s.nextEntry p fun e => recType e == 11).filter fun x => decide (bits x.2 255 192 ≤ s.now)

/-- REPLAY_INJECT (R394, 18 R376): the next recorded active count is applied once its reference count has come, else the next
recorded packet arrives; neither stream has another source. -/
def execReplayInject (part : Nat) (s : State) : Host.Outcome State Fault Refusal :=
  if !s.replays part then .next s
  else match s.dueCount part with
    | some (i, e) => .next ((s.applyEntry part i).setActive (recPayload e))
    | none =>
      match s.nextEntry part fun e => recType e == 1 with
      | none => .next s
      | some (i, _) =>
        .next ((s.applyEntry part i).arrivePacket part { packet := s.recordedPacket part i, source := .doorbell })

/-! ## Entries of the command ring (21 Table 21.2) -/

/-- The command codes of Table 21.4. -/
def commandCodes : List Nat :=
  [0x01, 0x10, 0x11, 0x12, 0x13, 0x14, 0x15, 0x16, 0x18, 0x19, 0x1A, 0x1B, 0x1C] ++
  [0x30, 0x31, 0x32, 0x40, 0x41, 0x50, 0x51, 0x52, 0x60, 0x61, 0x70]

/-- A command entry as the ring holds it (Table 21.2): with a code of no command it ends with STATUS 1, with a reserved bit set with
STATUS 2, and a command that has no operands runs. Any other is the occurrence of its command, whose operands the spec gives no layout
(log 101). -/
def execCommandEntry (entry : BitVec 512) (s : State) : Host.Outcome State Fault Refusal :=
  let n := entry.toNat
  let c : Cmd := { tag := entry.extractLsb' 16 16, part := bits n 37 32, reserved := bits n 63 38 != 0 || bits n 15 8 != 0 }
  if bits n 7 0 = 0x01 then execInfo c s
  else if bits n 7 0 = 0x13 then execPartDestroy c s
  else if bits n 7 0 = 0x32 then execPwrQuery c s
  else if bits n 7 0 = 0x41 then execRecQuery c s
  else if !s.fw.takesCommand || !s.fw.ready then .next s
  else if !commandCodes.contains (bits n 7 0) then .next (s.complete c 1 0)
  else if c.reserved then .next (s.complete c 2 0)
  else .next s

end Sys2Proof.Machine
end

