-- ==== Sys2Proof/Machine/Spdm.lean ====
section
/-! DEFINITION. The SPDM responder: sessions, measurements, and keys brought to slots (17 R361, R362, 21 R404, R405). The
bytes of a reply that the spec does not spell out come from Config.reply, by a number of the request and what it covers. -/

namespace Sys2Proof.Machine

/-! ## Replies -/

/-- Answer a request. -/
def State.answer (s : State) (request : Nat) (covers : List Byte) : State := s.send none (Config.reply request covers)

/-- Answer a request with bytes in clear, after what frames them. -/
def State.answerWith (s : State) (request : Nat) (bs : List Byte) : State := s.send none (Config.reply request bs ++ bs)

/-- The responder's error reply: request number 0. -/
def State.answerError (s : State) : State := s.answer 0 []

/-- A request the responder does not support, PSK_EXCHANGE among them (R361). -/
def execUnsupportedRequest (s : State) : Host.Outcome State Fault Refusal := .next s.answerError

/-- GET_VERSION: SPDM 1.3. -/
def execGetVersion (s : State) : Host.Outcome State Fault Refusal := .next (s.answer 1 [0x13])

/-- GET_CAPABILITIES. -/
def execGetCapabilities (s : State) : Host.Outcome State Fault Refusal := .next (s.answer 2 [])

/-- The responder's algorithms, by role (R361). -/
def spdmAlgorithms : List (String × String) :=
  [("signatures", "SLH-DSA-SHA2-128s"), ("hash", "SHA-256"), ("key exchange", "secp384r1 ECDHE"), ("secured messages", "AES-256-GCM")]

/-- NEGOTIATE_ALGORITHMS: the reply names the responder's algorithms. -/
def execNegotiateAlgorithms (s : State) : Host.Outcome State Fault Refusal :=
  .next (s.answer 3 (spdmAlgorithms.flatMap fun a => textBytes a.2))

/-- GET_DIGESTS: the digest of the certificate chain. -/
def execGetDigests (s : State) : Host.Outcome State Fault Refusal := .next (s.answerWith 4 (sha256 Config.certificates))

/-- GET_CERTIFICATE: a part of the certificate chain. -/
def execGetCertificate (offset len : Nat) (s : State) : Host.Outcome State Fault Refusal :=
  .next (s.answerWith 5 ((Config.certificates.drop offset).take len))

/-! ## Measurements (21 R404) -/

/-- The ownership table and the bindings of functions, as bytes to be measured (log 60). -/
def State.ownershipBytes (s : State) : List Byte :=
  let part (p : Nat) : List Byte :=
    let q := s.part p
    bytesLE 1 p ++ bytesLE 1 q.live.toNat ++ bytesLE 8 q.ptroot ++ q.imgbase.flatMap (fun e => bytesLE 1 e.1 ++ bytesLE 8 e.2) ++
      bytesLE 8 q.nqbase ++ bytesLE 1 q.nql ++ bytesLE 8 q.sdport ++ bytesLE 4 ((q.supervisor.map (·.toNat)).getD 0)
  (List.range 64).flatMap part ++
    (s.hives.flatMap fun e => match e.2.owner with
      | some p => bytesLE 1 e.1.die ++ bytesLE 2 (hiveIndex e.1) ++ bytesLE 1 p
      | none => []) ++
    (s.dies.flatMap fun e => (e.2.sliceOwner.flatMap fun x => bytesLE 1 e.1 ++ bytesLE 2 x.1 ++ bytesLE 1 x.2) ++
      (e.2.keys.flatMap fun x => bytesLE 1 e.1 ++ bytesLE 1 x.1 ++ bytesLE 1 ((x.2.part.map (· + 64)).getD 0)) ++
      e.2.krange.flatMap fun x => bytesLE 1 e.1 ++ bytesLE 1 x.1 ++ bytesLE 16 x.2.toNat) ++
    s.fw.vf.flatMap fun e => bytesLE 1 e.1 ++ bytesLE 1 e.2

/-- STATE of a key slot as a code (17 Table 17.9). -/
def KeyState.code : KeyState → Nat
  | .empty => 0 | .loaded => 1 | .default => 2

/-- STATE, PART and KEYID of every slot of every die (17 R361). -/
def State.slotBytes (s : State) : List Byte :=
  (List.range 36).flatMap fun d => (List.range 64).flatMap fun n =>
    let k := lookup KeySlot.reset n (s.die d).keys
    bytesLE 1 k.state.code ++ bytesLE 1 (k.part.getD 0) ++ bytesLE 4 k.keyid.toNat

/-- The power configuration as it was last written: PWRCFG, PWRTIME, DVCFG, the curve, and DDCTL of every segment (log 60). -/
def State.powerBytes (s : State) : List Byte :=
  let w := s.power.written
  let t := s.settlePower
  let ddctls := (List.range 36).flatMap fun d => (List.range 96).flatMap fun r => (List.range 12).map fun g =>
    (t.segment { die := d, row := r, seg := g }).ddctl
  ([w.cfg, w.time, w.dvcfg] ++ w.curve.toList ++ ddctls).flatMap fun w => bytesLE 8 w.toNat

/-- The measurement blocks by index (R404); `none` for an index that has none. -/
def State.measurement (s : State) (index : Nat) : Option (List Byte) :=
  match index with
  | 1 => some (sha256 Config.rom)
  | 2 => some (sha256 (s.fw.taken.block ++ bytesLE 4 (blockCounter s.fw.taken.block)))
  | 3 => some (sha256 ((List.range 36).flatMap fun d => (s.die d).remapBytes))
  | 4 => some (sha256 s.ownershipBytes)
  | 5 => some (sha256 s.powerBytes)
  | 16 => some s.slotBytes
  | _ => none

/-- Every measurement block. -/
def State.measurements (s : State) : List Byte := ([1, 2, 3, 4, 5, 16].filterMap s.measurement).flatten

/-- CHALLENGE: a signature over the nonce and the measurements. -/
def execChallenge (nonce : BitVec 256) (s : State) : Host.Outcome State Fault Refusal :=
  .next (s.answer 6 (bytesLE 32 nonce.toNat ++ s.measurements))

/-- GET_MEASUREMENTS: one block, or all for index 255. -/
def execGetMeasurements (index : Nat) (s : State) : Host.Outcome State Fault Refusal :=
  .next (if index = 255 then s.answerWith 7 s.measurements
    else match s.measurement index with
      | some b => s.answerWith 7 b
      | none => s.answerError)

/-! ## Sessions (17 R361) -/

/-- A session. -/
def State.session? (s : State) (n : Nat) : Option Session := (s.fw.sessions.find? fun e => e.1 == n).map (·.2)

/-- Replace a session. -/
def State.setSession (s : State) (n : Nat) (x : Session) : State :=
  { s with fw := { s.fw with sessions := store n x s.fw.sessions } }

/-- What a request of an established session does; any other is answered with an error. -/
def State.inSession (s : State) (n : Nat) (f : Session → State) : Host.Outcome State Fault Refusal :=
  .next (match s.session? n with
    | some x => if x.finished then f x else s.answerError
    | none => s.answerError)

/-- KEY_EXCHANGE: a new session; its transcript covers the exchange and the responder's own key. -/
def execKeyExchange (exchange : List Byte) (s : State) : Host.Outcome State Fault Refusal :=
  let own := bytesLE 64 (Config.random s.free).toNat
  let x : Session := { transcript := digest (exchange ++ own), finished := false, updates := 0, opened := none }
  let t := s.fresh.2
  let n := t.fw.nextSession
  .next ((({ t with fw := { t.fw with nextSession := n + 1 } }).setSession n x).answer 8 (exchange ++ own))

/-- FINISH: the session is established when the requester's proof verifies. -/
def execFinish (session : Nat) (verify : BitVec 256) (s : State) : Host.Outcome State Fault Refusal :=
  .next (match s.session? session with
    | some x =>
      if !x.finished && Config.finishOk x.transcript verify then (s.setSession session { x with finished := true }).answer 9 []
      else s.answerError
    | none => s.answerError)

/-- HEARTBEAT. -/
def execHeartbeat (session : Nat) (s : State) : Host.Outcome State Fault Refusal := s.inSession session fun _ => s.answer 10 []

/-- KEY_UPDATE: the session's keys are renewed. -/
def execKeyUpdate (session : Nat) (s : State) : Host.Outcome State Fault Refusal :=
  s.inSession session fun x => (s.setSession session { x with updates := x.updates + 1 }).answer 11 []

/-- END_SESSION. -/
def execEndSession (session : Nat) (s : State) : Host.Outcome State Fault Refusal :=
  s.inSession session fun _ =>
    ({ s with fw := { s.fw with sessions := s.fw.sessions.filter fun e => e.1 != session } }).answer 12 []

/-! ## Keys (17 R362, 21 R405) -/

/-- Whether a slot of a die may be opened for a partition: it is empty, and no other partition's. -/
def State.openSlot (s : State) (part slot die : Nat) : Bool :=
  let k := lookup KeySlot.reset slot (s.die die).keys
  k.state == .empty && (k.part.isNone || k.part == some part)

/-- n bytes of a list, 0 where it ends. -/
def fit (n : Nat) (bs : List Byte) : List Byte := (bs ++ List.replicate n 0).take n

/-- Open: refused unless the slot is empty on every named die; else a fresh key pair is made, and its encapsulation key of 1,568 bytes
returned. -/
def execKeyOpen (session part : Nat) (dies : List Nat) (slot : Nat) (keyid : BitVec 32) (s : State) :
    Host.Outcome State Fault Refusal :=
  s.inSession session fun x =>
    if !(s.part part).live || decide (64 ≤ slot) || !dies.all (s.openSlot part slot) then s.answerError
    else
      let pair := Config.random s.free
      let o : KeyOpen := { part := part, dies := dies, slot := slot, keyid := keyid, pair := pair, cipher := [], wrapped := [] }
      (s.fresh.2.setSession session { x with opened := some o }).send none (fit 1568 (Config.encapsKey pair))

/-- Wrap: a ciphertext of 1,568 bytes and a wrapped key of 72. -/
def execKeyWrap (session : Nat) (cipher wrapped : List Byte) (s : State) : Host.Outcome State Fault Refusal :=
  s.inSession session fun x =>
    match x.opened with
    | some o =>
      if cipher.length = 1568 ∧ wrapped.length = 72 then
        (s.setSession session { x with opened := some { o with cipher := cipher, wrapped := wrapped } }).answer 14 []
      else s.answerError
    | none => s.answerError

/-- What a Wrap's key unwraps to: under HKDF-SHA-256 of the secret the ciphertext holds, salted with the transcript's hash (R362). -/
def unwrapFor (pair : BitVec 512) (transcript : BitVec 256) (cipher wrapped : List Byte) : Option (List Byte) :=
  unwrapKey (hkdf (Config.decaps pair cipher) (bytesLE 32 transcript.toNat) (textBytes "PLV wrap")) wrapped

/-- The key pair of an open request, if a Wrap has come and unwraps. -/
def KeyOpen.key (o : KeyOpen) (x : Session) : Option (BitVec 512) :=
  if o.cipher.length = 1568 ∧ o.wrapped.length = 72 then
    (unwrapFor o.pair x.transcript o.cipher o.wrapped).map fun bs => BitVec.ofNat 512 (natLE bs)
  else none

/-- Load a key into a slot of a die. -/
def State.loadKey (o : KeyOpen) (key : BitVec 512) (s : State) (die : Nat) : State :=
  let d := s.die die
  s.setDie die { d with keys := store o.slot { state := .loaded, part := some o.part, keyid := o.keyid, key := key } d.keys }

/-- Load: the key is unwrapped and the slot loaded on every named die; a failed unwrap, or a slot filled meanwhile, loads
nothing. The key pair made by Open is destroyed either way. -/
def execKeyLoad (session : Nat) (s : State) : Host.Outcome State Fault Refusal :=
  s.inSession session fun x =>
    match x.opened with
    | none => s.answerError
    | some o =>
      let t := s.setSession session { x with opened := none }
      match o.key x with
      | some key => if o.dies.all (s.openSlot o.part o.slot) then (o.dies.foldl (State.loadKey o key) t).answer 15 [] else t.answerError
      | none => t.answerError

/-- The 32-byte key a SHELF_KEY request carries, encapsulated to the key pair of an open request (21 R405, log 61). -/
def Session.shelfKey (x : Session) (cipher wrapped : List Byte) : Option (BitVec 256) :=
  match x.opened with
  | none => none
  | some o =>
    if cipher.length = 1568 ∧ wrapped.length = 40 then
      (unwrapFor o.pair x.transcript cipher wrapped).map fun bs => BitVec.ofNat 256 (natLE bs)
    else none

/-- SHELF_KEY (21 R405): a key wrapped as a Load wraps one is installed at once, and the next valid frame starts a new sequence
(18 R365). -/
def execShelfKey (session : Nat) (cipher wrapped : List Byte) (s : State) : Host.Outcome State Fault Refusal :=
  s.inSession session fun x =>
    match x.shelfKey cipher wrapped with
    | some key => ({ s with power := { s.power with shelfKey := some key, seq := none } }).answer 16 []
    | none => s.answerError

end Sys2Proof.Machine
end

