-- ==== Sys2Proof/Machine/Dispatch.lean ====
section
/-! DEFINITION. The dispatcher: one arm per constructor, each a call of its meaning. -/

namespace Sys2Proof.Machine

/-- The meaning of every instruction, event and command. -/
def exec (i : Instr) (s : State) : Host.Outcome State Fault Refusal :=
  match i with
  | .trap x => Sys2Proof.Machine.execTrap x s
  | .mfs x => Sys2Proof.Machine.execMfs x s
  | .mts x => Sys2Proof.Machine.execMts x s
  | .time x => Sys2Proof.Machine.execTime x s
  | .cycle x => Sys2Proof.Machine.execCycle x s
  | .add x => Sys2Proof.Machine.execAdd x s
  | .sub x => Sys2Proof.Machine.execSub x s
  | .and x => Sys2Proof.Machine.execAnd x s
  | .or x => Sys2Proof.Machine.execOr x s
  | .xor x => Sys2Proof.Machine.execXor x s
  | .andn x => Sys2Proof.Machine.execAndn x s
  | .orn x => Sys2Proof.Machine.execOrn x s
  | .sll x => Sys2Proof.Machine.execSll x s
  | .srl x => Sys2Proof.Machine.execSrl x s
  | .sra x => Sys2Proof.Machine.execSra x s
  | .rol x => Sys2Proof.Machine.execRol x s
  | .ror x => Sys2Proof.Machine.execRor x s
  | .min x => Sys2Proof.Machine.execMin x s
  | .max x => Sys2Proof.Machine.execMax x s
  | .minn x => Sys2Proof.Machine.execMinn x s
  | .maxn x => Sys2Proof.Machine.execMaxn x s
  | .slt x => Sys2Proof.Machine.execSlt x s
  | .sltn x => Sys2Proof.Machine.execSltn x s
  | .seq x => Sys2Proof.Machine.execSeq x s
  | .sne x => Sys2Proof.Machine.execSne x s
  | .csel x => Sys2Proof.Machine.execCsel x s
  | .addi x => Sys2Proof.Machine.execAddi x s
  | .andi x => Sys2Proof.Machine.execAndi x s
  | .ori x => Sys2Proof.Machine.execOri x s
  | .xori x => Sys2Proof.Machine.execXori x s
  | .slli x => Sys2Proof.Machine.execSlli x s
  | .srli x => Sys2Proof.Machine.execSrli x s
  | .srai x => Sys2Proof.Machine.execSrai x s
  | .rori x => Sys2Proof.Machine.execRori x s
  | .slti x => Sys2Proof.Machine.execSlti x s
  | .sltni x => Sys2Proof.Machine.execSltni x s
  | .seqi x => Sys2Proof.Machine.execSeqi x s
  | .li x => Sys2Proof.Machine.execLi x s
  | .mul x => Sys2Proof.Machine.execMul x s
  | .mulh x => Sys2Proof.Machine.execMulh x s
  | .mulhn x => Sys2Proof.Machine.execMulhn x s
  | .madd x => Sys2Proof.Machine.execMadd x s
  | .div x => Sys2Proof.Machine.execDiv x s
  | .divn x => Sys2Proof.Machine.execDivn x s
  | .rem x => Sys2Proof.Machine.execRem x s
  | .remn x => Sys2Proof.Machine.execRemn x s
  | .clz x => Sys2Proof.Machine.execClz x s
  | .ctz x => Sys2Proof.Machine.execCtz x s
  | .popc x => Sys2Proof.Machine.execPopc x s
  | .brev x => Sys2Proof.Machine.execBrev x s
  | .bswap x => Sys2Proof.Machine.execBswap x s
  | .bfx x => Sys2Proof.Machine.execBfx x s
  | .bfxn x => Sys2Proof.Machine.execBfxn x s
  | .bfi x => Sys2Proof.Machine.execBfi x s
  | .sext x => Sys2Proof.Machine.execSext x s
  | .zext x => Sys2Proof.Machine.execZext x s
  | .lea x => Sys2Proof.Machine.execLea x s
  | .gaddr x => Sys2Proof.Machine.execGaddr x s
  | .caddr x => Sys2Proof.Machine.execCaddr x s
  | .crel x => Sys2Proof.Machine.execCrel x s
  | .bcc x => Sys2Proof.Machine.execBcc x s
  | .bp x => Sys2Proof.Machine.execBp x s
  | .call x => Sys2Proof.Machine.execCall x s
  | .j x => Sys2Proof.Machine.execJ x s
  | .ji x => Sys2Proof.Machine.execJi x s
  | .calli x => Sys2Proof.Machine.execCalli x s
  | .start x => Sys2Proof.Machine.execStart x s
  | .myid x => Sys2Proof.Machine.execMyid x s
  | .wait x => Sys2Proof.Machine.execWait x s
  | .ld x => Sys2Proof.Machine.execLd x s
  | .ldp x => Sys2Proof.Machine.execLdp x s
  | .st x => Sys2Proof.Machine.execSt x s
  | .stp x => Sys2Proof.Machine.execStp x s
  | .lds x => Sys2Proof.Machine.execLds x s
  | .chkld x => Sys2Proof.Machine.execChkld x s
  | .amoSwap x => Sys2Proof.Machine.execAmoSwap x s
  | .amoAdd x => Sys2Proof.Machine.execAmoAdd x s
  | .amoAnd x => Sys2Proof.Machine.execAmoAnd x s
  | .amoOr x => Sys2Proof.Machine.execAmoOr x s
  | .amoXor x => Sys2Proof.Machine.execAmoXor x s
  | .amoMin x => Sys2Proof.Machine.execAmoMin x s
  | .amoMax x => Sys2Proof.Machine.execAmoMax x s
  | .amoMinn x => Sys2Proof.Machine.execAmoMinn x s
  | .amoMaxn x => Sys2Proof.Machine.execAmoMaxn x s
  | .cas x => Sys2Proof.Machine.execCas x s
  | .amofAdd x => Sys2Proof.Machine.execAmofAdd x s
  | .amofMin x => Sys2Proof.Machine.execAmofMin x s
  | .amofMax x => Sys2Proof.Machine.execAmofMax x s
  | .amo2Swap x => Sys2Proof.Machine.execAmo2Swap x s
  | .amo2Add x => Sys2Proof.Machine.execAmo2Add x s
  | .amo2And x => Sys2Proof.Machine.execAmo2And x s
  | .amo2Or x => Sys2Proof.Machine.execAmo2Or x s
  | .amo2Xor x => Sys2Proof.Machine.execAmo2Xor x s
  | .cas2 x => Sys2Proof.Machine.execCas2 x s
  | .fence x => Sys2Proof.Machine.execFence x s
  | .pref x => Sys2Proof.Machine.execPref x s
  | .prefW x => Sys2Proof.Machine.execPrefW x s
  | .cclean x => Sys2Proof.Machine.execCclean x s
  | .cflush x => Sys2Proof.Machine.execCflush x s
  | .cinv x => Sys2Proof.Machine.execCinv x s
  | .vld x => Sys2Proof.Machine.execVld x s
  | .vst x => Sys2Proof.Machine.execVst x s
  | .vlds x => Sys2Proof.Machine.execVlds x s
  | .vsts x => Sys2Proof.Machine.execVsts x s
  | .vldx x => Sys2Proof.Machine.execVldx x s
  | .vstx x => Sys2Proof.Machine.execVstx x s
  | .vldb x => Sys2Proof.Machine.execVldb x s
  | .vldbWeak x => Sys2Proof.Machine.execVldbWeak x s
  | .vadd x => Sys2Proof.Machine.execVadd x s
  | .vsub x => Sys2Proof.Machine.execVsub x s
  | .vmul x => Sys2Proof.Machine.execVmul x s
  | .vmulh x => Sys2Proof.Machine.execVmulh x s
  | .vmadd x => Sys2Proof.Machine.execVmadd x s
  | .vand x => Sys2Proof.Machine.execVand x s
  | .vor x => Sys2Proof.Machine.execVor x s
  | .vxor x => Sys2Proof.Machine.execVxor x s
  | .vsll x => Sys2Proof.Machine.execVsll x s
  | .vsrl x => Sys2Proof.Machine.execVsrl x s
  | .vsra x => Sys2Proof.Machine.execVsra x s
  | .vmin x => Sys2Proof.Machine.execVmin x s
  | .vmax x => Sys2Proof.Machine.execVmax x s
  | .vabs x => Sys2Proof.Machine.execVabs x s
  | .vcmp x => Sys2Proof.Machine.execVcmp x s
  | .vsel x => Sys2Proof.Machine.execVsel x s
  | .vaddi x => Sys2Proof.Machine.execVaddi x s
  | .vsubi x => Sys2Proof.Machine.execVsubi x s
  | .vmuli x => Sys2Proof.Machine.execVmuli x s
  | .vandi x => Sys2Proof.Machine.execVandi x s
  | .vori x => Sys2Proof.Machine.execVori x s
  | .vxori x => Sys2Proof.Machine.execVxori x s
  | .vslli x => Sys2Proof.Machine.execVslli x s
  | .vsrli x => Sys2Proof.Machine.execVsrli x s
  | .vsrai x => Sys2Proof.Machine.execVsrai x s
  | .vmini x => Sys2Proof.Machine.execVmini x s
  | .vmaxi x => Sys2Proof.Machine.execVmaxi x s
  | .vcmpi x => Sys2Proof.Machine.execVcmpi x s
  | .vbcast x => Sys2Proof.Machine.execVbcast x s
  | .vins x => Sys2Proof.Machine.execVins x s
  | .vext x => Sys2Proof.Machine.execVext x s
  | .vperm x => Sys2Proof.Machine.execVperm x s
  | .vslide x => Sys2Proof.Machine.execVslide x s
  | .vred x => Sys2Proof.Machine.execVred x s
  | .vscan x => Sys2Proof.Machine.execVscan x s
  | .viota x => Sys2Proof.Machine.execViota x s
  | .vcmprs x => Sys2Proof.Machine.execVcmprs x s
  | .vexpnd x => Sys2Proof.Machine.execVexpnd x s
  | .plog x => Sys2Proof.Machine.execPlog x s
  | .ppopc x => Sys2Proof.Machine.execPpopc x s
  | .pfirst x => Sys2Proof.Machine.execPfirst x s
  | .pset x => Sys2Proof.Machine.execPset x s
  | .fpsFadd x => Sys2Proof.Machine.execFpsFadd x s
  | .fpsFsub x => Sys2Proof.Machine.execFpsFsub x s
  | .fpsFmul x => Sys2Proof.Machine.execFpsFmul x s
  | .fpsFdiv x => Sys2Proof.Machine.execFpsFdiv x s
  | .fpsFsqrt x => Sys2Proof.Machine.execFpsFsqrt x s
  | .fpsFmin x => Sys2Proof.Machine.execFpsFmin x s
  | .fpsFmax x => Sys2Proof.Machine.execFpsFmax x s
  | .fpsFminm x => Sys2Proof.Machine.execFpsFminm x s
  | .fpsFmaxm x => Sys2Proof.Machine.execFpsFmaxm x s
  | .fpsFabs x => Sys2Proof.Machine.execFpsFabs x s
  | .fpsFneg x => Sys2Proof.Machine.execFpsFneg x s
  | .fpsFsgnj x => Sys2Proof.Machine.execFpsFsgnj x s
  | .fpsFcmp x => Sys2Proof.Machine.execFpsFcmp x s
  | .fpsFclass x => Sys2Proof.Machine.execFpsFclass x s
  | .fpsFrnd x => Sys2Proof.Machine.execFpsFrnd x s
  | .fpvFadd x => Sys2Proof.Machine.execFpvFadd x s
  | .fpvFsub x => Sys2Proof.Machine.execFpvFsub x s
  | .fpvFmul x => Sys2Proof.Machine.execFpvFmul x s
  | .fpvFdiv x => Sys2Proof.Machine.execFpvFdiv x s
  | .fpvFsqrt x => Sys2Proof.Machine.execFpvFsqrt x s
  | .fpvFmin x => Sys2Proof.Machine.execFpvFmin x s
  | .fpvFmax x => Sys2Proof.Machine.execFpvFmax x s
  | .fpvFminm x => Sys2Proof.Machine.execFpvFminm x s
  | .fpvFmaxm x => Sys2Proof.Machine.execFpvFmaxm x s
  | .fpvFabs x => Sys2Proof.Machine.execFpvFabs x s
  | .fpvFneg x => Sys2Proof.Machine.execFpvFneg x s
  | .fpvFsgnj x => Sys2Proof.Machine.execFpvFsgnj x s
  | .fpvFcmp x => Sys2Proof.Machine.execFpvFcmp x s
  | .fpvFclass x => Sys2Proof.Machine.execFpvFclass x s
  | .fpvFrnd x => Sys2Proof.Machine.execFpvFrnd x s
  | .ffmaVector x => Sys2Proof.Machine.execFfmaVector x s
  | .ffmsVector x => Sys2Proof.Machine.execFfmsVector x s
  | .fnfmaVector x => Sys2Proof.Machine.execFnfmaVector x s
  | .fnfmsVector x => Sys2Proof.Machine.execFnfmsVector x s
  | .fdot2 x => Sys2Proof.Machine.execFdot2 x s
  | .freds x => Sys2Proof.Machine.execFreds x s
  | .ffmaScalar x => Sys2Proof.Machine.execFfmaScalar x s
  | .ffmsScalar x => Sys2Proof.Machine.execFfmsScalar x s
  | .fnfmaScalar x => Sys2Proof.Machine.execFnfmaScalar x s
  | .fnfmsScalar x => Sys2Proof.Machine.execFnfmsScalar x s
  | .fcvtVector x => Sys2Proof.Machine.execFcvtVector x s
  | .fcvtScalar x => Sys2Proof.Machine.execFcvtScalar x s
  | .qdeq x => Sys2Proof.Machine.execQdeq x s
  | .qquant x => Sys2Proof.Machine.execQquant x s
  | .scvt x => Sys2Proof.Machine.execScvt x s
  | .ilvp x => Sys2Proof.Machine.execIlvp x s
  | .ilvu x => Sys2Proof.Machine.execIlvu x s
  | .fexp2 x y => Sys2Proof.Machine.execFexp2 x y s
  | .fexp x y => Sys2Proof.Machine.execFexp x y s
  | .flog2 x y => Sys2Proof.Machine.execFlog2 x y s
  | .fsin x y => Sys2Proof.Machine.execFsin x y s
  | .fcos x y => Sys2Proof.Machine.execFcos x y s
  | .ftanh x y => Sys2Proof.Machine.execFtanh x y s
  | .frsq x y => Sys2Proof.Machine.execFrsq x y s
  | .frcp x y => Sys2Proof.Machine.execFrcp x y s
  | .talloc x => Sys2Proof.Machine.execTalloc x s
  | .tfree x => Sys2Proof.Machine.execTfree x s
  | .tzero x => Sys2Proof.Machine.execTzero x s
  | .tload x => Sys2Proof.Machine.execTload x s
  | .tmma x => Sys2Proof.Machine.execTmma x s
  | .tmmaq x => Sys2Proof.Machine.execTmmaq x s
  | .tqdesc x => Sys2Proof.Machine.execTqdesc x s
  | .tdrain x => Sys2Proof.Machine.execTdrain x s
  | .tstore x => Sys2Proof.Machine.execTstore x s
  | .tstat x => Sys2Proof.Machine.execTstat x s
  | .copy x => Sys2Proof.Machine.execCopy x s
  | .cseal x => Sys2Proof.Machine.execCseal x s
  | .cwait x => Sys2Proof.Machine.execCwait x s
  | .winset x => Sys2Proof.Machine.execWinset x s
  | .winadv x => Sys2Proof.Machine.execWinadv x s
  | .winflush x => Sys2Proof.Machine.execWinflush x s
  | .tlget x => Sys2Proof.Machine.execTlget x s
  | .bgset x => Sys2Proof.Machine.execBgset x s
  | .barr x => Sys2Proof.Machine.execBarr x s
  | .bwait x => Sys2Proof.Machine.execBwait x s
  | .phase x => Sys2Proof.Machine.execPhase x s
  | .xmit x => Sys2Proof.Machine.execXmit x s
  | .isel x => Sys2Proof.Machine.execIsel x s
  | .xrecv x => Sys2Proof.Machine.execXrecv x s
  | .spawn x => Sys2Proof.Machine.execSpawn x s
  | .spawnat x => Sys2Proof.Machine.execSpawnat x s
  | .taskget x => Sys2Proof.Machine.execTaskget x s
  | .rgres x => Sys2Proof.Machine.execRgres x s
  | .rgpub x => Sys2Proof.Machine.execRgpub x s
  | .rgtake x => Sys2Proof.Machine.execRgtake x s
  | .rgdone x => Sys2Proof.Machine.execRgdone x s
  | .send x => Sys2Proof.Machine.execSend x s
  | .recv x => Sys2Proof.Machine.execRecv x s
  | .rank x => Sys2Proof.Machine.execRank x s
  | .rankN x => Sys2Proof.Machine.execRankN x s
  | .rankOf x => Sys2Proof.Machine.execRankOf x s
  | .coll x => Sys2Proof.Machine.execColl x s
  | .grpjoin x => Sys2Proof.Machine.execGrpjoin x s
  | .grpfree x => Sys2Proof.Machine.execGrpfree x s
  | .nop => Sys2Proof.Machine.execNop s
  | .nopX => Sys2Proof.Machine.execNopX s
  | .eret => Sys2Proof.Machine.execEret s
  | .eretX => Sys2Proof.Machine.execEretX s
  | .beat => Sys2Proof.Machine.execBeat s
  | .beatX => Sys2Proof.Machine.execBeatX s
  | .ret => Sys2Proof.Machine.execRet s
  | .retX => Sys2Proof.Machine.execRetX s
  | .retire => Sys2Proof.Machine.execRetire s
  | .retireX => Sys2Proof.Machine.execRetireX s
  | .endK => Sys2Proof.Machine.execEndK s
  | .endX => Sys2Proof.Machine.execEndX s
  | .yieldK => Sys2Proof.Machine.execYieldK s
  | .yieldX => Sys2Proof.Machine.execYieldX s
  | .fencesc => Sys2Proof.Machine.execFencesc s
  | .fencescX => Sys2Proof.Machine.execFencescX s
  | .fencescSys => Sys2Proof.Machine.execFencescSys s
  | .fencescSysX => Sys2Proof.Machine.execFencescSysX s
  | .taskend => Sys2Proof.Machine.execTaskend s
  | .tileLoadDone x y => Sys2Proof.Machine.execTileLoadDone x y s
  | .shipPacketArrival x y => Sys2Proof.Machine.execShipPacketArrival x y s
  | .guestIssue x y => Sys2Proof.Machine.execGuestIssue x y s
  | .guestAgeingExpiry x y => Sys2Proof.Machine.execGuestAgeingExpiry x y s
  | .shipResultLanding x y => Sys2Proof.Machine.execShipResultLanding x y s
  | .shipRetransmit x y => Sys2Proof.Machine.execShipRetransmit x y s
  | .gshareUpdate x => Sys2Proof.Machine.execGshareUpdate x s
  | .matCommandAccept x => Sys2Proof.Machine.execMatCommandAccept x s
  | .matStep x y => Sys2Proof.Machine.execMatStep x y s
  | .matCommandComplete x => Sys2Proof.Machine.execMatCommandComplete x s
  | .matFault x y => Sys2Proof.Machine.execMatFault x y s
  | .mcastWaitExpiry x y => Sys2Proof.Machine.execMcastWaitExpiry x y s
  | .tdrainRowDispatch x => Sys2Proof.Machine.execTdrainRowDispatch x s
  | .helperAssign x => Sys2Proof.Machine.execHelperAssign x s
  | .copyAccept x => Sys2Proof.Machine.execCopyAccept x s
  | .copyChunk x y => Sys2Proof.Machine.execCopyChunk x y s
  | .copyComplete x y => Sys2Proof.Machine.execCopyComplete x y s
  | .copyFault x y => Sys2Proof.Machine.execCopyFault x y s
  | .waitEvaluate x => Sys2Proof.Machine.execWaitEvaluate x s
  | .waitTimeout x => Sys2Proof.Machine.execWaitTimeout x s
  | .yieldExpiry x => Sys2Proof.Machine.execYieldExpiry x s
  | .barrierTokenArrival x y => Sys2Proof.Machine.execBarrierTokenArrival x y s
  | .barrierReleaseArrival x y => Sys2Proof.Machine.execBarrierReleaseArrival x y s
  | .phaseStart x y => Sys2Proof.Machine.execPhaseStart x y s
  | .bwaitTimeout x => Sys2Proof.Machine.execBwaitTimeout x s
  | .wireWordArrival x y => Sys2Proof.Machine.execWireWordArrival x y s
  | .stealProbe x => Sys2Proof.Machine.execStealProbe x s
  | .stealResponse x => Sys2Proof.Machine.execStealResponse x s
  | .spawnatDelivery x => Sys2Proof.Machine.execSpawnatDelivery x s
  | .spawnTimeout x => Sys2Proof.Machine.execSpawnTimeout x s
  | .taskgetTimeout x => Sys2Proof.Machine.execTaskgetTimeout x s
  | .rgtakeTimeout x => Sys2Proof.Machine.execRgtakeTimeout x s
  | .messageDelivery x y => Sys2Proof.Machine.execMessageDelivery x y s
  | .recvTimeout x => Sys2Proof.Machine.execRecvTimeout x s
  | .collRoundComplete x y => Sys2Proof.Machine.execCollRoundComplete x y s
  | .groupGenerationDrain x y => Sys2Proof.Machine.execGroupGenerationDrain x y s
  | .crossDieMessageApply x y => Sys2Proof.Machine.execCrossDieMessageApply x y s
  | .clockBeat x y => Sys2Proof.Machine.execClockBeat x y s
  | .fenceSequencerTicket x => Sys2Proof.Machine.execFenceSequencerTicket x s
  | .directoryReadMiss x y z => Sys2Proof.Machine.execDirectoryReadMiss x y z s
  | .ownershipRequest x y z => Sys2Proof.Machine.execOwnershipRequest x y z s
  | .hiveInvalidation x y z => Sys2Proof.Machine.execHiveInvalidation x y z s
  | .invalidationAck x y z => Sys2Proof.Machine.execInvalidationAck x y z s
  | .cleanEvictionNotice x y z => Sys2Proof.Machine.execCleanEvictionNotice x y z s
  | .dirtyWriteBack x y z => Sys2Proof.Machine.execDirtyWriteBack x y z s
  | .replicaOffer x y z => Sys2Proof.Machine.execReplicaOffer x y z s
  | .proxyWriteThrough x y z => Sys2Proof.Machine.execProxyWriteThrough x y z s
  | .dbpkt x y => Sys2Proof.Machine.execDbpkt x y s
  | .fabricSubmission x y z => Sys2Proof.Machine.execFabricSubmission x y z s
  | .lotteryDraw x => Sys2Proof.Machine.execLotteryDraw x s
  | .forcedHeadRetry x => Sys2Proof.Machine.execForcedHeadRetry x s
  | .governorSample x => Sys2Proof.Machine.execGovernorSample x s
  | .groupMove x y => Sys2Proof.Machine.execGroupMove x y s
  | .stageComplete x y => Sys2Proof.Machine.execStageComplete x y s
  | .preemptionRequest x => Sys2Proof.Machine.execPreemptionRequest x s
  | .coreHalt x => Sys2Proof.Machine.execCoreHalt x s
  | .coreSave x => Sys2Proof.Machine.execCoreSave x s
  | .contextMove x y => Sys2Proof.Machine.execContextMove x y s
  | .shootdownRequest x => Sys2Proof.Machine.execShootdownRequest x s
  | .shootdownComplete x => Sys2Proof.Machine.execShootdownComplete x s
  | .heartbeatMiss x => Sys2Proof.Machine.execHeartbeatMiss x s
  | .fenceQuiescenceTimeout x => Sys2Proof.Machine.execFenceQuiescenceTimeout x s
  | .fenceRehome x y => Sys2Proof.Machine.execFenceRehome x y s
  | .telemetryFrame x => Sys2Proof.Machine.execTelemetryFrame x s
  | .telemetryLoss => Sys2Proof.Machine.execTelemetryLoss s
  | .activeCountRise => Sys2Proof.Machine.execActiveCountRise s
  | .forcedShed x => Sys2Proof.Machine.execForcedShed x s
  | .parkedSwitchOff x => Sys2Proof.Machine.execParkedSwitchOff x s
  | .coreSwitchOn x => Sys2Proof.Machine.execCoreSwitchOn x s
  | .dividerWindowEnd x => Sys2Proof.Machine.execDividerWindowEnd x s
  | .segmentVoltageReached x => Sys2Proof.Machine.execSegmentVoltageReached x s
  | .droopTrip x => Sys2Proof.Machine.execDroopTrip x s
  | .droopRecovery x => Sys2Proof.Machine.execDroopRecovery x s
  | .errorDetected x y z u v => Sys2Proof.Machine.execErrorDetected x y z u v s
  | .thermalTrip x => Sys2Proof.Machine.execThermalTrip x s
  | .managementWatchdog => Sys2Proof.Machine.execManagementWatchdog s
  | .linkLaneFailure x y => Sys2Proof.Machine.execLinkLaneFailure x y s
  | .linkDown x y => Sys2Proof.Machine.execLinkDown x y s
  | .replayDivergence x y => Sys2Proof.Machine.execReplayDivergence x y s
  | .moduleReset => Sys2Proof.Machine.execModuleReset s
  | .mbec x => Sys2Proof.Machine.execMbec x s
  | .mmioRegisterWrite x y => Sys2Proof.Machine.execMmioRegisterWrite x y s
  | .info x => Sys2Proof.Machine.execInfo x s
  | .partCreate x y => Sys2Proof.Machine.execPartCreate x y s
  | .partAssign x y z u => Sys2Proof.Machine.execPartAssign x y z u s
  | .partRelease x y z u => Sys2Proof.Machine.execPartRelease x y z u s
  | .partDestroy x => Sys2Proof.Machine.execPartDestroy x s
  | .partSet x y => Sys2Proof.Machine.execPartSet x y s
  | .vfBind x y z => Sys2Proof.Machine.execVfBind x y z s
  | .fabricAllow x y => Sys2Proof.Machine.execFabricAllow x y s
  | .krangeSet x y z u => Sys2Proof.Machine.execKrangeSet x y z u s
  | .keyZeroise x y z => Sys2Proof.Machine.execKeyZeroise x y z s
  | .preempt x y z => Sys2Proof.Machine.execPreempt x y z s
  | .abort x y => Sys2Proof.Machine.execAbort x y s
  | .restore x y => Sys2Proof.Machine.execRestore x y s
  | .pwrSet x y z u v => Sys2Proof.Machine.execPwrSet x y z u v s
  | .curveSet x y => Sys2Proof.Machine.execCurveSet x y s
  | .pwrQuery x => Sys2Proof.Machine.execPwrQuery x s
  | .recSet x y z u v => Sys2Proof.Machine.execRecSet x y z u v s
  | .recQuery x => Sys2Proof.Machine.execRecQuery x s
  | .errlogRead x y z => Sys2Proof.Machine.execErrlogRead x y z s
  | .repairHive x y => Sys2Proof.Machine.execRepairHive x y s
  | .fenceClear x y => Sys2Proof.Machine.execFenceClear x y s
  | .dumpRead x y z u => Sys2Proof.Machine.execDumpRead x y z u s
  | .dumpDiscard x y => Sys2Proof.Machine.execDumpDiscard x y s
  | .configStage x y => Sys2Proof.Machine.execConfigStage x y s
  | .getVersion => Sys2Proof.Machine.execGetVersion s
  | .getCapabilities => Sys2Proof.Machine.execGetCapabilities s
  | .negotiateAlgorithms => Sys2Proof.Machine.execNegotiateAlgorithms s
  | .getDigests => Sys2Proof.Machine.execGetDigests s
  | .getCertificate x y => Sys2Proof.Machine.execGetCertificate x y s
  | .challenge x => Sys2Proof.Machine.execChallenge x s
  | .getMeasurements x => Sys2Proof.Machine.execGetMeasurements x s
  | .keyExchange x => Sys2Proof.Machine.execKeyExchange x s
  | .finish x y => Sys2Proof.Machine.execFinish x y s
  | .heartbeat x => Sys2Proof.Machine.execHeartbeat x s
  | .keyUpdate x => Sys2Proof.Machine.execKeyUpdate x s
  | .endSession x => Sys2Proof.Machine.execEndSession x s
  | .keyOpen x y z u v => Sys2Proof.Machine.execKeyOpen x y z u v s
  | .keyWrap x y z => Sys2Proof.Machine.execKeyWrap x y z s
  | .keyLoad x => Sys2Proof.Machine.execKeyLoad x s
  | .shelfKey x y z => Sys2Proof.Machine.execShelfKey x y z s
  | .illegalEncoding x y => Sys2Proof.Machine.execIllegalEncoding x y s
  | .instructionFetchFault x y => Sys2Proof.Machine.execInstructionFetchFault x y s
  | .readReply x y z => Sys2Proof.Machine.execReadReply x y z s
  | .localMemoryPortAccess x y z u => Sys2Proof.Machine.execLocalMemoryPortAccess x y z u s
  | .hostMemoryRequest x y z => Sys2Proof.Machine.execHostMemoryRequest x y z s
  | .replayInject x => Sys2Proof.Machine.execReplayInject x s

end Sys2Proof.Machine
end

