-- ==== Sys2Proof/Machine/Issue.lean ====
section
/-! DEFINITION. The issue of one instruction by one context: when it may issue, and what a completed instruction does to the rest of its core. -/

namespace Sys2Proof.Machine

/-! ## Issue -/

/-- What follows an issued instruction: what it leaves, the slot taken, lanes waking, and the rest of the core learning of it. -/
def State.issued (t u : State) (i : Instr) : State := (((t.settled u i).takeSlot u i).wakeLanes u i).afterIssue false

/-- What follows an instruction that a context was blocked in: what it leaves, and the rest of the core learning of it. A timed
instruction waited to issue, and takes its slot now (12 R280, 19 R380). -/
def State.resumed (t u : State) (i : Instr) : State :=
  let t := t.settled u i
  (if isTimed i then t.takeSlot u i else t).afterIssue u.me.isBlocked

/-- A trap that takes the place of the acting context's next instruction: it fills a slot as an issue does, and the rest of the core
learns of it. -/
def State.trapIssued (s : State) (t : Trap) (len : BitVec 2) (vec : Bool) (u : State) : State :=
  ((takeTrap t len u).fillSlot s vec 1).afterIssue false

/-- Run a decoded instruction: it waits for an issue slot, for pending registers and for busy lines, traps on a faulty register, or has its
effect. -/
def issueInstr (i : Instr) (s : State) : Host.Outcome State Fault Refusal :=
  if hazard s.me i || !s.hasSlot i || s.linesBusy i then .next s
  else match s.badRead i with
    | some d => .next (s.trapIssued { cause := .dataError, tval := d.tval } (((encode i).headD 0).extractLsb' 0 2) (inVectorSlot i)
        (s.logError s.cur.core.die 2 2 (s.registerUnit s.cur d)))
    | none => onNext (fun t => t.issued s i) (exec i s.tries)

/-- Fetch, decode and run the instruction at the program counter. A fetch trap has LEN 00 (04 R116); an encoding that
decodes to nothing raises ILLEGAL with the words as TVAL (02 R45); both take the scalar slot. -/
def issueFetched (s : State) : Host.Outcome State Fault Refusal :=
  match s.fetch with
  | .error (.trap t u) => .next (if s.slotOpen false then s.trapIssued t 0 false u else s)
  | .error (.hold u) => .next u
  | .ok ws =>
    match decode ws with
    | .ok i => issueInstr i s
    | .error _ =>
      .next (if s.slotOpen false then
          s.trapIssued { cause := .illegal, tval := illegalTval ws } ((ws.headD 0).extractLsb' 0 2) false s
        else s)

/-- LEN of the instruction at the program counter, for a trap taken before anything issues. -/
def State.lenAtPc (s : State) : BitVec 2 :=
  match s.fetchWord s.me.pc with
  | .ok w => w.extractLsb' 0 2
  | .error _ => 0

/-- The acting context's turn to issue: a trap that waits for it first (17 R345, 16 R331), then the instruction it is
blocked in, then the instruction at its program counter. -/
def issueTurn (s : State) : Host.Outcome State Fault Refusal :=
  if !s.mayIssue then .next s
  else match s.me.pendingTrap with
    | some (t, len) => .next (takeTrap t (len.getD s.lenAtPc) (s.setMe { s.me with pendingTrap := none }))
    | none =>
      match s.me.blocked with
      | some b => if s.linesBusy b.instr then .next s else onNext (fun t => t.resumed s b.instr) (exec b.instr s)
      | none => issueFetched s

end Sys2Proof.Machine
end

