-- ==== Sys2Proof/Machine/Turns.lean ====
section
/-! DEFINITION. The turns of the agenda, and the machine's own next action when the environment names none. -/

namespace Sys2Proof.Machine

/-- Make a context the acting one and let it issue; a core that does not exist cannot. -/
def issueBy (c : CtxId) (s : State) : Host.Outcome State Fault Refusal :=
  if coreValid c.core then issueTurn { s with cur := c } else .fault .noSuchCore

/-- The pointers of levels 3 to 1 that a walk passes (17 R352). -/
def State.pointers (s : State) (p va : Nat) : List (Nat × Nat × Nat) → Nat → List PtrEntry
  | [], _ => []
  | (lv, sh, n) :: rest, base =>
    let e := s.read (base + 8 * (va / 2 ^ sh % 2 ^ n)) 8
    if bits e 63 62 = 1 ∧ lv ≠ 0 ∧ s.inRange p base (8 * 2 ^ n) then
      { level := lv, pre := va / 2 ^ sh, pte := BitVec.ofNat 64 e } :: s.pointers p va rest (bits e 56 14 * 2 ^ 14)
    else []

/-- Fill a TLB with the translation of a page, if a walk finds one, and with the hive's TLB, which has 256 sets of 8 ways (log 132), its
pointer cache; no entry of TYPE 00 or 11 is cached (17 R352). -/
def State.fillTlb (s : State) (k : CoreId) (hiveLevel : Bool) (va : Nat) : State :=
  match s.owner k with
  | none => s
  | some p =>
    match s.walk (coreHive k) p va walkLevels (s.part p).ptroot with
    | .error _ => s
    | .ok (e, sh) =>
      let x : TlbEntry := { page := va / 2 ^ sh * 2 ^ sh, log := sh, pte := e }
      if hiveLevel then
        let h := s.hive (coreHive k)
        let set (y : TlbEntry) : Nat := Config.tlbSet (y.page / 2 ^ y.log) % 256
        let others := h.tlb.filter fun y => !y.covers va
        let ways := others.filter fun y => set y == set x
        let ps := s.pointers p va walkLevels (s.part p).ptroot
        let old := h.ptrs.filter fun y => !ps.any fun z => z.level == y.level && z.pre == y.pre
        s.setHive (coreHive k) { h with
          tlb := (x :: ways.take 7) ++ others.filter fun y => set y != set x
          ptrs := (ps ++ old).take 64 }
      else
        let c := s.core k
        s.setCore k { c with tlb := (x :: c.tlb.filter fun y => !y.covers va).take (if k.big then 128 else 32) }

/-- Run one turn. An instruction of a program is issued by a context, never an occurrence of its own. -/
def runTurn (t : Turn) (s : State) : Host.Outcome State Fault Refusal :=
  match t with
  | .issue c => issueBy c s
  | .occur i => if i.payload.isNone then exec i s else .next s
  | .elapse n ticks => .next (s.pass n ticks)
  | .fillTlb k h va => .next (s.fillTlb k h va)
  | .fillCode k a => .next (s.fillCode k a)
  | .dropCode k a => .next (s.dropCode k a)
  | .command e => execCommandEntry e s
  | .hostRead fn bar off => execHostRead fn bar off s
  | .unsupportedRequest => execUnsupportedRequest s
  | .repairSlice d j => execRepairSlice d j s

/-! ## The machine's own actions (log 2) -/

/-- Something the machine may do. -/
abbrev Act := State → Host.Outcome State Fault Refusal

/-- What a context may do next: issue, or an event of its own. -/
def ctxTurns (s : State) (c : CtxId) : List Act :=
  issueBy c ::
    ([execWaitEvaluate c, execWaitTimeout c, execYieldExpiry c, execBwaitTimeout c, execSpawnTimeout c, execTaskgetTimeout c, execRgtakeTimeout c,
      execRecvTimeout c, execMatCommandAccept c, execMatCommandComplete c, execTdrainRowDispatch c, execCopyAccept c] ++
    ((List.range (s.mat c).queue.length).flatMap fun n => [execMatStep c n, execMatFault c n, execMcastWaitExpiry c n]) ++
    (List.range (s.copyQueue c).length).flatMap fun n => [execCopyChunk c n, execCopyComplete c n, execCopyFault c n])

/-- What a core may do next, its contexts apart. -/
def coreTurns (s : State) (k : CoreId) : List Act :=
  ([execHelperAssign k, execStealProbe k, execStealResponse k, execPreemptionRequest k, execCoreHalt k, execCoreSave k, execHeartbeatMiss k,
    execFenceQuiescenceTimeout k, execForcedShed k, execParkedSwitchOff k, execCoreSwitchOn k, execDividerWindowEnd k, execDroopRecovery k] ++
    windows.map (execTileLoadDone k) ++ [(0 : Fin 4), 1, 2, 3].map (execPhaseStart k) ++
    (List.range (s.core k).sendBuf.length).map (execMessageDelivery k))

/-- What a hive may do next. -/
def hiveTurns (h : HiveId) (x : Hive) : List Act :=
  (((List.range x.arriving.length).map (execShipPacketArrival h)) ++ ((List.range x.queue.length).map (execGuestIssue h)) ++
    ((List.range x.queue.length).map (execGuestAgeingExpiry h)) ++ ((List.range x.results.length).map (execShipResultLanding h)) ++
    (x.replies.map fun e => execReadReply e.1 e.2 .dataLine) ++ [execGshareUpdate h])

/-- What a die may do next. -/
def dieTurns (d : Nat) (x : Die) : List Act :=
  ((x.segments.filterMap fun e => if e.2.tripDue then some (execDroopTrip { die := d, row := e.1.1, seg := e.1.2 }) else none) ++
    ((List.range x.tokens.length).map (execBarrierTokenArrival d)) ++
    ((List.range x.releases.length).map (execBarrierReleaseArrival d)) ++
    ((List.range x.wires.length).map (execWireWordArrival d)) ++
    ((List.range x.inbox.length).map (execCrossDieMessageApply d)) ++ (x.unbeaten.map (execClockBeat d)) ++
    ((x.home ++ x.proxy).flatMap fun e =>
      e.2.acks.flatMap fun h => [execHiveInvalidation d e.1 h, execInvalidationAck d e.1 h]) ++ [execFenceSequencerTicket d])

/-- Firmware writes the notices it holds as far as the queue of a supervised partition has room (17 R348). -/
def deliverHeld (p : Nat) (s : State) : Host.Outcome State Fault Refusal :=
  .next (if s.supervised p then State.flushNotices p (s.part p).heldNotices s else s)

/-- What the launch hardware and the firmware of a partition may do next. -/
def partTurns (p : Nat) : List Act :=
  [execLotteryDraw p, execForcedHeadRetry p, execShootdownRequest p, execShootdownComplete p, execReplayInject p,
   deliverHeld p]

/-- What a resident launch may do next. -/
def launchTurns (j : Nat) (l : Launch) : List Act :=
  ([execGovernorSample j, execReplayDivergence l.part j] ++ (l.moves.map fun m => execGroupMove j m.1) ++
    ((List.range l.stages.length).map (execStageComplete j)) ++
    l.groups.flatMap fun g => [execCollRoundComplete j g.1, execGroupGenerationDrain j g.1])

/-- Everything the machine may do next of its own. -/
def ownTurns (s : State) : List Act :=
  (s.cores.flatMap fun e => coreTurns s e.1 ++ e.2.live.flatMap fun i => ctxTurns s { core := e.1, num := i }) ++
    (s.hives.flatMap fun e => hiveTurns e.1 e.2) ++ (s.dies.flatMap fun e => dieTurns e.1 e.2) ++
    ((List.range s.spawns.length).map fun n => execSpawnatDelivery n) ++ (s.parts.flatMap fun e => partTurns e.1) ++
    (s.launches.flatMap fun e => launchTurns e.1 e.2) ++ [execTelemetryLoss, execActiveCountRise]

/-- The machine's own next action: one of its own acts, as Config.choose says, or the passing of time. -/
def ownAction (s : State) : Host.Outcome State Fault Refusal :=
  let t := s.fresh.2
  let ts := ownTurns s
  match ts[Config.choose s.free % (ts.length + 1)]? with
  | some act => act t
  | none => .next (t.pass (Config.idle s.free).1 (Config.idle s.free).2)

end Sys2Proof.Machine
end

