-- ==== Sys2Proof/Machine/Step.lean ====
section
/-! DEFINITION. One step of the machine, and a word placed where the next step fetches. -/

namespace Sys2Proof.Machine

/-- One step: the first turn of the agenda, or, with an empty agenda, the machine's own next action (log 2). -/
def step (s : State) : Host.Outcome State Fault Refusal :=
  match s.agenda with
  | t :: rest => runTurn t { s with agenda := rest }
  | [] => ownAction s

/-- `s` with an instruction stored where the next step fetches: in the local memory of core 0:0:0, whose control
context runs it next (log 4). The bits of `w` above `nbits` are 0, as are the words after it, up to five words. -/
def State.withFetchWord (s : State) (nbits w : Nat) : State :=
  let a := localAddr core0.core 0
  let k := s.core core0.core
  let m := s.ctx core0
  let s := s.write a 20 (w % 2 ^ nbits)
  { s.setCore core0.core
      { k with
        status := .running
        parkedSince := none
        icache := []
        transfer := none
        scalarAt := none
        vectorAt := none
        droop := none
        ctxs := k.ctxs.set 0
          { m with
            live := true, pc := BitVec.ofNat 64 a, blocked := none, stopped := false, parked := false,
            yielding := none, pendingTrap := none, pendS := 0, pendV := 0, pendP := 0
            creditWait := false, nextIssue := 0, wakeAt := none } }
    with cur := core0, agenda := .issue core0 :: s.agenda }

end Sys2Proof.Machine
end

