-- ==== Sys2Proof/Safety.lean ====
section
/-! DEFINITION. What counts as a safe run, in the terms the statements use: the invariant of the state that every step
keeps. -/

namespace Sys2Proof.Machine

/-- A program counter, a saved program counter of a mode change, and a handler address are aligned to 4 (02 R31,
04 Table 4.15). -/
def Context.aligned (m : Context) : Prop := m.pc.extractLsb' 0 2 = 0#2 ∧ m.tvec.extractLsb' 0 2 = 0#2

/-- The invariant: memory keeps its canonical form. -/
def State.Inv (s : State) : Prop := Memory.wf s = true

end Sys2Proof.Machine
end

