-- ==== Sys2Proof/Certificates/Slice0/Obligations.lean ====
section
/-! DEFINITION. The statements for the provers, with the words they are written in. -/

namespace Sys2Proof.Claims

open Sys2Proof.Machine

/-! ## What an instruction leaves as it was -/

/-- Nothing outside the acting context changed. -/
structure MeOnly (s t : State) : Prop where
  rest : t = { s with cores := t.cores }
  cores : ∀ k, t.core k = { s.core k with ctxs := (t.core k).ctxs }
  others : ∀ c, c ≠ s.cur → t.ctx c = s.ctx c

/-- Nothing outside the acting context and memory changed; `poisoned`, the marks of faulty bytes, goes with memory, and
`wins`, the DIRTY marks of windows, with the local memories. -/
structure MeAndMemory (s t : State) : Prop where
  rest : t = { s with cores := t.cores, mem := t.mem, poisoned := t.poisoned }
  cores : ∀ k, t.core k = { s.core k with ctxs := (t.core k).ctxs, wins := (t.core k).wins }
  others : ∀ c, c ≠ s.cur → t.ctx c = s.ctx c

/-- Words of an instruction of a form (02 Table 2.1). -/
def wordsOf : Form → Nat
  | .base => 1
  | .lit _ => 3
  | .ext _ _ => 3
  | .extLit _ _ _ => 5

/-- The instruction is over: the acting context is past its `n` words and waits for nothing. -/
def Past (s t : State) (n : Nat) : Prop := t.me.pc = s.me.pc + BitVec.ofNat 64 (4 * n) ∧ t.me.blocked = none

/-- The scalar registers after S[d] := v; s0 discards the write. -/
def ScalarsAfter (s t : State) (d : Reg) (v : Word) : Prop :=
  ∀ r, t.me.getS r = if r = 0 then 0 else if r = d then v else s.me.getS r

/-- The speculative-load table once another instruction has written S[d] (04 R108). -/
def SpecAfter (s t : State) (d : Reg) : Prop :=
  t.me.spec = if d = 0 then s.me.spec else s.me.spec.map fun e => if e.reg = d then { e with valid := false } else e

/-- Of the acting context, nothing changed but the scalar registers, the speculative-load table, FCTL and the pc. -/
def ScalarFrame (s t : State) : Prop :=
  t.me = { s.me with s := t.me.s, spec := t.me.spec, fctl := t.me.fctl, pc := t.me.pc, blocked := t.me.blocked }

/-- A scalar instruction has written v to S[d] and raised the flags fl when active; inactive, it has zeroed S[d] when Z = 1
and left it otherwise (02 R39). -/
def ScalarDone (s t : State) (f : Form) (d : Reg) (v : Word) (fl : Flags) : Prop :=
  MeOnly s t ∧ ScalarFrame s t ∧ Past s t (wordsOf f) ∧
    (if f.active s.me then
      ScalarsAfter s t d v ∧ SpecAfter s t d ∧ t.me.fctl = s.me.fctl ||| fl.setWidth 64
     else if f.zeroes then ScalarsAfter s t d 0 ∧ SpecAfter s t d ∧ t.me.fctl = s.me.fctl
     else (∀ r, t.me.getS r = s.me.getS r) ∧ t.me.spec = s.me.spec ∧ t.me.fctl = s.me.fctl)

/-- Running `i` in `s` completes with a scalar result. -/
def GivesScalar (s : State) (i : Instr) (f : Form) (d : Reg) (v : Word) (fl : Flags := 0) : Prop :=
  ∃ t, exec i s = .next t ∧ ScalarDone s t f d v fl

/-! ## Arithmetic at the width of MOD (04 Table 4.1) -/

/-- An operation on words of the width MOD gives; the result is extended as MOD gives. -/
def atWidth (md : BitVec 4) (g : (w : Nat) → BitVec w → BitVec w → BitVec w) (a b : Word) : Word :=
  if md.getLsbD 1 then
    let r := g 32 (a.setWidth 32) (b.setWidth 32)
    if md.getLsbD 0 then r.setWidth 64 else r.signExtend 64
  else g 64 a b

/-- An operation that is another one on signed operands. -/
def atSign (md : BitVec 4) (signed unsigned : (w : Nat) → BitVec w → BitVec w → BitVec w) (a b : Word) : Word :=
  atWidth md (if md.getLsbD 0 then unsigned else signed) a b

/-- An operand as a number. -/
def valueOf (md : BitVec 4) (a : Word) : Int :=
  if md.getLsbD 1 then (if md.getLsbD 0 then ((a.setWidth 32).toNat : Int) else (a.setWidth 32).toInt)
  else if md.getLsbD 0 then (a.toNat : Int) else a.toInt

/-- The least and the greatest number of the type MOD gives. -/
def rangeOf (md : BitVec 4) : Int × Int :=
  let w := if md.getLsbD 1 then 32 else 64
  if md.getLsbD 0 then (0, 2 ^ w - 1) else (-(2 ^ (w - 1)), 2 ^ (w - 1) - 1)

/-- A number as a result of the type MOD gives: its low bits, extended. -/
def resultOf (md : BitVec 4) (x : Int) : Word :=
  if md.getLsbD 1 then (if md.getLsbD 0 then (BitVec.ofInt 32 x).setWidth 64 else (BitVec.ofInt 32 x).signExtend 64)
  else BitVec.ofInt 64 x

/-- A number clamped to the type MOD gives. -/
def clampTo (md : BitVec 4) (x : Int) : Int := max (rangeOf md).1 (min (rangeOf md).2 x)

/-- The least and the greatest of two words. -/
def leastS (w : Nat) (a b : BitVec w) : BitVec w := if a.sle b then a else b
/-- Unsigned. -/
def leastU (w : Nat) (a b : BitVec w) : BitVec w := if a.ule b then a else b
/-- Signed. -/
def mostS (w : Nat) (a b : BitVec w) : BitVec w := if a.sle b then b else a
/-- Unsigned. -/
def mostU (w : Nat) (a b : BitVec w) : BitVec w := if a.ule b then b else a

/-- 1 or 0. -/
def flagWord (b : Bool) : Word := if b then 1 else 0

end Sys2Proof.Claims

open Sys2Proof Sys2Proof.Machine Sys2Proof.Claims

/-- 04 R85, R86, Table 4.2: what every ALU instruction without SAT writes, at either width and signedness, active or not, with
its frame. Shift counts are taken modulo the width. -/
def Sys2Proof.Claims.AluResults : Prop :=
  ∀ (s : State) (x : RForm), x.form.sat = false →
    let a := s.me.getS x.a
    let b := x.opB s.me
    let gives (i : Instr) (v : Word) : Prop := GivesScalar s i x.form x.d v
    gives (.add x) (atWidth x.mod (fun _ a b => a + b) a b) ∧
    gives (.sub x) (atWidth x.mod (fun _ a b => a - b) a b) ∧
    gives (.and x) (atWidth x.mod (fun _ a b => a &&& b) a b) ∧
    gives (.or x) (atWidth x.mod (fun _ a b => a ||| b) a b) ∧
    gives (.xor x) (atWidth x.mod (fun _ a b => a ^^^ b) a b) ∧
    gives (.andn x) (atWidth x.mod (fun _ a b => a &&& ~~~b) a b) ∧
    gives (.orn x) (atWidth x.mod (fun _ a b => a ||| ~~~b) a b) ∧
    gives (.sll x) (atWidth x.mod (fun w a b => a <<< (b.toNat % w)) a b) ∧
    gives (.srl x) (atWidth x.mod (fun w a b => a >>> (b.toNat % w)) a b) ∧
    gives (.sra x) (atWidth x.mod (fun w a b => a.sshiftRight (b.toNat % w)) a b) ∧
    gives (.rol x) (atWidth x.mod (fun w a b => a.rotateLeft (b.toNat % w)) a b) ∧
    gives (.ror x) (atWidth x.mod (fun w a b => a.rotateRight (b.toNat % w)) a b) ∧
    gives (.min x) (atSign x.mod leastS leastU a b) ∧
    gives (.max x) (atSign x.mod mostS mostU a b) ∧
    gives (.minn x) (atSign x.mod leastS leastU a b) ∧
    gives (.maxn x) (atSign x.mod mostS mostU a b) ∧
    gives (.slt x) (flagWord (valueOf x.mod a < valueOf x.mod b)) ∧
    gives (.sltn x) (flagWord (valueOf x.mod a < valueOf x.mod b)) ∧
    gives (.seq x) (flagWord (valueOf x.mod a = valueOf x.mod b)) ∧
    gives (.sne x) (flagWord (valueOf x.mod a ≠ valueOf x.mod b)) ∧
    gives (.csel x) (resultOf x.mod (valueOf x.mod (if s.me.getS x.form.c ≠ 0 then a else b)))

/-- 04 R86: with SAT the exact sum or difference is clamped to its type, and SX is raised exactly when that changes it. -/
def Sys2Proof.Claims.AluSaturates : Prop :=
  ∀ (s : State) (x : RForm), x.form.sat = true →
    let a := valueOf x.mod (s.me.getS x.a)
    let b := valueOf x.mod (x.opB s.me)
    let gives (i : Instr) (y : Int) : Prop :=
      GivesScalar s i x.form x.d (resultOf x.mod (clampTo x.mod y)) (if clampTo x.mod y = y then 0 else fSX)
    gives (.add x) (a + b) ∧ gives (.sub x) (a - b)

/-- 04 R87, Table 4.3: the immediate instructions; all are 64 bits wide. ADDI with SAT clamps as .i64. -/
def Sys2Proof.Claims.ImmediateResults : Prop :=
  ∀ (s : State) (x : IForm),
    let a := s.me.getS x.a
    let i := x.value
    let gives (n : Instr) (v : Word) : Prop := GivesScalar s n x.form x.d v
    let y := a.toInt + i.toInt
    (if x.form.sat then
      GivesScalar s (.addi x) x.form x.d (BitVec.ofInt 64 (clampTo 0 y)) (if clampTo 0 y = y then 0 else fSX)
     else gives (.addi x) (a + i)) ∧
    gives (.andi x) (a &&& i) ∧ gives (.ori x) (a ||| i) ∧ gives (.xori x) (a ^^^ i) ∧
    (i.toNat ≤ 63 → gives (.slli x) (BitVec.ofNat 64 (a.toNat * 2 ^ i.toNat)) ∧
      gives (.srli x) (BitVec.ofNat 64 (a.toNat / 2 ^ i.toNat)) ∧
      gives (.srai x) (BitVec.ofInt 64 (a.toInt / 2 ^ i.toNat)) ∧ gives (.rori x) (a >>> i.toNat ||| a <<< (64 - i.toNat))) ∧
    gives (.slti x) (flagWord (a.toInt < i.toInt)) ∧ gives (.sltni x) (flagWord (a.toNat < i.toNat)) ∧
    gives (.seqi x) (flagWord (a = i)) ∧ gives (.li x) i

/-- 04 R85 to R87: every ALU instruction, without SAT and with it, and every immediate one. -/
def Obligations.AluResults : Prop :=
  Sys2Proof.Claims.AluResults ∧ Sys2Proof.Claims.AluSaturates ∧ Sys2Proof.Claims.ImmediateResults

/-- 04 R88, R89, Table 4.4: multiplication and division without SAT. A division by zero writes all ones and a remainder by zero
the dividend; the quotient of the least number by -1 wraps. -/
def Sys2Proof.Claims.MultiplyDivideResults : Prop :=
  ∀ (s : State) (x : RForm), x.form.sat = false →
    let a := valueOf x.mod (s.me.getS x.a)
    let b := valueOf x.mod (x.opB s.me)
    let c := valueOf x.mod (s.me.getS x.form.c)
    let half : Int := if x.mod.getLsbD 1 then 2 ^ 32 else 2 ^ 64
    let gives (i : Instr) (y : Int) : Prop := GivesScalar s i x.form x.d (resultOf x.mod y)
    gives (.mul x) (a * b) ∧ gives (.mulh x) (a * b / half) ∧ gives (.mulhn x) (a * b / half) ∧
    gives (.madd x) (a * b + c) ∧
    gives (.div x) (if b = 0 then -1 else a.tdiv b) ∧ gives (.divn x) (if b = 0 then -1 else a.tdiv b) ∧
    gives (.rem x) (if b = 0 then a else a.tmod b) ∧ gives (.remn x) (if b = 0 then a else a.tmod b)

/-- 04 R86, R89: with SAT the exact product, sum or quotient is clamped to its type, and SX is raised exactly when that changes
it. With a divisor of 0, SAT changes nothing and sets no flag. -/
def Sys2Proof.Claims.MultiplyDivideSaturates : Prop :=
  ∀ (s : State) (x : RForm), x.form.sat = true →
    let a := valueOf x.mod (s.me.getS x.a)
    let b := valueOf x.mod (x.opB s.me)
    let c := valueOf x.mod (s.me.getS x.form.c)
    let gives (i : Instr) (y : Int) : Prop :=
      GivesScalar s i x.form x.d (resultOf x.mod (clampTo x.mod y)) (if clampTo x.mod y = y then 0 else fSX)
    gives (.mul x) (a * b) ∧ gives (.madd x) (a * b + c) ∧ (b ≠ 0 → gives (.div x) (a.tdiv b)) ∧
      (b = 0 → GivesScalar s (.div x) x.form x.d (resultOf x.mod (-1)))

/-- 04 R91, R92, Table 4.5: counts, reversals, fields and extensions. The field instructions are given bit by bit. -/
def Sys2Proof.Claims.BitResults : Prop :=
  ∀ (s : State) (x : RForm),
    let a := s.me.getS x.a
    let c := x.opB s.me
    let pos := (c.extractLsb' 0 6).toNat
    let w := (c.extractLsb' 8 6).toNat + 1
    let gives (i : Instr) (v : Word) : Prop := GivesScalar s i x.form x.d v
    let bitwise (i : Instr) (g : Nat → Bool) : Prop := ∃ v, gives i v ∧ ∀ j, j < 64 → v.getLsbD j = g j
    gives (.clz x) (atWidth x.mod (fun w a _ => BitVec.ofNat w a.clz.toNat) a 0) ∧
    gives (.ctz x) (atWidth x.mod (fun w a _ => BitVec.ofNat w a.ctz.toNat) a 0) ∧
    gives (.popc x) (atWidth x.mod (fun w a _ => BitVec.ofNat w a.cpop.toNat) a 0) ∧
    gives (.brev x) (atWidth x.mod (fun _ a _ => a.reverse) a 0) ∧
    (∃ v, gives (.bswap x) v ∧ ∀ j, j < 8 →
      v.extractLsb' (8 * j) 8 =
        if x.mod.getLsbD 1 then
          (if j < 4 then a.extractLsb' (24 - 8 * j) 8 else if x.mod.getLsbD 0 then 0 else if a.getLsbD 7 then 255 else 0)
        else a.extractLsb' (56 - 8 * j) 8) ∧
    bitwise (.bfxn x) (fun j => decide (j < w) && a.getLsbD (pos + j)) ∧
    bitwise (.bfx x) (fun j => a.getLsbD (min (pos + min j (w - 1)) 63)) ∧
    bitwise (.bfi x) (fun j => if pos ≤ j ∧ j < pos + w then a.getLsbD (j - pos) else (s.me.getS x.d).getLsbD j) ∧
    (x.mod = 0 → gives (.sext x) ((a.setWidth 8).signExtend 64) ∧ gives (.zext x) ((a.setWidth 8).setWidth 64)) ∧
    (x.mod = 1 → gives (.sext x) ((a.setWidth 16).signExtend 64) ∧ gives (.zext x) ((a.setWidth 16).setWidth 64)) ∧
    (x.mod = 2 → gives (.sext x) ((a.setWidth 32).signExtend 64) ∧ gives (.zext x) ((a.setWidth 32).setWidth 64))

/-- 04 R88 to R92: multiplication and division, without SAT and with it, and the bit instructions. -/
def Obligations.MultiplyDivideResults : Prop :=
  Sys2Proof.Claims.MultiplyDivideResults ∧ Sys2Proof.Claims.MultiplyDivideSaturates ∧ Sys2Proof.Claims.BitResults

namespace Sys2Proof.Claims

/-- The instruction wrote v to S[d] whatever its mask, and changed nothing else but the pc. -/
def WroteScalar (s t : State) (n : Nat) (d : Reg) (v : Word) : Prop :=
  MeOnly s t ∧ ScalarFrame s t ∧ Past s t n ∧ ScalarsAfter s t d v ∧ SpecAfter s t d ∧ t.me.fctl = s.me.fctl

/-- The acting context moved past its instruction and nothing else changed. -/
def OnlyPast (s t : State) (n : Nat) : Prop :=
  MeOnly s t ∧ Past s t n ∧ t.me = { s.me with pc := t.me.pc, blocked := t.me.blocked }

/-- Running `i` in `s` completes, with what P says of the next state. -/
def Completes (s : State) (i : Instr) (P : State → Prop) : Prop := ∃ t, exec i s = .next t ∧ P t

/-- The acting context has taken a trap (04 R116): only it changed, and every register it does not name is as before. -/
def Entered (s t : State) (c : Cause) (v : Word) (len : BitVec 2) : Prop :=
  MeOnly s t ∧
    t.me = { s.me with
      tpc := s.me.pc, tval := v, tcode := BitVec.ofNat 6 c.code, tlen := len, tpm := s.me.sup, sup := true, tinh := true,
      pc := s.me.tvec, blocked := none, spec := s.me.spec.map fun e => { e with valid := false } }

/-- Running `i` in `s` takes a trap. -/
def Traps (s : State) (i : Instr) (c : Cause) (v : Word) (len : BitVec 2) : Prop :=
  Completes s i fun t => Entered s t c v len

/-- The system registers an MFS can read (04 Table 4.12). -/
def readable (n : Nat) : Bool :=
  [0, 1, 2, 8, 9, 10, 11, 12, 16, 17, 24, 25, 26, 32].contains n || (decide (40 ≤ n) && decide (n ≤ 51)) ||
    (decide (56 ≤ n) && decide (n ≤ 59))

end Sys2Proof.Claims

/-- 04 R110, R112, R113, Table 4.11: NOP has no effect, TIME and CYCLE read their counts, BEAT sets the heartbeat timer to 0. -/
def Sys2Proof.Claims.NopTimeCycleBeat : Prop :=
  ∀ (s : State) (x : RForm),
    Completes s .nop (OnlyPast s · 1) ∧ Completes s .nopX (OnlyPast s · 3) ∧
    Completes s (.time x) (WroteScalar s · (wordsOf x.form) x.d (BitVec.ofNat 64 s.refCount)) ∧
    Completes s (.cycle x) (WroteScalar s · (wordsOf x.form) x.d (BitVec.ofNat 64 (s.core s.cur.core).cycles)) ∧
    ∀ i n, (i, n) = (Instr.beat, 1) ∨ (i, n) = (Instr.beatX, 3) → Completes s i fun t =>
      t = { s with cores := t.cores } ∧ Past s t n ∧ t.me = { s.me with pc := t.me.pc, blocked := t.me.blocked } ∧
      (∀ c, c ≠ s.cur → t.ctx c = s.ctx c) ∧
      (∀ k, t.core k = { s.core k with
        ctxs := (t.core k).ctxs, hbTimer := if k = s.cur.core then 0 else (s.core k).hbTimer })

/-- 04 R110, R111: MFS reads the register its number names: in supervisor mode every one of Table 4.12, in user mode all but
TVEC, TCAUSE, TPC, TVAL and TSCR. FCTL is read once no earlier flag is outstanding. BGn of a big core reads 0 (12 R271). -/
def Obligations.MfsReads : Prop :=
  ∀ (s : State) (x : RForm),
    let n := x.sysReg
    let m := s.me
    let k := s.core s.cur.core
    (m.sup = true ∨ ¬(8 ≤ n ∧ n ≤ 12)) → readable n = true → (n = 0 → m.flagQueue = []) →
    Completes s (.mfs x) fun t => ∃ v, WroteScalar s t (wordsOf x.form) x.d v ∧
      (n = 0 → v = m.fctl) ∧ (n = 1 → v = BitVec.ofNat 64 (coreIdBits s.cur)) ∧ (n = 2 → v = m.lampcls.setWidth 64) ∧
      (n = 8 → v = m.tvec) ∧ (n = 10 → v = m.tpc) ∧ (n = 11 → v = m.tval) ∧ (n = 12 → v = m.tscr) ∧
      (n = 9 → v.extractLsb' 0 6 = m.tcode ∧ v.extractLsb' 26 2 = m.tlen ∧ v.getLsbD 29 = m.sup ∧ v.getLsbD 30 = m.tpm ∧
        v.getLsbD 31 = m.tinh) ∧
      (n = 16 → v = k.hbint.setWidth 64) ∧
      (n = 17 → v = BitVec.ofNat 64 ((s.hive (coreHive s.cur.core)).gshareM * 256 + (s.hive (coreHive s.cur.core)).gshareK)) ∧
      (n = 24 → v = m.rasp) ∧ (n = 25 → v = m.rasl) ∧ (n = 26 → v = m.rasn.setWidth 64) ∧ (n = 32 → v = k.ovfring) ∧
      (∀ j : Fin 8, n = 40 + j.val → v = k.wins[j].word) ∧ (∀ j : Fin 4, n = 48 + j.val → v = m.dist[j]) ∧
      (∀ j : Fin 4, n = 56 + j.val → v = if s.cur.core.big then 0 else k.bgs[j].word)

/-- 04 R111: in user mode MFS of TVEC to TSCR, and MTS of those and of HBINT, GSHARE, OVFRING, WINn and BGn, raise PRIVILEGED
with TVAL holding word 0, and write nothing. -/
def Sys2Proof.Claims.SystemRegistersPrivileged : Prop :=
  ∀ (s : State) (x : RForm),
    let n := x.sysReg
    s.me.sup = false → s.me.tinh = false →
    (8 ≤ n ∧ n ≤ 12 → Traps s (.mfs x) .privileged (((encode (.mfs x)).headD 0).setWidth 64) x.form.len) ∧
    ((8 ≤ n ∧ n ≤ 12) ∨ n = 16 ∨ n = 17 ∨ n = 32 ∨ (40 ≤ n ∧ n ≤ 47) ∨ (56 ≤ n ∧ n ≤ 59) →
      Traps s (.mts x) .privileged (((encode (.mts x)).headD 0).setWidth 64) x.form.len)

/-- 04 R111: MTS of a register of the acting context writes the whole register, its reserved bits 0, and changes no general
register, nothing of memory and no other context. RM 000 and 111 of FCTL are stored as 001 (03 Table 3.6). -/
def Sys2Proof.Claims.MtsWrites : Prop :=
  ∀ (s : State) (x : RForm),
    let n := x.sysReg
    let v := s.me.getS x.a
    (s.me.sup = true ∨ ¬(8 ≤ n ∧ n ≤ 12)) → n = 0 ∨ (8 ≤ n ∧ n ≤ 12) ∨ (24 ≤ n ∧ n ≤ 26) ∨ (48 ≤ n ∧ n ≤ 51) →
    (n = 0 → s.me.flagQueue = []) →
    Completes s (.mts x) fun t =>
      MeOnly s t ∧ Past s t (wordsOf x.form) ∧ t.me.s = s.me.s ∧ t.me.v = s.me.v ∧ t.me.p = s.me.p ∧ t.me.sup = s.me.sup ∧
      (n = 0 → t.me.fctl.extractLsb' 0 6 = v.extractLsb' 0 6 ∧ t.me.fctl.extractLsb' 8 5 = v.extractLsb' 8 5 ∧
        t.me.fctl.extractLsb' 16 3 = (if v.extractLsb' 16 3 = 0 ∨ v.extractLsb' 16 3 = 7 then 1 else v.extractLsb' 16 3) ∧
        t.me.fctl &&& 0xfffffffffff8e0c0#64 = 0) ∧
      (n ≠ 0 → t.me.fctl = s.me.fctl) ∧
      t.me.tvec = (if n = 8 then v &&& ~~~3#64 else s.me.tvec) ∧
      t.me.tpc = (if n = 10 then v else s.me.tpc) ∧ t.me.tval = (if n = 11 then v else s.me.tval) ∧
      t.me.tscr = (if n = 12 then v else s.me.tscr) ∧
      (if n = 9 then t.me.tcode = v.extractLsb' 0 6 ∧ t.me.tlen = v.extractLsb' 26 2 ∧ t.me.tpm = v.getLsbD 30 ∧
        t.me.tinh = v.getLsbD 31
       else t.me.tcode = s.me.tcode ∧ t.me.tlen = s.me.tlen ∧ t.me.tpm = s.me.tpm ∧ t.me.tinh = s.me.tinh) ∧
      t.me.rasp = (if n = 24 then v &&& ~~~7#64 else s.me.rasp) ∧
      t.me.rasl = (if n = 25 then v &&& ~~~7#64 else s.me.rasl) ∧
      t.me.rasn = (if n = 26 then v.setWidth 32 else s.me.rasn) ∧ t.me.ras = s.me.ras ∧
      (∀ j : Fin 4, t.me.dist[j] = if n = 48 + j.val then v &&& 0x7ffffffffffff#64 else s.me.dist[j])

/-- 04 R111: in supervisor mode MTS of a register of the core or the hive writes it whole: HBINT, OVFRING without its reserved bits,
WINn, where a written STATE of 10 stores 01 (11 R263), and BGn of a little core; BGn of a big core takes nothing (12 R271). A write of
GSHARE, M = 2 and K = 1 in place of M = 0 or of K above M, sets out for the big core (06 R153). Nothing else changes but the pc. -/
def Sys2Proof.Claims.MtsCoreRegisters : Prop :=
  ∀ (s : State) (x : RForm),
    let n := x.sysReg
    let v := s.me.getS x.a
    let vm := (v.extractLsb' 8 8).toNat
    let vk := (v.extractLsb' 0 8).toNat
    let c := s.cur.core
    s.me.sup = true → n = 16 ∨ n = 17 ∨ n = 32 ∨ (40 ≤ n ∧ n ≤ 47) ∨ (56 ≤ n ∧ n ≤ 59) →
    Completes s (.mts x) fun t =>
      t = { s with cores := t.cores, hives := t.hives } ∧ Past s t (wordsOf x.form) ∧
      t.me = { s.me with pc := t.me.pc, blocked := t.me.blocked } ∧ (∀ c', c' ≠ s.cur → t.ctx c' = s.ctx c') ∧
      (∀ k, t.core k = { s.core k with
        ctxs := (t.core k).ctxs, hbint := (t.core k).hbint, ovfring := (t.core k).ovfring, wins := (t.core k).wins, bgs := (t.core k).bgs }) ∧
      (∀ k, (t.core k).hbint = if k = c ∧ n = 16 then v.setWidth 32 else (s.core k).hbint) ∧
      (∀ k, (t.core k).ovfring = if k = c ∧ n = 32 then v &&& 0xfdffffffffffffe0#64 else (s.core k).ovfring) ∧
      (∀ k, ∀ j : Fin 8, if k = c ∧ n = 40 + j.val then
          (t.core k).wins[j] = { (s.core k).wins[j] with word := ((t.core k).wins[j]).word } ∧
          (∀ i, i < 62 → ((t.core k).wins[j]).word.getLsbD i = (v.getLsbD i && decide (i ≠ 19))) ∧
          ((t.core k).wins[j]).word.extractLsb' 62 2 = if v.extractLsb' 62 2 = 2 then 1 else v.extractLsb' 62 2
        else (t.core k).wins[j] = (s.core k).wins[j]) ∧
      (∀ k, ∀ j : Fin 4, (t.core k).bgs[j] =
        if k = c ∧ n = 56 + j.val ∧ c.big = false then { (s.core k).bgs[j] with word := v &&& ~~~0x3fffc0000000#64 } else (s.core k).bgs[j]) ∧
      (∀ h, t.hive h = { s.hive h with
        gshareNext := if h = coreHive c ∧ n = 17 then
            (s.hive h).gshareNext ++ [((if vm = 0 ∨ vm < vk then 2 else vm), (if vm = 0 ∨ vm < vk then 1 else vk), s.dieCycle)]
          else (s.hive h).gshareNext })

/-- 04 R111: what MTS writes, and which MFS and MTS user mode may not execute. -/
def Obligations.MtsWrites : Prop :=
  Sys2Proof.Claims.SystemRegistersPrivileged ∧ Sys2Proof.Claims.MtsWrites ∧ Sys2Proof.Claims.MtsCoreRegisters

/-- 04 R115, R116: a taken trap saves the instruction address, the value, the cause, the length and the mode, enters
supervisor mode with INH set, invalidates the speculative-load table and goes to TVEC. It leaves memory, the general
registers and every other context as they are; only a page fault or an access fault at a global address drops the cached
translations of that page (17 R352). -/
def Sys2Proof.Claims.TrapEntry : Prop :=
  ∀ (s : State) (x : Trap) (len : BitVec 2), s.me.tinh = false →
    let t := takeTrap x len s
    t.me = { s.me with
      tpc := s.me.pc, tval := x.tval, tcode := BitVec.ofNat 6 x.cause.code, tlen := len, tpm := s.me.sup, sup := true,
      tinh := true, pc := s.me.tvec, blocked := none, spec := s.me.spec.map fun e => { e with valid := false } } ∧
    t = { s with cores := t.cores, hives := t.hives } ∧ (∀ c, c ≠ s.cur → t.ctx c = s.ctx c) ∧
    (∀ k, t.core k = { s.core k with ctxs := (t.core k).ctxs, tlb := (t.core k).tlb }) ∧
    (∀ h, t.hive h = { s.hive h with tlb := (t.hive h).tlb }) ∧
    ((x.cause ≠ .pageFault ∧ x.cause ≠ .access) ∨ bits x.tval.toNat 63 60 ≠ 0 → MeOnly s t)

/-- 04 R117: a trap condition with INH = 1 takes no trap: the context stops before the instruction, its registers unchanged. -/
def Sys2Proof.Claims.DoubleTrapStops : Prop :=
  ∀ (s : State) (x : Trap) (len : BitVec 2), s.me.tinh = true →
    (takeTrap x len s).me = { s.me with stopped := true, blocked := none }

/-- 04 R110, Table 4.14: TRAP takes BREAK with its code as TVAL. -/
def Sys2Proof.Claims.TrapTakesBreak : Prop :=
  ∀ (s : State) (x : RForm), s.me.tinh = false →
    Traps s (.trap x) .breakTrap (if x.form.isExt then x.form.e2.setWidth 64 else (x.mod ++ x.b).setWidth 64) x.form.len

/-- 04 R110, R112, R113, Tables 4.11 and 4.14: NOP, TIME, CYCLE, BEAT and TRAP. -/
def Obligations.SystemInstructions : Prop :=
  Sys2Proof.Claims.NopTimeCycleBeat ∧ Sys2Proof.Claims.TrapTakesBreak

/-- 04 R116, R31: ERET returns to TPC in the mode TCAUSE.PM holds and clears INH, in supervisor mode; in user mode it raises
PRIVILEGED, and a TPC that is not a multiple of 4 raises MISALIGNED. -/
def Sys2Proof.Claims.EretReturns : Prop :=
  ∀ (s : State) (i : Instr) (len : BitVec 2), (i, len) = (.eret, 0) ∨ (i, len) = (.eretX, 2) →
    (s.me.sup = true → s.me.tpc.toNat % 4 = 0 → Completes s i fun t => MeOnly s t ∧
      t.me = { s.me with
        sup := s.me.tpm, tinh := false, pc := s.me.tpc, blocked := none,
        spec := s.me.spec.map fun e => { e with valid := false } }) ∧
    (s.me.sup = true → s.me.tpc.toNat % 4 ≠ 0 → s.me.tinh = false → Traps s i .misaligned s.me.tpc len) ∧
    (s.me.sup = false → s.me.tinh = false → Traps s i .privileged (((encode i).headD 0).setWidth 64) len)

/-- 04 R116: what a trap changed, ERET at a handler that ran no instruction reverses: the mode, INH and the pc. -/
def Sys2Proof.Claims.EretReversesTrap : Prop :=
  ∀ (s : State) (x : Trap) (len : BitVec 2), s.me.tinh = false → s.me.pc.toNat % 4 = 0 →
    Completes (takeTrap x len s) .eret fun t =>
      t.me.sup = s.me.sup ∧ t.me.tinh = false ∧ t.me.pc = s.me.pc ∧ t.me.s = s.me.s ∧ t.me.v = s.me.v ∧ t.me.p = s.me.p ∧
      t.me.fctl = s.me.fctl ∧ t.mem = s.mem

/-- 04 R115 to R117: taking a trap, a double trap, and ERET. -/
def Obligations.TrapsAndReturns : Prop :=
  Sys2Proof.Claims.TrapEntry ∧ Sys2Proof.Claims.DoubleTrapStops ∧ Sys2Proof.Claims.EretReturns ∧ Sys2Proof.Claims.EretReversesTrap

/-- 04 R100, R101, R102: branches and jumps go to their target when taken and past themselves otherwise; nothing else changes.
An indirect jump to an address that is not a multiple of 4 raises MISALIGNED with the target as TVAL (02 R31). -/
def Obligations.BranchesAndJumps : Prop :=
  ∀ (s : State) (b : BForm) (j : JForm) (r : RForm),
    let m := s.me
    let goes (t : State) (pc : Word) : Prop := MeOnly s t ∧ t.me = { m with pc := pc, blocked := none }
    let past (f : Form) : Word := m.pc + BitVec.ofNat 64 (4 * wordsOf f)
    let x := m.getS b.a
    let y := m.getS b.b
    let p := m.getP (b.a.setWidth 3)
    let target := m.pc + 4 * (if b.form.isExt then b.form.e2.signExtend 64 else b.disp.signExtend 64)
    (∀ c : Bool, (b.cond = 0 → c = decide (x = y)) → (b.cond = 1 → c = decide (x ≠ y)) → (b.cond = 2 → c = decide (x.toInt < y.toInt)) →
      (b.cond = 3 → c = decide (y.toInt ≤ x.toInt)) → (b.cond = 4 → c = decide (x.toNat < y.toNat)) →
      (b.cond = 5 → c = decide (y.toNat ≤ x.toNat)) → b.cond.toNat < 6 →
      Completes s (.bcc b) fun t => goes t (if c then target else past b.form)) ∧
    (∀ c : Bool, (b.cond = 8 → c = decide (p ≠ 0)) → (b.cond = 9 → c = decide (p = 0)) → (b.cond = 10 → c = p.getLsbD 0) →
      (b.cond = 11 → c = !p.getLsbD 0) → 8 ≤ b.cond.toNat → b.cond.toNat < 12 →
      Completes s (.bp b) fun t => goes t (if c then target else past b.form)) ∧
    Completes s (.j j) (goes · (m.pc + 4 * (if j.form.isExt then j.form.e2.signExtend 64 else j.disp.signExtend 64))) ∧
    (let d := m.getS r.a + (if r.form.isExt then r.form.e2.signExtend 64 else 0)
     (d.toNat % 4 = 0 → Completes s (.ji r) (goes · d)) ∧
     (d.toNat % 4 ≠ 0 → m.tinh = false → Traps s (.ji r) .misaligned d r.form.len))

/-- 04 R100, R102, R104: a call with room in the return-address store pushes the next sequential pc and goes to its target; a
return takes the newest entry. A misaligned target of CALLI or RET raises MISALIGNED and leaves the store as it was (02 R31), that of
CALLI also where the store is full, which is the model's reading (log 107). -/
def Sys2Proof.Claims.CallsAndReturns : Prop :=
  ∀ (s : State) (b : BForm) (r : RForm),
    let m := s.me
    let calls (t : State) (f : Form) (pc : Word) : Prop := MeOnly s t ∧
      t.me = { m with pc := pc, blocked := none, ras := m.ras ++ [m.pc + BitVec.ofNat 64 (4 * wordsOf f)] }
    let target := m.pc + 4 * (if b.form.isExt then b.form.e2.signExtend 64 else b.disp.signExtend 64)
    let d := m.getS r.a + (if r.form.isExt then r.form.e2.signExtend 64 else 0)
    (m.ras.length < 16 → m.pc.toNat % 4 = 0 → Completes s (.call b) (calls · b.form target)) ∧
    (m.ras.length < 16 → d.toNat % 4 = 0 → Completes s (.calli r) (calls · r.form d)) ∧
    (d.toNat % 4 ≠ 0 → m.tinh = false → Traps s (.calli r) .misaligned d r.form.len) ∧
    (∀ old ret, m.ras = old ++ [ret] → ∀ i len, (i, len) = (Instr.ret, 0) ∨ (i, len) = (Instr.retX, 2) →
      (ret.toNat % 4 = 0 → Completes s i fun t => MeOnly s t ∧ t.me = { m with pc := ret, blocked := none, ras := old }) ∧
      (ret.toNat % 4 ≠ 0 → m.tinh = false → Traps s i .misaligned ret len))

/-- 04 R104: a call that finds 16 entries and no room in the spill area, or RASN at its limit, and a return that finds the store
empty and RASN 0, raise RAS_LIMIT with TVAL holding RASP. -/
def Sys2Proof.Claims.ReturnStoreLimit : Prop :=
  ∀ (s : State) (b : BForm) (r : RForm), s.me.tinh = false → s.me.pc.toNat % 4 = 0 →
    let d := s.me.getS r.a + (if r.form.isExt then r.form.e2.signExtend 64 else 0)
    (s.me.ras.length = 16 → s.me.rasl.toNat < s.me.rasp.toNat + 8 ∨ s.me.rasn = 0xFFFFFFFF#32 →
      Traps s (.call b) .rasLimit s.me.rasp b.form.len ∧ (d.toNat % 4 = 0 → Traps s (.calli r) .rasLimit s.me.rasp r.form.len)) ∧
    (s.me.ras = [] → s.me.rasn = 0 → Traps s .ret .rasLimit s.me.rasp 0 ∧ Traps s .retX .rasLimit s.me.rasp 2)

namespace Sys2Proof.Claims

/-! ## Memory accesses -/

/-- The address of a format-M access of n bytes: S[A] plus the displacement, OFF6 counted in sizes (02 R40). -/
def addrM (x : MForm) (n : Nat) (m : Context) : Word :=
  m.getS x.a + (if x.form.isExt then x.form.e2.signExtend 64 else BitVec.ofInt 64 (x.off.toInt * n))

/-- No window of the acting core that an access of n bytes at a resolved address meets is absent or loading (11 R265), and no
accepted write-out has yet to read there (11 R267). -/
def WindowsOpen (s : State) (a n : Nat) : Prop :=
  bits a 63 60 = 8 → localCore a = s.cur.core → s.awaitsRead s.cur.core (bits a 18 0) n = false ∧ ∀ w : Fin 8,
    (s.core s.cur.core).wins[w].meets (bits a 18 0) n = true → (s.core s.cur.core).wins[w].state = 3

/-- An access of n bytes at va touches no absent or loading window (09 R210 comes before the checks of 09 R209). -/
def Untouched (s : State) (va : Word) (n : Nat) : Prop := s.touchAt va n = .ok ()

/-- An access of n bytes at va, aligned to `al`, passes every check of 09 R209 and reaches memory at the resolved address a,
outside a shootdown port; `State.resolve` is steps 2 to 4. -/
def Granted (s : State) (acc : Acc) (va : Word) (n al a : Nat) : Prop :=
  va.toNat % al = 0 ∧ s.resolve s.cur.core s.me.sup acc va.toNat = .ok a ∧ inPort a = false ∧ WindowsOpen s a n

/-- No byte of the range is faulty. -/
def Sound (s : State) (a n : Nat) : Prop := ∀ p ∈ s.poisoned, ¬(a ≤ p ∧ p < a + n)

/-- A 64-bit value holds n little-endian bytes of memory, extended by copies of its top bit or by zeros (00 R2). -/
def HoldsBytes (s : State) (a n : Nat) (signed : Bool) (v : Word) : Prop :=
  (∀ j, j < n → v.extractLsb' (8 * j) 8 = s.byte (a + j)) ∧
    ∀ j, 8 * n ≤ j → j < 64 → v.getLsbD j = (signed && v.getLsbD (8 * n - 1))

/-- Whether an SZ code sign-extends (02 Table 2.9). -/
def signedSz (sz : BitVec 3) : Bool := decide (sz.toNat < 3)

/-- Memory after n bytes of a value were stored at a; every other byte is as before. -/
def BytesAfter (s t : State) (a n v : Nat) : Prop :=
  ∀ b, t.byte b = if a ≤ b ∧ b < a + n then BitVec.ofNat 8 (v / 256 ^ (b - a)) else s.byte b

/-- The speculative-load table after n bytes at a were written by its own context (04 R108). -/
def SpecStored (s t : State) (a n : Nat) : Prop :=
  t.me.spec = s.me.spec.map fun e => if a < e.addr + e.size ∧ e.addr < a + n then { e with valid := false } else e

/-- Of the acting context, nothing changed but the pc and the speculative-load table. -/
def StoreFrame (s t : State) : Prop := t.me = { s.me with spec := t.me.spec, pc := t.me.pc, blocked := t.me.blocked }

/-- A store completed: n bytes of v are at a, and nothing else changed. -/
def Stored (s t : State) (words a n v : Nat) : Prop :=
  MeAndMemory s t ∧ StoreFrame s t ∧ Past s t words ∧ BytesAfter s t a n v ∧ SpecStored s t a n

/-- A load completed with a value that satisfies P; an acquire invalidates the speculative-load table. -/
def LoadedWith (s t : State) (words : Nat) (d : Reg) (P : Word → Prop) : Prop :=
  MeOnly s t ∧ ScalarFrame s t ∧ Past s t words ∧ t.me.fctl = s.me.fctl ∧ ∃ v, ScalarsAfter s t d v ∧ P v

/-- Every entry of the speculative-load table is invalid. -/
def SpecInvalid (t : State) : Prop := ∀ e ∈ t.me.spec, e.valid = false

end Sys2Proof.Claims

/-- 04 R104: a call that finds 16 entries, with room in the spill area and its store granted, stores the oldest at RASP, and RASP and
RASN rise; a return that finds the store empty and RASN not 0 takes the entry below RASP, and both fall, unless that is no multiple of
4, which raises MISALIGNED and leaves all as it was (02 R31). -/
def Sys2Proof.Claims.SpillsAndRefills : Prop :=
  ∀ (s : State) (b : BForm) (r : RForm) (a : Nat), Memory.wf s = true →
    let m := s.me
    let calls (f : Form) (target : Word) (t : State) : Prop := ∀ oldest rest, m.ras = oldest :: rest →
      MeAndMemory s t ∧ BytesAfter s t a 8 oldest.toNat ∧ SpecStored s t a 8 ∧
        t.me = { m with
          pc := target, blocked := none, ras := rest ++ [m.pc + BitVec.ofNat 64 (4 * wordsOf f)], rasp := m.rasp + 8, rasn := m.rasn + 1,
          spec := t.me.spec }
    let target := m.pc + 4 * (if b.form.isExt then b.form.e2.signExtend 64 else b.disp.signExtend 64)
    let d := m.getS r.a + (if r.form.isExt then r.form.e2.signExtend 64 else 0)
    (m.ras.length = 16 → m.rasp.toNat + 8 ≤ m.rasl.toNat → m.rasn ≠ 0xFFFFFFFF#32 → Granted s .store m.rasp 8 8 a →
      (m.pc.toNat % 4 = 0 → Completes s (.call b) (calls b.form target)) ∧
      (d.toNat % 4 = 0 → Completes s (.calli r) (calls r.form d))) ∧
    (m.ras = [] → m.rasn ≠ 0 → Granted s .load (m.rasp - 8) 8 8 a → Sound s a 8 → ∃ v, HoldsBytes s a 8 false v ∧
      ∀ i len, (i, len) = (Instr.ret, 0) ∨ (i, len) = (Instr.retX, 2) →
        (v.toNat % 4 = 0 → Completes s i fun t => MeOnly s t ∧
          t.me = { m with pc := v, blocked := none, rasp := m.rasp - 8, rasn := m.rasn - 1 }) ∧
        (v.toNat % 4 ≠ 0 → m.tinh = false → Traps s i .misaligned v len))

/-- 04 R100, R102, R104: calls and returns, and the ends of the return-address store. That a misaligned target traps before the store
is looked at is the model's reading (log 107). -/
def Obligations.CallsAndReturns : Prop :=
  Sys2Proof.Claims.CallsAndReturns ∧ Sys2Proof.Claims.ReturnStoreLimit ∧ Sys2Proof.Claims.SpillsAndRefills

/-- 09 R209, R213: an active LD whose access is granted writes the little-endian bytes, extended by SZ, and changes nothing but its
register; an inactive one touches no memory. With acquire the speculative-load table is invalid after it. -/
def Sys2Proof.Claims.LoadResults : Prop :=
  ∀ (s : State) (x : MForm) (a : Nat),
    let n := szBytes x.sz
    x.sz ≠ 4 →
    (x.form.active s.me = true → Granted s .load (addrM x n s.me) n n a → Sound s a n →
      Completes s (.ld x) fun t => LoadedWith s t (wordsOf x.form) x.d (HoldsBytes s a n (signedSz x.sz)) ∧
        (x.ord.getLsbD 0 = true → SpecInvalid t)) ∧
    (x.form.active s.me = false → GivesScalar s (.ld x) x.form x.d 0)

/-- 09 R213: LDP writes the lower 8 bytes to S[D] and the upper 8 to S[D+1]. -/
def Sys2Proof.Claims.LoadPairResults : Prop :=
  ∀ (s : State) (x : MForm) (a : Nat),
    x.form.active s.me = true → Granted s .load (addrM x 16 s.me) 16 16 a → Sound s a 16 →
      Completes s (.ldp x) fun t => MeOnly s t ∧ ScalarFrame s t ∧ Past s t (wordsOf x.form) ∧ t.me.fctl = s.me.fctl ∧
        ∃ lo hi : Word, HoldsBytes s a 8 false lo ∧ HoldsBytes s (a + 8) 8 false hi ∧
          ∀ r, t.me.getS r = if r = 0 then 0 else if r = x.d + 1 then hi else if r = x.d then lo else s.me.getS r

/-- 09 R209, R213: LD and LDP. -/
def Obligations.LoadResults : Prop :=
  Sys2Proof.Claims.LoadResults ∧ Sys2Proof.Claims.LoadPairResults

/-- 09 R209, R213: ST and STP store the low bytes of their registers at the granted address, in little-endian order, and change
no other byte and no register; inactive, they only move on. -/
def Obligations.StoreResults : Prop :=
  ∀ (s : State) (x : MForm) (a : Nat), Memory.wf s = true →
    let n := szBytes x.sz
    (x.sz ≠ 4 → x.form.active s.me = true → Granted s .store (addrM x n s.me) n n a →
      Completes s (.st x) (Stored s · (wordsOf x.form) a n (s.me.getS x.d).toNat)) ∧
    (x.form.active s.me = true → Granted s .store (addrM x 16 s.me) 16 16 a →
      Completes s (.stp x) (Stored s · (wordsOf x.form) a 16 ((s.me.getS x.d).toNat + (s.me.getS (x.d + 1)).toNat * 2 ^ 64))) ∧
    (x.form.active s.me = false → Completes s (.st x) (OnlyPast s · (wordsOf x.form)) ∧
      Completes s (.stp x) (OnlyPast s · (wordsOf x.form)))

/-- 09 R209 step 1: an access that touches no window and whose address is not a multiple of its size raises MISALIGNED with the
address as TVAL: loads, stores, pairs and atomics alike. -/
def Sys2Proof.Claims.MisalignedAccess : Prop :=
  ∀ (s : State) (x : MForm) (y : AForm), s.me.tinh = false →
    (x.form.active s.me = true →
      let n := szBytes x.sz
      let va := addrM x n s.me
      let pair := addrM x 16 s.me
      (va.toNat % n ≠ 0 → Untouched s va n → Traps s (.ld x) .misaligned va x.form.len ∧ Traps s (.st x) .misaligned va x.form.len) ∧
      (pair.toNat % 16 ≠ 0 → Untouched s pair 16 → Traps s (.ldp x) .misaligned pair x.form.len ∧ Traps s (.stp x) .misaligned pair x.form.len)) ∧
    (let va := s.me.getS y.a + y.e2.signExtend 64
     va.toNat % szBytes y.sz ≠ 0 → Untouched s va (szBytes y.sz) → ∀ i ∈ [Instr.amoSwap y, .amoAdd y, .amoAnd y, .amoOr y, .amoXor y, .amoMin y, .amoMax y,
       .amoMinn y, .amoMaxn y, .cas y], Traps s i .misaligned va 2)

/-- 08 R204, 04 R96: an access to the null coordinate raises ACCESS, whatever the core and the mode. -/
def Sys2Proof.Claims.NullCoordinateFaults : Prop :=
  ∀ (s : State) (k : CoreId) (sup : Bool) (acc : Acc),
    s.resolve k sup acc 0x800000FC00000000 = .error (.cause .access)

/-- 08 R204, Table 8.5: an offset in the core's own local memory resolves to itself when the core exists and serves, in either mode
and for every kind of access, and so does the same byte through the relative form with all deltas zero (08 R205). -/
def Sys2Proof.Claims.OwnLocalMemory : Prop :=
  ∀ (s : State) (k : CoreId) (sup : Bool) (acc : Acc) (off : Nat),
    k.big = false → coreValid k = true → s.hiveAbsent (coreHive k) = false → off < 2 ^ 19 →
    s.resolve k sup acc (localAddr k off) = .ok (localAddr k off) ∧
    s.resolve k sup acc (9 * 2 ^ 60 + off) = .ok (localAddr k off)

/-- 09 R209, 08 R204, 04 R96: the checks of an access and the address spaces. -/
def Obligations.AccessChecks : Prop :=
  Sys2Proof.Claims.MisalignedAccess ∧ Sys2Proof.Claims.NullCoordinateFaults ∧ Sys2Proof.Claims.OwnLocalMemory

/-- 09 R219, R220, Table 9.5: an atomic reads the old value into S[D], extended by SZ, and stores the new one, in one step. CAS
stores only where the old value equals the operand. -/
def Sys2Proof.Claims.AtomicResults : Prop :=
  ∀ (s : State) (x : AForm) (a : Nat), Memory.wf s = true →
    let n := szBytes x.sz
    let w := 8 * n
    x.sz ≠ 4 → Granted s .atomic (s.me.getS x.a + x.e2.signExtend 64) n n a → Sound s a n →
    let old : BitVec w := BitVec.ofNat w (s.read a n)
    let c : BitVec w := (s.me.getS x.c).setWidth w
    let new : BitVec w := (s.me.getS x.n).setWidth w
    let gives (i : Instr) (v : BitVec w) : Prop := Completes s i fun t =>
      MeAndMemory s t ∧ ScalarFrame s t ∧ Past s t 3 ∧ t.me.fctl = s.me.fctl ∧ BytesAfter s t a n v.toNat ∧
      (∃ r, ScalarsAfter s t x.d r ∧ HoldsBytes s a n (signedSz x.sz) r) ∧ (x.ord.getLsbD 0 = true → SpecInvalid t)
    gives (.amoSwap x) c ∧ gives (.amoAdd x) (old + c) ∧ gives (.amoAnd x) (old &&& c) ∧ gives (.amoOr x) (old ||| c) ∧
    gives (.amoXor x) (old ^^^ c) ∧ gives (.amoMin x) (if old.slt c then old else c) ∧
    gives (.amoMax x) (if c.slt old then old else c) ∧ gives (.amoMinn x) (if old.ult c then old else c) ∧
    gives (.amoMaxn x) (if c.ult old then old else c) ∧ gives (.cas x) (if old = c then new else old)

/-- 09 R220, R222: on a big core the 16-byte atomics act on register pairs. The floating atomics, at .f64 on a big core and at .f32 on
either kind, round to nearest even, raise their flags and take FP instead, with nothing changed, where a raised flag is enabled. With
acquire the speculative-load table is invalid after each. -/
def Sys2Proof.Claims.WideAndFloatAtomics : Prop :=
  ∀ (s : State) (x : AForm) (a : Nat), Memory.wf s = true →
    let va := s.me.getS x.a + x.e2.signExtend 64
    (x.sz = 4 → s.cur.core.big = true → Granted s .atomic va 16 16 a → Sound s a 16 →
      let old : BitVec 128 := BitVec.ofNat 128 (s.read a 16)
      let c : BitVec 128 := s.me.getS (x.c + 1) ++ s.me.getS x.c
      let new : BitVec 128 := s.me.getS (x.n + 1) ++ s.me.getS x.n
      let gives (i : Instr) (v : BitVec 128) : Prop := Completes s i fun t =>
        MeAndMemory s t ∧ ScalarFrame s t ∧ Past s t 3 ∧ t.me.fctl = s.me.fctl ∧ BytesAfter s t a 16 v.toNat ∧
        (x.ord.getLsbD 0 = true → SpecInvalid t) ∧
        ∀ r, t.me.getS r = if r = 0 then 0 else if r = x.d + 1 then old.extractLsb' 64 64
          else if r = x.d then old.extractLsb' 0 64 else s.me.getS r
      gives (.amo2Swap x) c ∧ gives (.amo2Add x) (old + c) ∧ gives (.amo2And x) (old &&& c) ∧ gives (.amo2Or x) (old ||| c) ∧
      gives (.amo2Xor x) (old ^^^ c) ∧ gives (.cas2 x) (if old = c then new else old)) ∧
    (∀ n f, (x.sz = 3 ∧ s.cur.core.big = true ∧ n = 8 ∧ f = Fmt.f64) ∨ (x.sz = 2 ∧ n = 4 ∧ f = Fmt.f32) →
      Granted s .atomic va n n a → Sound s a n →
      let old := s.read a n
      let c := (s.me.getS x.c).toNat % 2 ^ (8 * n)
      let gives (i : Instr) (r : Nat × Flags) : Prop :=
        (s.me.fctl.extractLsb' 8 5 &&& r.2.extractLsb' 0 5 = 0 → Completes s i fun t =>
          MeAndMemory s t ∧ ScalarFrame s t ∧ Past s t 3 ∧ t.me.fctl = s.me.fctl ||| r.2.setWidth 64 ∧
          BytesAfter s t a n r.1 ∧ ScalarsAfter s t x.d (BitVec.ofNat 64 old) ∧ (x.ord.getLsbD 0 = true → SpecInvalid t)) ∧
        (s.me.fctl.extractLsb' 8 5 &&& r.2.extractLsb' 0 5 ≠ 0 → s.me.tinh = false →
          Traps s i .fp ((r.2.extractLsb' 0 5).setWidth 64) 2)
      gives (.amofAdd x) (fpArith .add f .rne .final old c) ∧ gives (.amofMin x) (fpMinMax false false f old c) ∧
      gives (.amofMax x) (fpMinMax true false f old c))

/-- 09 R219 to R222, Table 9.5: every atomic that a core executes itself. The wide forms and AMOF at .f64 of a little core are shipped;
`Obligations.LittleCoreShips` states them. -/
def Obligations.AtomicResults : Prop :=
  Sys2Proof.Claims.AtomicResults ∧ Sys2Proof.Claims.WideAndFloatAtomics

namespace Sys2Proof.Claims

/-- An LDS recorded its access: the size tag and the newest entry of the table, which holds no other entry for its register; of the
acting context nothing else changed but S[D] and the pc (04 R107). -/
def Recorded (s t : State) (x : MForm) (va addr : Nat) (valid : Bool) : Prop :=
  MeOnly s t ∧ Past s t (wordsOf x.form) ∧ t.me.tags[x.d.toNat] = x.sz ∧
    t.me = { s.me with s := t.me.s, tags := t.me.tags, spec := t.me.spec, pc := t.me.pc, blocked := t.me.blocked } ∧
    t.me.spec.getLast? = some { reg := x.d, va := va, addr := addr, size := szBytes x.sz, valid := valid } ∧
    ∀ e ∈ t.me.spec, e.reg = x.d → e.valid = valid

/-- An access of n bytes at va would trap, or lies in a window of the acting core marked absent (04 R107, 09 R209). -/
def Refused (s : State) (va : Word) (n : Nat) : Prop :=
  va.toNat % n ≠ 0 ∨ (∃ c, s.resolve s.cur.core s.me.sup .load va.toNat = .error (.cause c)) ∨
    ∃ a, s.resolve s.cur.core s.me.sup .load va.toNat = .ok a ∧ ((∃ p ∈ s.poisoned, a ≤ p ∧ p < a + n) ∨
      (bits a 63 60 = 8 ∧ localCore a = s.cur.core ∧ ∃ w : Fin 8, ((s.core s.cur.core).wins[w]).state = 1 ∧
        ((s.core s.cur.core).wins[w]).meets (bits a 18 0) n = true))

end Sys2Proof.Claims

/-- 04 R107: an active LDS of a readable range reads it into S[D] and records it as valid; of a range whose access would trap, or
that lies in a window marked absent, it writes 0 and records it as invalid, without a trap; an inactive one accesses nothing and
records nothing. -/
def Sys2Proof.Claims.SpeculativeReads : Prop :=
  ∀ (s : State) (x : MForm),
    let n := szBytes x.sz
    let va := addrM x n s.me
    (x.form.active s.me = true → x.sz ≠ 4 →
      (∀ a, Granted s .load va n n a → Sound s a n → Completes s (.lds x) fun t => Recorded s t x va.toNat a true ∧
        ∃ v, ScalarsAfter s t x.d v ∧ HoldsBytes s a n (signedSz x.sz) v) ∧
      (Refused s va n → Completes s (.lds x) fun t => Recorded s t x va.toNat va.toNat false ∧ ScalarsAfter s t x.d 0)) ∧
    (x.form.active s.me = false → GivesScalar s (.lds x) x.form x.d 0)

/-- 04 R109: an active CHKLD that finds a valid entry of its register, address and tagged size removes the entry and changes nothing
else but the pc; one that finds none loads the tagged size into S[D] and removes any entry of D, and takes the trap a plain load
takes; an inactive one accesses nothing and removes nothing. -/
def Sys2Proof.Claims.SpeculationChecks : Prop :=
  ∀ (s : State) (x : MForm) (a : Nat),
    let tag := s.me.tags[x.d.toNat]
    let n := szBytes tag
    let va := addrM x 16 s.me
    let removed (t : State) : Prop := MeOnly s t ∧ Past s t (wordsOf x.form) ∧ t.me.spec = s.me.spec.filter fun f => f.reg != x.d
    (x.form.active s.me = true →
      (s.resolve s.cur.core s.me.sup .load va.toNat = .ok a →
        (∃ e ∈ s.me.spec, e.reg = x.d ∧ e.valid = true ∧ e.addr = a ∧ e.size = n) → Completes s (.chkld x) fun t => removed t ∧
          t.me = { s.me with spec := t.me.spec, pc := t.me.pc, blocked := t.me.blocked }) ∧
      ((∀ e ∈ s.me.spec, ¬(e.reg = x.d ∧ e.valid = true ∧ e.addr = a ∧ e.size = n)) → Granted s .load va n n a → Sound s a n →
        tag ≠ 4 → Completes s (.chkld x) fun t => removed t ∧ ScalarFrame s t ∧ t.me.fctl = s.me.fctl ∧
          ∃ v, ScalarsAfter s t x.d v ∧ HoldsBytes s a n (signedSz tag) v) ∧
      (s.me.spec = [] → va.toNat % n ≠ 0 → Untouched s va n → s.me.tinh = false → Traps s (.chkld x) .misaligned va x.form.len)) ∧
    (x.form.active s.me = false → GivesScalar s (.chkld x) x.form x.d 0)

/-- 04 R106 to R109: LDS records a speculative load, and CHKLD checks it and repeats it where it must. -/
def Obligations.SpeculativeLoads : Prop :=
  Sys2Proof.Claims.SpeculativeReads ∧ Sys2Proof.Claims.SpeculationChecks

/-- 09 R224 to R227, 10 R235: a fence invalidates the speculative-load table; FENCESC that may have the next ticket takes it, at once
where nothing is outstanding (the model's reading, log 26); prefetches change nothing but the pc (log 27); cache maintenance of a reachable address changes no register and no byte of memory. -/
def Obligations.FencesAndCaches : Prop :=
  ∀ (s : State) (x : MForm) (a : Nat),
    let quiet (i : Instr) : Prop := Completes s i fun t => t.mem = s.mem ∧ Past s t (wordsOf x.form) ∧
      t.me = { s.me with pc := t.me.pc, blocked := t.me.blocked } ∧ ∀ c, c ≠ s.cur → t.ctx c = s.ctx c
    (Completes s (.fence x) fun t => MeOnly s t ∧ Past s t (wordsOf x.form) ∧ SpecInvalid t ∧ StoreFrame s t) ∧
    Completes s (.pref x) (OnlyPast s · (wordsOf x.form)) ∧ Completes s (.prefW x) (OnlyPast s · (wordsOf x.form)) ∧
    (∀ i n, (i, n) ∈ [(Instr.fencesc, 1), (.fencescX, 3), (.fencescSys, 1), (.fencescSysX, 3)] → s.fenceReady s.cur = true →
      Completes s i fun t => t.fence.ticket = s.fence.ticket + 1 ∧ SpecInvalid t ∧ Past s t n ∧ t.mem = s.mem ∧
        StoreFrame s t ∧ ∀ c, c ≠ s.cur → t.ctx c = s.ctx c) ∧
    (Granted s .load (addrM x 1 s.me) 1 1 a → quiet (.cclean x) ∧ quiet (.cflush x)) ∧
    (Granted s .cinv (addrM x 1 s.me) 1 1 a → quiet (.cinv x) ∧ (a < 2 ^ 52 → Completes s (.cinv x) fun t =>
      ∀ e ∈ (t.core s.cur.core).icache, e.1 / 128 ≠ a / 128))

namespace Sys2Proof.Claims

/-! ## Vectors -/

/-- Lane i of width w (05 R119). -/
def lane (w : Nat) (v : VWord) (i : Nat) : BitVec w := v.extractLsb' (w * i) w

/-- Lane width of TY3 in the integer majors (05 R122, R126). -/
def laneWidth (ty : BitVec 3) : Nat := 8 * 2 ^ (ty.extractLsb' 0 2).toNat

/-- Of the acting context, nothing changed but the vector registers, FCTL and the pc. -/
def VectorFrame (s t : State) : Prop :=
  t.me = { s.me with v := t.me.v, fctl := t.me.fctl, pc := t.me.pc, blocked := t.me.blocked }

/-- The vector registers after the lanes of V[d] became g. -/
def VectorsAfter (s t : State) (w : Nat) (d : Reg) (g : Nat → BitVec w) : Prop :=
  (∀ r, r ≠ d → t.me.getV r = s.me.getV r) ∧ ∀ i, i < 512 / w → lane w (t.me.getV d) i = g i

/-- A lane result under a mask: new when active, else 0 or as it was (02 R37, R39). -/
def masked (w : Nat) (x : VForm) (m : Context) (g : Nat → BitVec w) (i : Nat) : BitVec w :=
  if (x.mask m).getLsbD i then g i else if x.form.zeroes then 0 else lane w (m.getV x.d) i

/-- Running `i` completes with the lanes of V[D] as g gives them, and changes nothing else but FCTL as said. -/
def GivesLanes (s : State) (i : Instr) (x : VForm) (w : Nat) (g : Nat → BitVec w) (fl : Flags := 0) : Prop :=
  Completes s i fun t => MeOnly s t ∧ VectorFrame s t ∧ Past s t (wordsOf x.form) ∧
    t.me.fctl = s.me.fctl ||| fl.setWidth 64 ∧ VectorsAfter s t w x.d g

/-- Of the acting context, nothing changed but the predicate registers and the pc. -/
def PredFrame (s t : State) : Prop := t.me = { s.me with p := t.me.p, pc := t.me.pc, blocked := t.me.blocked }

/-- Running `i` completes with P[D] as v; p0 discards the write. -/
def GivesPred (s : State) (i : Instr) (x : VForm) (v : Nat → Bool) : Prop :=
  Completes s i fun t => MeOnly s t ∧ PredFrame s t ∧ Past s t (wordsOf x.form) ∧
    ∀ r j, (t.me.getP r).getLsbD j =
      if r = 0 then decide (j < 64) else if r = x.d.setWidth 3 then decide (j < 64) && v j else (s.me.getP r).getLsbD j

/-- A lane as a number of the type of TY3: .n types are unsigned. -/
def laneValue (ty : BitVec 3) {w : Nat} (b : BitVec w) : Int := if ty.getLsbD 2 then (b.toNat : Int) else b.toInt

/-- The least and the greatest number of the type of TY3. -/
def laneRange (ty : BitVec 3) : Int × Int :=
  let w := laneWidth ty
  if ty.getLsbD 2 then (0, 2 ^ w - 1) else (-(2 ^ (w - 1)), 2 ^ (w - 1) - 1)

/-- A number clamped to the type of TY3. -/
def clampLane (ty : BitVec 3) (x : Int) : Int := max (laneRange ty).1 (min (laneRange ty).2 x)

/-- The smaller and the larger lane by the signedness of TY3. -/
def lesser (ty : BitVec 3) {w : Nat} (a b : BitVec w) : BitVec w := if laneValue ty a ≤ laneValue ty b then a else b
/-- See `lesser`. -/
def greater (ty : BitVec 3) {w : Nat} (a b : BitVec w) : BitVec w := if laneValue ty a ≤ laneValue ty b then b else a

/-- Lanes of a vector, by mask, in increasing order. -/
def activeList (w : Nat) (mask : Word) : List Nat := (List.range (512 / w)).filter fun i => mask.getLsbD i

/-- The operators of VRED and VSCAN by code: identity and step (05 R127). -/
def folding (ty : BitVec 3) (op w : Nat) : BitVec w × (BitVec w → BitVec w → BitVec w) :=
  match op with
  | 0 => (0, fun a b => a + b)
  | 1 => (BitVec.allOnes w, fun a b => a &&& b)
  | 2 => (0, fun a b => a ||| b)
  | 3 => (0, fun a b => a ^^^ b)
  | 4 => (BitVec.ofInt w (laneRange ty).2, lesser ty)
  | _ => (BitVec.ofInt w (laneRange ty).1, greater ty)

/-- A lane extended to 64 bits by the type of TY3. -/
def extendLane (ty : BitVec 3) {w : Nat} (b : BitVec w) : Word := BitVec.ofInt 64 (laneValue ty b)

end Sys2Proof.Claims

/-- 05 R122, R123, Table 5.2: every lane result of VINT without SAT, under any mask, with its frame. -/
def Sys2Proof.Claims.VectorIntegerResults : Prop :=
  ∀ (s : State) (x : VForm), x.form.sat = false →
    let w := laneWidth x.ty
    let m := s.me
    let a (i : Nat) : BitVec w := lane w (m.getV x.a) i
    let b (i : Nat) : BitVec w := match x.form.literal? with
      | some l => l.setWidth w
      | none => lane w (m.getV x.b) i
    let c (i : Nat) : BitVec w := lane w (m.getV x.form.c) i
    let gives (i : Instr) (g : BitVec w → BitVec w → BitVec w → BitVec w) : Prop :=
      GivesLanes s i x w (masked w x m fun j => g (a j) (b j) (c j))
    gives (.vadd x) (fun a b _ => a + b) ∧ gives (.vsub x) (fun a b _ => a - b) ∧ gives (.vmul x) (fun a b _ => a * b) ∧
    gives (.vmulh x) (fun a b _ => BitVec.ofInt w (laneValue x.ty a * laneValue x.ty b / 2 ^ w)) ∧
    gives (.vmadd x) (fun a b c => a * b + c) ∧ gives (.vand x) (fun a b _ => a &&& b) ∧ gives (.vor x) (fun a b _ => a ||| b) ∧
    gives (.vxor x) (fun a b _ => a ^^^ b) ∧ gives (.vsll x) (fun a b _ => a <<< (b.toNat % w)) ∧
    gives (.vsrl x) (fun a b _ => a >>> (b.toNat % w)) ∧ gives (.vsra x) (fun a b _ => a.sshiftRight (b.toNat % w)) ∧
    gives (.vmin x) (fun a b _ => lesser x.ty a b) ∧ gives (.vmax x) (fun a b _ => greater x.ty a b) ∧
    gives (.vabs x) (fun a _ _ => if laneValue x.ty a < 0 then -a else a)

/-- 05 R122, R123: the same of VINTI, whose operand B is the literal, sext(E2) or the sign-extended B field in every lane. -/
def Sys2Proof.Claims.VectorImmediateResults : Prop :=
  ∀ (s : State) (x : VForm), x.form.sat = false →
    let w := laneWidth x.ty
    let m := s.me
    let b : BitVec w := (match x.form.literal? with
      | some l => l
      | none => if x.form.isExt then x.form.e2.signExtend 64 else x.b.signExtend 64).setWidth w
    let gives (i : Instr) (g : BitVec w → BitVec w → BitVec w) : Prop :=
      GivesLanes s i x w (masked w x m fun j => g (lane w (m.getV x.a) j) b)
    gives (.vaddi x) (fun a b => a + b) ∧ gives (.vsubi x) (fun a b => a - b) ∧ gives (.vmuli x) (fun a b => a * b) ∧
    gives (.vandi x) (fun a b => a &&& b) ∧ gives (.vori x) (fun a b => a ||| b) ∧ gives (.vxori x) (fun a b => a ^^^ b) ∧
    gives (.vslli x) (fun a b => a <<< (b.toNat % w)) ∧ gives (.vsrli x) (fun a b => a >>> (b.toNat % w)) ∧
    gives (.vsrai x) (fun a b => a.sshiftRight (b.toNat % w)) ∧ gives (.vmini x) (lesser x.ty) ∧ gives (.vmaxi x) (greater x.ty)

/-- 05 R123: with SAT each active lane is clamped to its type, and SX is raised exactly when the clamp changes an active lane. -/
def Sys2Proof.Claims.VectorSaturates : Prop :=
  ∀ (s : State) (x : VForm), x.form.sat = true →
    let w := laneWidth x.ty
    let m := s.me
    let a (i : Nat) : Int := laneValue x.ty (lane w (m.getV x.a) i)
    let b (i : Nat) : Int := laneValue x.ty (match x.form.literal? with
      | some l => l.setWidth w
      | none => lane w (m.getV x.b) i)
    let c (i : Nat) : Int := laneValue x.ty (lane w (m.getV x.form.c) i)
    let gives (n : Instr) (y : Nat → Int) : Prop :=
      GivesLanes s n x w (masked w x m fun i => BitVec.ofInt w (clampLane x.ty (y i)))
        (if (activeList w (x.mask m)).all (fun i => clampLane x.ty (y i) == y i) then 0 else fSX)
    gives (.vadd x) (fun i => a i + b i) ∧ gives (.vsub x) (fun i => a i - b i) ∧ gives (.vmul x) (fun i => a i * b i) ∧
    gives (.vmadd x) (fun i => a i * b i + c i) ∧ gives (.vabs x) (fun i => (a i).natAbs)

/-- 05 R123: the same of the VINTI forms that SAT reaches, VADDI, VSUBI and VMULI. -/
def Sys2Proof.Claims.VectorImmediateSaturates : Prop :=
  ∀ (s : State) (x : VForm), x.form.sat = true →
    let w := laneWidth x.ty
    let m := s.me
    let a (i : Nat) : Int := laneValue x.ty (lane w (m.getV x.a) i)
    let b : Int := laneValue x.ty (BitVec.setWidth w (match x.form.literal? with
      | some l => l
      | none => if x.form.isExt then x.form.e2.signExtend 64 else x.b.signExtend 64))
    let gives (n : Instr) (y : Nat → Int) : Prop :=
      GivesLanes s n x w (masked w x m fun i => BitVec.ofInt w (clampLane x.ty (y i)))
        (if (activeList w (x.mask m)).all (fun i => clampLane x.ty (y i) == y i) then 0 else fSX)
    gives (.vaddi x) (fun i => a i + b) ∧ gives (.vsubi x) (fun i => a i - b) ∧ gives (.vmuli x) (fun i => a i * b)

/-- 05 R122, R123, Table 5.2: VINT and VINTI, without SAT and with it. -/
def Obligations.VectorIntegerResults : Prop :=
  Sys2Proof.Claims.VectorIntegerResults ∧ Sys2Proof.Claims.VectorImmediateResults ∧ Sys2Proof.Claims.VectorSaturates ∧
    Sys2Proof.Claims.VectorImmediateSaturates

/-- 05 R124, R125, R130, Table 5.4: compares write one bit a lane and 0 above; VSEL selects by the mask in every lane; PLOG works on all
64 bits; PPOPC counts and PFIRST finds under the mask; PSET sets the low bits. -/
def Obligations.PredicateResults : Prop :=
  ∀ (s : State) (x : VForm),
    let w := laneWidth x.ty
    let m := s.me
    let mask := x.mask m
    let va (i : Nat) : Int := laneValue x.ty (lane w (m.getV x.a) i)
    let cond (p q : Int) : Bool :=
      match (x.form.e2.extractLsb' 0 3).toNat with
      | 0 => decide (p = q)
      | 1 => decide (p ≠ q)
      | 2 => decide (p < q)
      | 3 => decide (p ≤ q)
      | 4 => decide (q < p)
      | _ => decide (q ≤ p)
    let compare (i : Instr) (b : Nat → BitVec w) : Prop := GivesPred s i x fun j => decide (j < 512 / w) &&
      (if mask.getLsbD j then cond (va j) (laneValue x.ty (b j))
       else !x.form.zeroes && (m.getP (x.d.setWidth 3)).getLsbD j)
    compare (.vcmp x) (fun i => match x.form.literal? with
      | some l => l.setWidth w
      | none => lane w (m.getV x.b) i) ∧
    compare (.vcmpi x) (fun _ => match x.form.literal? with
      | some l => l.setWidth w
      | none => (x.b.signExtend 64).setWidth w) ∧
    GivesLanes s (.vsel x) x w (fun i => if mask.getLsbD i then lane w (m.getV x.a) i else match x.form.literal? with
      | some l => l.setWidth w
      | none => lane w (m.getV x.b) i) ∧
    (let p := m.getP (x.a.setWidth 3)
     let q := m.getP (x.b.setWidth 3)
     let op (a b : Bool) : Bool := match x.ty.toNat with
       | 0 => a && b
       | 1 => a || b
       | 2 => a != b
       | 3 => a && !b
       | 4 => a || !b
       | 5 => !(a && b)
       | 6 => !(a || b)
       | _ => a == b
     let n := 512 / (8 * 2 ^ x.ty.toNat)
     let found := (List.range n).filter fun i => p.getLsbD i && mask.getLsbD i
     let k := (match x.form.literal? with
       | some l => l
       | none => m.getS x.b).toNat
     GivesPred s (.plog x) x (fun j => if mask.getLsbD j then op (p.getLsbD j) (q.getLsbD j)
       else !x.form.zeroes && (m.getP (x.d.setWidth 3)).getLsbD j) ∧
     Completes s (.ppopc x) (WroteScalar s · (wordsOf x.form) x.d (BitVec.ofNat 64 found.length)) ∧
     GivesPred s (.pfirst x) x (fun j => found.head? == some j) ∧
     (x.ty.toNat < 4 → GivesPred s (.pset x) x (fun j => decide (j < min k n))))

/-- 05 R126 to R128, Table 5.3: broadcasts, single lanes, permutes, slides, reductions, scans, lane counts, compress and expand. That
Z changes nothing in VRED is the model's reading (log 13). -/
def Obligations.PermuteResults : Prop :=
  ∀ (s : State) (x : VForm),
    let w := laneWidth x.ty
    let n := 512 / w
    let m := s.me
    let mask := x.mask m
    let a (i : Nat) : BitVec w := lane w (m.getV x.a) i
    let b : Word := match x.form.literal? with
      | some l => l
      | none => m.getS x.b
    let below (i : Nat) : Nat := ((List.range i).filter fun j => mask.getLsbD j).length
    let fold (i : Nat) : BitVec w :=
      (((List.range i).filter fun j => mask.getLsbD j).map a).foldl (folding x.ty x.b.toNat w).2 (folding x.ty x.b.toNat w).1
    let gives (i : Instr) (g : Nat → BitVec w) : Prop := GivesLanes s i x w (masked w x m g)
    let scalar (i : Instr) (v : Word) : Prop := Completes s i (WroteScalar s · (wordsOf x.form) x.d v)
    gives (.vbcast x) (fun _ => b.setWidth w) ∧
    GivesLanes s (.vins x) x w (fun i => if i = b.toNat then (m.getS x.a).setWidth w else lane w (m.getV x.d) i) ∧
    scalar (.vext x) (if b.toNat < n then extendLane x.ty (a b.toNat) else 0) ∧
    gives (.vperm x) (fun i => let k := (lane w (m.getV x.b) i).toNat; if k < n then a k else 0) ∧
    gives (.vslide x) (fun i => let k : Int := i + b.toInt; if 0 ≤ k ∧ k < n then a k.toNat else 0) ∧
    (x.b.toNat < 6 → scalar (.vred x) (extendLane x.ty (fold n)) ∧ gives (.vscan x) (fun i => fold (i + 1))) ∧
    gives (.viota x) (fun i => BitVec.ofNat w (below i)) ∧
    GivesLanes s (.vcmprs x) x w (fun i => match (activeList w mask)[i]? with
      | some j => a j
      | none => 0) ∧
    gives (.vexpnd x) (fun i => a (below i)) ∧
    (let w := 8 * 2 ^ x.ty.toNat
     let n := 512 / w
     let h := (x.form.e2.extractLsb' 0 1).toNat
     let a (i : Nat) : BitVec w := lane w (m.getV x.a) i
     let b (i : Nat) : BitVec w := lane w (m.getV x.b) i
     x.ty.toNat < 4 →
     GivesLanes s (.ilvp x) x w (fun i => if i % 2 = 0 then a (i / 2 + h * (n / 2)) else b (i / 2 + h * (n / 2))) ∧
     GivesLanes s (.ilvu x) x w (fun i => if 2 * i + h < n then a (2 * i + h) else b (2 * i + h - n)))

namespace Sys2Proof.Claims

/-- The lane addresses of the vector accesses (09 R215, R216, Table 9.3). -/
def unitLanes (x : MForm) (w : Nat) (m : Context) (i : Nat) : Word := addrM x (w / 8) m + BitVec.ofNat 64 (i * (w / 8))
/-- VLDS and VSTS. -/
def strideLanes (x : VForm) (m : Context) (i : Nat) : Word :=
  m.getS x.a + x.form.e2.signExtend 64 + BitVec.ofNat 64 i * m.getS x.b
/-- VLDX and VSTX: an index lane times the element size. -/
def indexLanes (x : VForm) (m : Context) (i : Nat) : Word :=
  m.getS x.a + x.form.e2.signExtend 64 +
    BitVec.ofInt 64 (laneValue x.ty (lane (laneWidth x.ty) (m.getV x.b) i) * (laneWidth x.ty / 8 : Nat))

/-- The active lanes of an access are granted at the resolved addresses `at_`, and for a load hold no faulty byte. -/
def LanesGranted (s : State) (acc : Acc) (w : Nat) (mask : Word) (va : Nat → Word) (at_ : Nat → Nat) : Prop :=
  ∀ i, i < 512 / w → mask.getLsbD i = true → Granted s acc (va i) (w / 8) (w / 8) (at_ i) ∧ Sound s (at_ i) (w / 8)

/-- A masked vector load: each active lane holds its bytes, another keeps its value or is zero. -/
def LaneLoad (s : State) (i : Instr) (words : Nat) (w : Nat) (d : Reg) (mask : Word) (zero : Bool) (at_ : Nat → Nat) : Prop :=
  Completes s i fun t => MeOnly s t ∧ Past s t words ∧
    t.me = { s.me with v := t.me.v, spec := t.me.spec, pc := t.me.pc, blocked := t.me.blocked } ∧
    (∀ r, r ≠ d → t.me.getV r = s.me.getV r) ∧
    ∀ l, l < 512 / w →
      if mask.getLsbD l then ∀ j, j < w / 8 → (t.me.getV d).extractLsb' (w * l + 8 * j) 8 = s.byte (at_ l + j)
      else lane w (t.me.getV d) l = if zero then 0 else lane w (s.me.getV d) l

/-- A masked vector store of V[d]: a byte outside every active lane's bytes is as before; a byte of the highest active lane
that covers it (lanes are stored in increasing order, 09 R217) is that lane's. -/
def LaneStore (s : State) (i : Instr) (words : Nat) (w : Nat) (d : Reg) (mask : Word) (at_ : Nat → Nat) : Prop :=
  Completes s i fun t => MeAndMemory s t ∧ StoreFrame s t ∧ Past s t words ∧
    (∀ b, (∀ l, l < 512 / w → mask.getLsbD l = true → ¬(at_ l ≤ b ∧ b < at_ l + w / 8)) → t.byte b = s.byte b) ∧
    ∀ l b, l < 512 / w → mask.getLsbD l = true → at_ l ≤ b → b < at_ l + w / 8 →
      (∀ k, l < k → k < 512 / w → mask.getLsbD k = true → ¬(at_ k ≤ b ∧ b < at_ k + w / 8)) →
      t.byte b = (s.me.getV d).extractLsb' (w * l + 8 * (b - at_ l)) 8

end Sys2Proof.Claims

/-- 09 R215 to R217, Table 9.3: vector loads of consecutive, strided and indexed lanes. -/
def Sys2Proof.Claims.VectorLoads : Prop :=
  ∀ (s : State) (y : MForm) (x : VForm) (at_ : Nat → Nat),
    (let w := 8 * 2 ^ y.sz.toNat
     let mask := match y.form.e1? with
       | some e => e.mask s.me
       | none => BitVec.allOnes 64
     y.sz.toNat < 4 → LanesGranted s .load w mask (unitLanes y w s.me) at_ →
       LaneLoad s (.vld y) (wordsOf y.form) w y.d mask y.form.zeroes at_) ∧
    (let w := laneWidth x.ty
     let mask := x.mask s.me
     (LanesGranted s .load w mask (strideLanes x s.me) at_ →
       LaneLoad s (.vlds x) (wordsOf x.form) w x.d mask x.form.zeroes at_) ∧
     (LanesGranted s .load w mask (indexLanes x s.me) at_ →
       LaneLoad s (.vldx x) (wordsOf x.form) w x.d mask x.form.zeroes at_))

/-- 09 R215 to R217: vector stores; the bytes of every active lane are stored, in increasing lane order, and no others. -/
def Obligations.VectorStores : Prop :=
  ∀ (s : State) (y : MForm) (x : VForm) (at_ : Nat → Nat), Memory.wf s = true →
    (let w := 8 * 2 ^ y.sz.toNat
     let mask := match y.form.e1? with
       | some e => e.mask s.me
       | none => BitVec.allOnes 64
     y.sz.toNat < 4 → LanesGranted s .store w mask (unitLanes y w s.me) at_ →
       LaneStore s (.vst y) (wordsOf y.form) w y.d mask at_) ∧
    (let w := laneWidth x.ty
     let mask := x.mask s.me
     (LanesGranted s .store w mask (strideLanes x s.me) at_ → LaneStore s (.vsts x) (wordsOf x.form) w x.d mask at_) ∧
     (LanesGranted s .store w mask (indexLanes x s.me) at_ → LaneStore s (.vstx x) (wordsOf x.form) w x.d mask at_))

/-- 09 R218, 10 R241: VLDB reads 256 bytes into four registers. Of VLDB.weak at global addresses each byte is the present one, or
what an outstanding weak read of the same bytes, of a core of its quad, found (how long one is outstanding is the model's choice, log
116); elsewhere it is VLDB. -/
def Sys2Proof.Claims.BlockLoads : Prop :=
  ∀ (s : State) (x : VForm) (at_ : Fin 4 → Nat),
    (∀ j : Fin 4, Granted s .load (s.me.getS x.a + x.form.e2.signExtend 64 + BitVec.ofNat 64 (64 * j.val)) 64 64 (at_ j) ∧
      Sound s (at_ j) 64) →
    let loads (t : State) : Prop := VectorFrame s t ∧ Past s t (wordsOf x.form) ∧ t.me.fctl = s.me.fctl ∧
      ∀ r, (∀ j : Fin 4, r ≠ x.d + BitVec.ofNat 5 j.val) → t.me.getV r = s.me.getV r
    let got (t : State) (j : Fin 4) (b : Nat) : Byte := (t.me.getV (x.d + BitVec.ofNat 5 j.val)).extractLsb' (8 * b) 8
    (∀ i, i = .vldb x ∨ (i = .vldbWeak x ∧ ∃ j : Fin 4, 2 ^ 52 ≤ at_ j) → Completes s i fun t => MeOnly s t ∧ loads t ∧
      ∀ (j : Fin 4) (b : Nat), b < 64 → got t j b = s.byte (at_ j + b)) ∧
    ((∀ j : Fin 4, at_ j < 2 ^ 52) → Completes s (.vldbWeak x) fun t => loads t ∧ t.mem = s.mem ∧
      (∀ c, c ≠ s.cur → t.ctx c = s.ctx c) ∧ t = { s with cores := t.cores, hives := t.hives, free := t.free } ∧
      ∀ (j : Fin 4) (b : Nat), b < 64 → got t j b = s.byte (at_ j + b) ∨
        ∃ q < 4, ∃ r ∈ (s.hive (quadHive (coreHive s.cur.core) q)).weakReads, r.pieces = [at_ 0, at_ 1, at_ 2, at_ 3] ∧
          got t j b = BitVec.ofNat 8 (r.values.getD j.val 0 / 2 ^ (8 * b)))

/-- 09 R215 to R218: every vector load. -/
def Obligations.VectorLoads : Prop :=
  Sys2Proof.Claims.VectorLoads ∧ Sys2Proof.Claims.BlockLoads

namespace Sys2Proof.Claims

/-! ## Numbers (03), said over the rationals -/

/-- A power of two. -/
def twoTo (e : Int) : Rat := if 0 ≤ e then ((2 ^ e.toNat : Nat) : Rat) else 1 / ((2 ^ (-e).toNat : Nat) : Rat)

/-- Exponent bits, fraction bits and bias (03 Table 3.2, R65). -/
def shape : Fmt → Nat × Nat × Int
  | .e4m3 => (4, 3, 7)
  | .e5m2 => (5, 2, 15)
  | .f16 => (5, 10, 15)
  | .bf16 => (8, 7, 127)
  | .f32 => (8, 23, 127)
  | .f64 => (11, 52, 1023)
  | .pa24 => (9, 14, 255)
  | .ax36 => (8, 27, 127)
  | .s20 => (7, 12, 63)

/-- Bits of a format. -/
def bitsOf (f : Fmt) : Nat := 1 + (shape f).1 + (shape f).2.1

/-- The exponent field. -/
def expField (f : Fmt) (x : Nat) : Nat := x / 2 ^ (shape f).2.1 % 2 ^ (shape f).1

/-- The fraction field. -/
def fracField (f : Fmt) (x : Nat) : Nat := x % 2 ^ (shape f).2.1

/-- The sign. -/
def negative (f : Fmt) (x : Nat) : Bool := x / 2 ^ ((shape f).1 + (shape f).2.1) % 2 == 1

/-- A zero of a sign; also the sign bit in its place. -/
def zeroOf (f : Fmt) (neg : Bool) : Nat := if neg then 2 ^ ((shape f).1 + (shape f).2.1) else 0

/-- A NaN (03 R62, R65). -/
def isNaN (f : Fmt) (x : Nat) : Bool :=
  match f with
  | .s20 => false
  | .e4m3 => x % 128 == 127
  | _ => expField f x == 2 ^ (shape f).1 - 1 && fracField f x != 0

/-- An infinity (03 R62). -/
def isInfinity (f : Fmt) (x : Nat) : Bool :=
  match f with
  | .s20 => false
  | .e4m3 => false
  | _ => expField f x == 2 ^ (shape f).1 - 1 && fracField f x == 0

/-- A signalling NaN: the fraction's most significant bit is 0 (03 R62). -/
def isSignalling (f : Fmt) (x : Nat) : Bool := f != .e4m3 && isNaN f x && fracField f x / 2 ^ ((shape f).2.1 - 1) == 0

/-- A finite number. -/
def isFinite (f : Fmt) (x : Nat) : Bool := !isNaN f x && !isInfinity f x

/-- The magnitude of a finite number (03 R61, R65). -/
def magnitude (f : Fmt) (x : Nat) : Rat :=
  let fr : Rat := (fracField f x : Rat) / ((2 ^ (shape f).2.1 : Nat) : Rat)
  if expField f x = 0 then twoTo (1 - (shape f).2.2) * fr else twoTo (expField f x - (shape f).2.2) * (1 + fr)

/-- The value of a finite number. -/
def real (f : Fmt) (x : Nat) : Rat := if negative f x then -magnitude f x else magnitude f x

/-- The largest finite number (03 Table 3.2, R65). -/
def largest : Fmt → Nat
  | .e4m3 => 0x7E
  | .e5m2 => 0x7B
  | .f16 => 0x7BFF
  | .bf16 => 0x7F7F
  | .f32 => 0x7F7FFFFF
  | .f64 => 0x7FEFFFFFFFFFFFFF
  | .pa24 => 0x7FBFFF
  | .ax36 => 0x7F7FFFFFF
  | .s20 => 0x7FFFF

/-- The canonical NaN (03 Table 3.3). -/
def canonical : Fmt → Nat
  | .e4m3 => 0x7F
  | .e5m2 => 0x7E
  | .f16 => 0x7E00
  | .bf16 => 0x7FC0
  | .f32 => 0x7FC00000
  | .f64 => 0x7FF8000000000000
  | .pa24 => 0x7FE000
  | .ax36 => 0x7FC000000
  | .s20 => 0

/-- An infinity of a sign. -/
def infinityOf (f : Fmt) (neg : Bool) : Nat := zeroOf f neg + (2 ^ (shape f).1 - 1) * 2 ^ (shape f).2.1

/-- A NaN with its quiet bit set (03 R72). -/
def quieted (f : Fmt) (x : Nat) : Nat := x ||| 2 ^ ((shape f).2.1 - 1)

/-- How y compares with x. -/
def against (x y : Rat) : Ordering := if y < x then .lt else if y = x then .eq else .gt

/-- How y compares with the square root of x. -/
def againstRoot (x y : Rat) : Ordering := if y < 0 then .lt else against x (y * y)

/-- How y compares with the reciprocal square root of x. -/
def againstRecipRoot (x y : Rat) : Ordering := if y < 0 then .lt else against 1 (y * y * x)

/-- 03 Table 3.5: the multiple of the spacing q to which a magnitude of a sign rounds; `c y` says how y compares with it. -/
def Picks (r : RMode) (neg : Bool) (c : Rat → Ordering) (q : Rat) (k : Nat) : Prop :=
  ∃ m : Nat, c (m * q) ≠ .gt ∧ c ((m + 1 : Nat) * q) = .gt ∧
    let half := c ((2 * m + 1 : Nat) * q / 2)
    k = if c (m * q) = .eq then m else match r with
      | .rtz => m
      | .rdn => if neg then m + 1 else m
      | .rup => if neg then m else m + 1
      | .rod => if m % 2 = 0 then m + 1 else m
      | .rmm => if half = .gt then m else m + 1
      | .rne => if half = .gt ∨ (half = .eq ∧ m % 2 = 0) then m else m + 1

/-- 03 R70, 05 R142: what an overflow gives. -/
def overflowed (f : Fmt) (r : RMode) (rule : OverflowRule) (neg : Bool) : Nat × Flags :=
  let top := (zeroOf f neg + largest f, fOF ||| fNX)
  let inf := (infinityOf f neg, fOF ||| fNX)
  match rule with
  | .intermediate => (infinityOf f neg, 0)
  | .saturate => top
  | .final =>
    if f = .e4m3 then (zeroOf f neg + 0x7F, fOF ||| fNX)
    else if f = .s20 then top
    else match r with
      | .rne => inf
      | .rmm => inf
      | .rtz => top
      | .rod => top
      | .rdn => if neg then inf else top
      | .rup => if neg then top else inf

/-- 03 R68, R70, R71, R78: the result and the flags of one rounding of a nonzero magnitude of a sign. -/
def Rounds (f : Fmt) (r : RMode) (rule : OverflowRule) (neg : Bool) (c : Rat → Ordering) (out : Nat × Flags) : Prop :=
  let fb : Int := (shape f).2.1
  let emin : Int := 1 - (shape f).2.2
  ∃ (l : Int) (k k' : Nat), c (twoTo l) ≠ .gt ∧ c (twoTo (l + 1)) = .gt ∧
    let q := twoTo (max l emin - fb)
    Picks r neg c q k ∧ Picks r neg c (twoTo (l - fb)) k' ∧
    if magnitude f (largest f) < k * q then out = overflowed f r rule neg
    else isFinite f out.1 = true ∧ out.1 < 2 ^ bitsOf f ∧ negative f out.1 = neg ∧ magnitude f out.1 = k * q ∧
      out.2 = if c (k * q) = .eq then 0
        else if rule ≠ .intermediate ∧ k' * twoTo (l - fb) < twoTo emin then fUF ||| fNX else fNX

/-- One rounding of a rational number; a zero takes the sign `zero` (03 R74). -/
def Delivers (f : Fmt) (r : RMode) (rule : OverflowRule) (zero : Bool) (x : Rat) (out : Nat × Flags) : Prop :=
  if x = 0 then out = (zeroOf f zero, 0)
  else Rounds f r rule (decide (x < 0)) (against (if x < 0 then -x else x)) out

/-- The sign of an exact sum of zero whose terms have these signs (03 R74). -/
def zeroSign (r : RMode) (signs : List Bool) : Bool :=
  if signs.all (· == true) then true else if signs.all (· == false) then false else r == .rdn

/-- The formats of Table 5.5. -/
def arithmetic (f : Fmt) : Prop := f = .f16 ∨ f = .bf16 ∨ f = .f32 ∨ f = .f64

/-- Whether a lies below b among the numbers with the infinities, where -0 equals +0. -/
def under (f : Fmt) (a b : Nat) : Prop :=
  (isInfinity f a = true ∧ negative f a = true ∧ ¬(isInfinity f b = true ∧ negative f b = true)) ∨
  (isInfinity f b = true ∧ negative f b = false ∧ ¬(isInfinity f a = true ∧ negative f a = false)) ∨
  (isFinite f a = true ∧ isFinite f b = true ∧ real f a < real f b)

/-- The NaN that a list of operands gives: canonical with NV where one signals, else the first, quieted (03 R72, R73). -/
def nanResult (f : Fmt) (xs : List Nat) (out : Nat × Flags) : Prop :=
  if xs.any (isSignalling f) then out = (canonical f, fNV)
  else ∀ before x after, xs = before ++ x :: after → isNaN f x = true → (∀ y ∈ before, isNaN f y = false) → out = (quieted f x, 0)

end Sys2Proof.Claims

/-- 03 R68 to R71, R74, R78, 05 R131, R135 to R137, Tables 5.5 and 5.6: on finite operands every arithmetic operation gives its exact
result rounded once in the selected mode, with the flags of that rounding. -/
def Sys2Proof.Claims.ArithmeticRounds : Prop :=
  ∀ (f : Fmt) (r : RMode) (rule : OverflowRule) (a b : Nat), arithmetic f → rule ≠ .intermediate →
    a < 2 ^ bitsOf f → b < 2 ^ bitsOf f → isFinite f a = true →
    let x := real f a
    let y := real f b
    let m := negative f a
    let n := negative f b
    (isFinite f b = true →
      Delivers f r rule (zeroSign r [m, n]) (x + y) (fpArith .add f r rule a b) ∧
      Delivers f r rule (zeroSign r [m, !n]) (x - y) (fpArith .sub f r rule a b) ∧
      Delivers f r rule (m != n) (x * y) (fpArith .mul f r rule a b) ∧
      (y ≠ 0 → Delivers f r rule (m != n) (x / y) (fpArith .div f r rule a b)) ∧
      (x ≠ 0 → y = 0 → fpArith .div f r rule a b = (infinityOf f (m != n), fDZ)) ∧
      (∀ (c : Nat) (np nc : Bool), c < 2 ^ bitsOf f → isFinite f c = true →
        Delivers f r rule (zeroSign r [np != (m != n), nc != negative f c])
          ((if np then -(x * y) else x * y) + (if nc then -real f c else real f c)) (fpFma np nc f r rule a b c)) ∧
      ∀ a' b' c : Nat, f = .f16 ∨ f = .bf16 → a' < 2 ^ 16 → b' < 2 ^ 16 → c < 2 ^ 32 → isFinite f a' = true → isFinite f b' = true →
        isFinite .f32 c = true →
        Delivers .f32 r rule (zeroSign r [m != n, negative f a' != negative f b', negative .f32 c])
          (x * y + real f a' * real f b' + real .f32 c) (fpDot2 f r rule a a' b b' c)) ∧
    (x = 0 → fpArith .sqrt f r rule a b = (zeroOf f m, 0)) ∧
    (0 < x → Rounds f r rule false (againstRoot x) (fpArith .sqrt f r rule a b)) ∧
    (x < 0 → fpArith .sqrt f r rule a b = (canonical f, fNV)) ∧
    ∀ xs : List Nat, (∀ z ∈ xs, z < 2 ^ bitsOf f ∧ isFinite f z = true) →
      Delivers f r rule (zeroSign r ((a :: xs).map (negative f))) (((a :: xs).map (real f)).foldl (· + ·) 0) (fpSum f r rule (a :: xs))

/-- 03 R72 to R74, 05 R136, R137: NaN operands, invalid operations and infinities. -/
def Sys2Proof.Claims.ArithmeticSpecials : Prop :=
  ∀ (f : Fmt) (r : RMode) (rule : OverflowRule) (a b : Nat), arithmetic f → a < 2 ^ bitsOf f → b < 2 ^ bitsOf f →
    let m := negative f a
    let n := negative f b
    let zero (x : Nat) : Prop := isFinite f x = true ∧ real f x = 0
    let bad : Nat × Flags := (canonical f, fNV)
    let go (op : FArith) : Nat × Flags := fpArith op f r rule a b
    (isNaN f a = true ∨ isNaN f b = true → ∀ op ∈ [FArith.add, .sub, .mul, .div], nanResult f [a, b] (go op)) ∧
    (isNaN f a = true → nanResult f [a] (go .sqrt)) ∧
    (isInfinity f a = true → isInfinity f b = true →
      (m ≠ n → go .add = bad ∧ go .sub = (a, 0)) ∧ (m = n → go .add = (a, 0) ∧ go .sub = bad) ∧
      go .mul = (infinityOf f (m != n), 0) ∧ go .div = bad) ∧
    (isInfinity f a = true → isFinite f b = true → go .add = (a, 0) ∧ go .sub = (a, 0) ∧ go .div = (infinityOf f (m != n), 0) ∧
      (real f b = 0 → go .mul = bad) ∧ (real f b ≠ 0 → go .mul = (infinityOf f (m != n), 0))) ∧
    (isFinite f a = true → isInfinity f b = true → go .add = (b, 0) ∧ go .sub = (infinityOf f (!n), 0) ∧
      go .div = (zeroOf f (m != n), 0) ∧ (real f a = 0 → go .mul = bad) ∧ (real f a ≠ 0 → go .mul = (infinityOf f (m != n), 0))) ∧
    (zero a → zero b → go .div = bad) ∧
    (isInfinity f a = true → go .sqrt = if m then bad else (a, 0)) ∧
    (∀ (c : Nat) (np nc : Bool), c < 2 ^ bitsOf f →
      let e := nc != negative f c
      let p := np != (m != n)
      let clash : Prop := (zero a ∧ isInfinity f b = true) ∨ (isInfinity f a = true ∧ zero b)
      let endless : Prop := ¬clash ∧ isNaN f a = false ∧ isNaN f b = false ∧ (isInfinity f a = true ∨ isInfinity f b = true)
      let out := fpFma np nc f r rule a b c
      (clash → out = bad) ∧
      (¬clash → isNaN f a = true ∨ isNaN f b = true ∨ isNaN f c = true → nanResult f [a, b, c] out) ∧
      (endless → isNaN f c = false → out = if isInfinity f c = true ∧ e ≠ p then bad else (infinityOf f p, 0)) ∧
      (isFinite f a = true → isFinite f b = true → isInfinity f c = true → out = (infinityOf f e, 0))) ∧
    ∀ xs : List Nat, (∀ z ∈ xs, z < 2 ^ bitsOf f) →
      let up : Prop := ∃ z ∈ xs, isInfinity f z = true ∧ negative f z = false
      let down : Prop := ∃ z ∈ xs, isInfinity f z = true ∧ negative f z = true
      (up → down → fpSum f r rule xs = bad) ∧
      (¬(up ∧ down) → (∃ z ∈ xs, isNaN f z = true) → nanResult f xs (fpSum f r rule xs)) ∧
      ((∀ z ∈ xs, isNaN f z = false) → (up → ¬down → fpSum f r rule xs = (infinityOf f false, 0)) ∧
        (down → ¬up → fpSum f r rule xs = (infinityOf f true, 0)))

/-- 03 R74, R80, Table 3.7, 05 R132 to R134: minimum and maximum, comparison, class and rounding to an integral value. -/
def Sys2Proof.Claims.SelectsAndCompares : Prop :=
  ∀ (f : Fmt) (r : RMode) (a b : Nat), arithmetic f → a < 2 ^ bitsOf f → b < 2 ^ bitsOf f →
    let either : Bool := isNaN f a || isNaN f b
    let signals : Bool := isSignalling f a || isSignalling f b
    let below (x y : Nat) : Prop := under f x y ∨ (real f x = real f y ∧ isFinite f x = true ∧ isFinite f y = true ∧
      negative f x = true ∧ negative f y = false)
    (either = false → ∀ (mx prop : Bool), (below a b → fpMinMax mx prop f a b = (if mx then b else a, 0)) ∧
      (below b a → fpMinMax mx prop f a b = (if mx then a else b, 0)) ∧ (a = b → fpMinMax mx prop f a b = (a, 0))) ∧
    (either = true → ∀ mx : Bool, fpMinMax mx true f a b = (if signals = true ∨ (isNaN f a = true ∧ isNaN f b = true) then canonical f
        else quieted f (if isNaN f a then a else b), if signals then fNV else 0) ∧
      fpMinMax mx false f a b = (if isNaN f a = true ∧ isNaN f b = true then canonical f else if isNaN f a then b else a,
        if signals then fNV else 0)) ∧
    (let equal : Prop := ¬under f a b ∧ ¬under f b a
     ∀ cc < 8, ((fpCmp cc f a b).1 = true ↔
       (either = false ∧ ((cc = 0 ∧ equal) ∨ (cc = 1 ∧ ¬equal) ∨ (cc = 2 ∧ under f a b) ∨ (cc = 3 ∧ ¬under f b a) ∨ (cc = 4 ∧ under f b a) ∨
         (cc = 5 ∧ ¬under f a b) ∨ cc = 7)) ∨ (either = true ∧ (cc = 1 ∨ cc = 6))) ∧
       (fpCmp cc f a b).2 = if signals = true ∨ (either = true ∧ (cc = 2 ∨ cc = 3 ∨ cc = 4 ∨ cc = 5)) then fNV else 0) ∧
    (let whole : Prop := isFinite f a = true ∧ ∃ z : Int, real f a = z
     let c := fpClass f a
     c < 32 ∧ (c.testBit 3 = negative f a) ∧ (c.testBit 4 = true ↔ whole) ∧
     c % 8 = if isNaN f a then (if isSignalling f a then 5 else 4) else if isInfinity f a then 3
       else if expField f a ≠ 0 then 2 else if fracField f a ≠ 0 then 1 else 0) ∧
    (let out := fpRoundInt f r a
     (isNaN f a = true → nanResult f [a] out) ∧ (isInfinity f a = true → out = (a, 0)) ∧
     (isFinite f a = true → ∃ k, Picks r (negative f a) (against (magnitude f a)) 1 k ∧ isFinite f out.1 = true ∧ out.1 < 2 ^ bitsOf f ∧
       negative f out.1 = negative f a ∧ magnitude f out.1 = k ∧ out.2 = if (k : Rat) = magnitude f a then 0 else fNX))

/-- 03 R59, R60, R65, R72, R73, R75, R76, 05 R140 to R142: conversions of one value. -/
def Sys2Proof.Claims.ConversionsRound : Prop :=
  ∀ (r : RMode) (rule : OverflowRule) (a : Nat), rule ≠ .intermediate →
    let plain (f : Fmt) : Prop := arithmetic f ∨ f = .e4m3 ∨ f = .e5m2
    let integer (t : IntTy) : Prop := t.w = 8 ∨ t.w = 16 ∨ t.w = 32 ∨ t.w = 64
    let low (t : IntTy) : Int := if t.signed then -(2 ^ (t.w - 1) : Int) else 0
    let high (t : IntTy) : Int := if t.signed then 2 ^ (t.w - 1) - 1 else 2 ^ t.w - 1
    let code (t : IntTy) (z : Int) (y : Nat) : Prop := y < 2 ^ t.w ∧ ((y : Int) = z ∨ (y : Int) = z + 2 ^ t.w)
    (∀ f g, plain f → plain g → a < 2 ^ bitsOf f →
      let out := fpToFp f g r rule a
      (isFinite f a = true → Delivers g r rule (negative f a) (real f a) out) ∧
      (isInfinity f a = true → out = if g ≠ .e4m3 then (infinityOf g (negative f a), 0)
        else if rule = .saturate then (zeroOf g (negative f a) + largest g, fNX) else (zeroOf g (negative f a) + 0x7F, fNV)) ∧
      (isSignalling f a = true → out = (canonical g, fNV)) ∧
      (isNaN f a = true → isSignalling f a = false → out.2 = 0 ∧ isNaN g out.1 = true ∧ isSignalling g out.1 = false ∧
        negative g out.1 = negative f a ∧ (f ≠ .e4m3 → g ≠ .e4m3 →
          if (shape f).2.1 ≤ (shape g).2.1 then fracField g out.1 = fracField f a * 2 ^ ((shape g).2.1 - (shape f).2.1)
          else fracField g out.1 = fracField f a / 2 ^ ((shape f).2.1 - (shape g).2.1)))) ∧
    (∀ f t, plain f → integer t → a < 2 ^ bitsOf f →
      let out := fpToInt f t r a
      (isNaN f a = true → out = (0, fNV)) ∧
      (isInfinity f a = true → out.2 = fNV ∧ code t (if negative f a then low t else high t) out.1) ∧
      (isFinite f a = true → ∃ k : Nat, Picks r (negative f a) (against (magnitude f a)) 1 k ∧
        let z : Int := if negative f a then -(k : Int) else k
        (z < low t → out.2 = fNV ∧ code t (low t) out.1) ∧ (high t < z → out.2 = fNV ∧ code t (high t) out.1) ∧
        (low t ≤ z → z ≤ high t → code t z out.1 ∧ out.2 = if (k : Rat) = magnitude f a then 0 else fNX))) ∧
    (∀ f (z : Int), plain f → Delivers f r rule false z (intToFp f r rule z)) ∧
    (∀ t (z : Int), integer t →
      (t.narrow false z).2 = 0 ∧ (t.narrow false z).1 < 2 ^ t.w ∧ ((t.narrow false z).1 : Int) % 2 ^ t.w = z % 2 ^ t.w ∧
      code t (max (low t) (min (high t) z)) (t.narrow true z).1 ∧
      (t.narrow true z).2 = if low t ≤ z ∧ z ≤ high t then 0 else fSX) ∧
    (∀ f (q4 : Bool) (rec q : Nat), arithmetic f → f ≠ .f64 → q < (if q4 then 16 else 256) →
      let sc := real .s20 (rec % 2 ^ 20)
      let zp : Nat := if q4 then rec / 2 ^ 20 % 16 else rec / 2 ^ 20 % 256
      let skip : Bool := rec / 2 ^ 28 % 2 == 1
      let top : Nat := if q4 then 15 else 255
      Delivers f r rule false (if skip then 0 else sc * ((q : Int) - zp : Int)) (qdeq f r rule (groupRecord q4 rec) q) ∧
      (a < 2 ^ bitsOf f →
        let out := qquant f r (groupRecord q4 rec) top a
        let flip := negative f a != decide (sc < 0)
        (skip = true ∨ sc = 0 → out = (zp, 0)) ∧
        (skip = false → sc ≠ 0 → (isNaN f a = true → out = (zp, fNV)) ∧
          (isInfinity f a = true → out = (if flip then 0 else top, fSX)) ∧
          (isFinite f a = true → ∃ k : Nat, Picks r flip (against (magnitude f a / (if sc < 0 then -sc else sc))) 1 k ∧
            let z : Int := (if flip then -(k : Int) else k) + zp
            (out.1 : Int) = max 0 (min (top : Int) z) ∧
            out.2 = (if (k : Rat) * (if sc < 0 then -sc else sc) = magnitude f a then 0 else fNX) |||
              (if 0 ≤ z ∧ z ≤ top then 0 else fSX))))) ∧
    (a < 2 ^ 32 → (isNaN .f32 a = true → f32ToS20 r a = (0, fNV)) ∧
      (isInfinity .f32 a = true → f32ToS20 r a = (zeroOf .s20 (negative .f32 a) + largest .s20, fOF ||| fNX)) ∧
      (isFinite .f32 a = true → Delivers .s20 r .final (negative .f32 a) (real .f32 a) (f32ToS20 r a))) ∧
    ((s20ToF32 a).2 = 0 ∧ isFinite .f32 (s20ToF32 a).1 = true ∧ real .f32 (s20ToF32 a).1 = real .s20 (a % 2 ^ 20))

/-- 03 R72, R73, 05 R145: the XFN functions at special operands, where their result is algebraic (the reciprocals, powers and
logarithms of 2), and NX wherever it is not. A .f64 result is one of the two neighbours, which of them stays free (log 20). -/
def Sys2Proof.Claims.TranscendentalRounds : Prop :=
  ∀ (f : Fmt) (r : RMode) (rule : OverflowRule) (a : Nat), arithmetic f → rule ≠ .intermediate → a < 2 ^ bitsOf f →
    let n := negative f a
    let x := real f a
    let go (op : XfnOp) : Nat × Flags := fpXfn op f r rule a
    let one : Nat := (shape f).2.2.toNat * 2 ^ (shape f).2.1
    let bad : Nat × Flags := (canonical f, fNV)
    let rounds (neg : Bool) (c : Rat → Ordering) (out : Nat × Flags) : Prop :=
      if f = .f64 then ∃ r', Rounds f r' rule neg c out else Rounds f r rule neg c out
    (isNaN f a = true → ∀ op, nanResult f [a] (go op)) ∧
    (isInfinity f a = true →
      (∀ op, op = .exp2 ∨ op = .exp → go op = if n then (0, 0) else (infinityOf f false, 0)) ∧
      go .log2 = (if n then bad else (infinityOf f false, 0)) ∧ go .sin = bad ∧ go .cos = bad ∧ go .tanh = (zeroOf f n + one, 0) ∧
      go .rsq = (if n then bad else (0, 0)) ∧ go .rcp = (zeroOf f n, 0)) ∧
    (isFinite f a = true → x = 0 →
      (∀ op, op = .exp2 ∨ op = .exp ∨ op = .cos → go op = (one, 0)) ∧ go .log2 = (infinityOf f true, fDZ) ∧
      (∀ op, op = .sin ∨ op = .tanh → go op = (zeroOf f n, 0)) ∧ ∀ op, op = .rsq ∨ op = .rcp → go op = (infinityOf f n, fDZ)) ∧
    (isFinite f a = true → x < 0 → go .log2 = bad ∧ go .rsq = bad) ∧
    (isFinite f a = true → x ≠ 0 →
      rounds n (against (1 / magnitude f a)) (go .rcp) ∧ (0 < x → rounds false (againstRecipRoot x) (go .rsq)) ∧
      (∀ k : Int, x = k → rounds false (against (twoTo k)) (go .exp2)) ∧
      (∀ k : Int, x = twoTo k → (k = 0 → go .log2 = (0, 0)) ∧
        (k ≠ 0 → rounds (decide (k < 0)) (against (k.natAbs : Rat)) (go .log2))) ∧
      (∀ op, op = .exp ∨ op = .sin ∨ op = .cos ∨ op = .tanh ∨ (op = .exp2 ∧ ∀ k : Int, x ≠ k) ∨ (op = .log2 ∧ 0 < x ∧ ∀ k, x ≠ twoTo k) →
        (go op).2 &&& fNX ≠ 0))

/-- 03 R59 to R76, R78, R80, 05 R131 to R145: the arithmetic of one lane: exact results rounded once, special operands,
selection, comparison, conversion, and the XFN functions where their value is algebraic. The model's readings: the sign of an
infinity in .e4m3 (log 105), NV alone for an integer out of range (log 106), one rounding between formats of one width (log 109). -/
def Obligations.FloatRounding : Prop :=
  Sys2Proof.Claims.ArithmeticRounds ∧ Sys2Proof.Claims.ArithmeticSpecials ∧ Sys2Proof.Claims.SelectsAndCompares ∧
    Sys2Proof.Claims.ConversionsRound ∧ Sys2Proof.Claims.TranscendentalRounds

namespace Sys2Proof.Claims

/-! ## Floating point -/

/-- FCTL.EN as a mask over the flags (03 Table 3.6). -/
def enabled (m : Context) : Flags := (m.fctl.extractLsb' 8 5).setWidth 6

/-- The rounding mode of a format-V instruction (02 R41, 03 Table 3.5). -/
def modeOf (x : VForm) (m : Context) : RMode := RMode.ofCode (x.form.rmCode m).toNat

/-- How it overflows: by SAT (03 R70). -/
def ruleOf (x : VForm) : OverflowRule := if x.form.sat then .saturate else .final

/-- Operand B of a vector: the literal in every lane, or V[B]. -/
def laneB (x : VForm) (m : Context) (w i : Nat) : Nat :=
  (match x.form.literal? with
   | some l => l.setWidth w
   | none => lane w (m.getV x.b) i).toNat

/-- The register of the third source: E1.C, or D in base form (05 R135). -/
def thirdReg (x : VForm) : Reg := if x.form.isExt then x.form.c else x.d

/-- A vector job executes where it is issued: each of its n lanes of width w becomes its result, the lanes above are 0, and
FCTL takes the union of the active lanes' flags; where a raised flag is enabled it takes FP instead, and writes nothing (03
R78, R79). -/
def GivesFloats (s : State) (i : Instr) (x : VForm) (w n : Nat) (g : Nat → Nat × Flags) : Prop :=
  let m := s.me
  let active := (List.range n).filter fun l => (x.mask m).getLsbD l
  let fl := (active.map fun l => (g l).2).foldl (· ||| ·) 0
  (fl &&& enabled m = 0 →
    GivesLanes s i x w (fun l => if l < n then masked w x m (fun l => BitVec.ofNat w (g l).1) l else 0) fl) ∧
  (m.tinh = false → ∀ l, l < n → (x.mask m).getLsbD l = true → (g l).2 &&& enabled m ≠ 0 →
    (∀ k, k < l → (x.mask m).getLsbD k = true → (g k).2 &&& enabled m = 0) →
    Traps s i .fp ((fl.extractLsb' 0 5).setWidth 64 ||| BitVec.ofNat 64 (l * 2 ^ 16)) x.form.len)

/-- A scalar job executes where it is issued: S[D] becomes v and FCTL takes the flags, or FP is taken; inactive, it zeroes
S[D] when Z = 1 and leaves it otherwise. -/
def GivesFloat (s : State) (i : Instr) (x : VForm) (v : Word) (fl : Flags) : Prop :=
  let m := s.me
  ((x.mask m).getLsbD 0 = true →
    (fl &&& enabled m = 0 → Completes s i fun t => MeOnly s t ∧ ScalarFrame s t ∧ Past s t (wordsOf x.form) ∧
      ScalarsAfter s t x.d v ∧ SpecAfter s t x.d ∧ t.me.fctl = m.fctl ||| fl.setWidth 64) ∧
    (fl &&& enabled m ≠ 0 → m.tinh = false → Traps s i .fp ((fl.extractLsb' 0 5).setWidth 64) x.form.len)) ∧
  ((x.mask m).getLsbD 0 = false → Completes s i fun t => MeOnly s t ∧ ScalarFrame s t ∧ Past s t (wordsOf x.form) ∧
    t.me.fctl = m.fctl ∧ if x.form.zeroes then ScalarsAfter s t x.d 0 else ∀ r, t.me.getS r = m.getS r)

/-- A type code of FCVT as an integer type: signedness and width (05 R139). -/
def codeTy (c : Nat) : IntTy := { signed := decide (c < 4), w := 8 * 2 ^ (c % 4) }

/-- A type code of FCVT as a floating type (05 R139). -/
def codeFmt (c : Nat) : Fmt :=
  match c with
  | 8 => .e4m3
  | 9 => .e5m2
  | 10 => .f16
  | 11 => .bf16
  | 12 => .f32
  | _ => .f64

/-- The width of a type code. -/
def codeWidth (c : Nat) : Nat := if c < 8 then 8 * 2 ^ (c % 4) else (codeFmt c).width

/-- What FCVT gives for a pair of type codes (05 R140): rounding, saturation and flags are those of 03 R60, R70 and R75. -/
def convert (src dst : Nat) (r : RMode) (sat : Bool) (a : Nat) : Nat × Flags :=
  let rule : OverflowRule := if sat then .saturate else .final
  if src < 8 then
    (if dst < 8 then (codeTy dst).narrow sat ((codeTy src).val a) else intToFp (codeFmt dst) r rule ((codeTy src).val a))
  else if dst < 8 then fpToInt (codeFmt src) (codeTy dst) r a
  else fpToFp (codeFmt src) (codeFmt dst) r rule a

end Sys2Proof.Claims

/-- 05 R131 to R134, R146, Table 5.5: the vector floating instructions. Every type runs on a big core; a little core runs all but
.f64 itself. `fpArith`, `fpMinMax`, `fpCmp`, `fpClass` and `fpRoundInt` are the arithmetic of one lane, which `Obligations.FloatRounding` states. -/
def Sys2Proof.Claims.FloatVectorResults : Prop :=
  ∀ (s : State) (x : VForm), s.cur.core.big = true ∨ tyFp x.ty ≠ .f64 →
    let f := tyFp x.ty
    let w := f.width
    let m := s.me
    let r := modeOf x m
    let rule := ruleOf x
    let a (i : Nat) : Nat := (lane w (m.getV x.a) i).toNat
    let b (i : Nat) : Nat := laneB x m w i
    let top : Nat := 2 ^ (w - 1)
    let gives (i : Instr) (g : Nat → Nat × Flags) : Prop := GivesFloats s i x w (512 / w) g
    gives (.fpvFadd x) (fun i => fpArith .add f r rule (a i) (b i)) ∧
    gives (.fpvFsub x) (fun i => fpArith .sub f r rule (a i) (b i)) ∧
    gives (.fpvFmul x) (fun i => fpArith .mul f r rule (a i) (b i)) ∧
    gives (.fpvFdiv x) (fun i => fpArith .div f r rule (a i) (b i)) ∧
    gives (.fpvFsqrt x) (fun i => fpArith .sqrt f r rule (a i) (b i)) ∧
    gives (.fpvFmin x) (fun i => fpMinMax false false f (a i) (b i)) ∧
    gives (.fpvFmax x) (fun i => fpMinMax true false f (a i) (b i)) ∧
    gives (.fpvFminm x) (fun i => fpMinMax false true f (a i) (b i)) ∧
    gives (.fpvFmaxm x) (fun i => fpMinMax true true f (a i) (b i)) ∧
    gives (.fpvFabs x) (fun i => (a i % top, 0)) ∧ gives (.fpvFneg x) (fun i => ((a i + top) % 2 ^ w, 0)) ∧
    gives (.fpvFsgnj x) (fun i => (a i % top + b i / top * top, 0)) ∧
    gives (.fpvFclass x) (fun i => (fpClass f (a i), 0)) ∧ gives (.fpvFrnd x) (fun i => fpRoundInt f r (a i)) ∧
    (let cc := (x.form.e2.extractLsb' 0 3).toNat
     let n := 512 / w
     let active := (List.range n).filter fun l => (x.mask m).getLsbD l
     let fl := (active.map fun l => (fpCmp cc f (a l) (b l)).2).foldl (· ||| ·) 0
     (m.tinh = false → ∀ l, l < n → (x.mask m).getLsbD l = true → (fpCmp cc f (a l) (b l)).2 &&& enabled m ≠ 0 →
       (∀ k, k < l → (x.mask m).getLsbD k = true → (fpCmp cc f (a k) (b k)).2 &&& enabled m = 0) →
       Traps s (.fpvFcmp x) .fp ((fl.extractLsb' 0 5).setWidth 64 ||| BitVec.ofNat 64 (l * 2 ^ 16)) x.form.len) ∧
     (fl &&& enabled m = 0 → Completes s (.fpvFcmp x) fun t =>
       MeOnly s t ∧ Past s t (wordsOf x.form) ∧ t.me.fctl = m.fctl ||| fl.setWidth 64 ∧
       t.me = { m with p := t.me.p, fctl := t.me.fctl, pc := t.me.pc, blocked := t.me.blocked } ∧
       ∀ q j, (t.me.getP q).getLsbD j =
         if q = 0 then decide (j < 64)
         else if q = x.d.setWidth 3 then decide (j < n) &&
           (if (x.mask m).getLsbD j then (fpCmp cc f (a j) (b j)).1
            else !x.form.zeroes && (m.getP (x.d.setWidth 3)).getLsbD j)
         else (m.getP q).getLsbD j))

/-- 05 R131 to R134, Table 5.5: the scalar floating instructions, on the low bits of their registers; the bits above the type are
written as 0. -/
def Sys2Proof.Claims.FloatScalarResults : Prop :=
  ∀ (s : State) (x : VForm), s.cur.core.big = true ∨ tyFp x.ty ≠ .f64 →
    let f := tyFp x.ty
    let w := f.width
    let m := s.me
    let r := modeOf x m
    let rule := ruleOf x
    let a : Nat := ((m.getS x.a).setWidth w).toNat
    let b : Nat := ((match x.form.literal? with
      | some l => l
      | none => m.getS x.b).setWidth w).toNat
    let top : Nat := 2 ^ (w - 1)
    let gives (i : Instr) (g : Nat × Flags) : Prop := GivesFloat s i x (BitVec.ofNat 64 g.1) g.2
    gives (.fpsFadd x) (fpArith .add f r rule a b) ∧ gives (.fpsFsub x) (fpArith .sub f r rule a b) ∧
    gives (.fpsFmul x) (fpArith .mul f r rule a b) ∧ gives (.fpsFdiv x) (fpArith .div f r rule a b) ∧
    gives (.fpsFsqrt x) (fpArith .sqrt f r rule a b) ∧ gives (.fpsFmin x) (fpMinMax false false f a b) ∧
    gives (.fpsFmax x) (fpMinMax true false f a b) ∧ gives (.fpsFminm x) (fpMinMax false true f a b) ∧
    gives (.fpsFmaxm x) (fpMinMax true true f a b) ∧ gives (.fpsFabs x) (a % top, 0) ∧
    gives (.fpsFneg x) ((a + top) % 2 ^ w, 0) ∧ gives (.fpsFsgnj x) (a % top + b / top * top, 0) ∧
    gives (.fpsFclass x) (fpClass f a, 0) ∧ gives (.fpsFrnd x) (fpRoundInt f r a) ∧
    (let c := fpCmp (x.form.e2.extractLsb' 0 3).toNat f a b
     gives (.fpsFcmp x) (if c.1 then 1 else 0, c.2))

/-- 05 R131 to R134, Table 5.5: FPV and FPS. -/
def Obligations.FloatResults : Prop :=
  Sys2Proof.Claims.FloatVectorResults ∧ Sys2Proof.Claims.FloatScalarResults

/-- 05 R135 to R137, Table 5.6: fused multiply-add rounds once; FDOT2 sums two products and the .f32 addend; FREDS sums the active
lanes, lowest first, and S[B], and rounds once. `Obligations.FloatRounding` states the arithmetic of one lane. -/
def Obligations.FusedResults : Prop :=
  ∀ (s : State) (x : VForm), s.cur.core.big = true ∨ tyFp x.ty ≠ .f64 →
    let f := tyFp x.ty
    let w := f.width
    let m := s.me
    let r := modeOf x m
    let rule := ruleOf x
    let va (i : Nat) : Nat := (lane w (m.getV x.a) i).toNat
    let vb (i : Nat) : Nat := laneB x m w i
    let vc (i : Nat) : Nat := (lane w (m.getV (thirdReg x)) i).toNat
    let a : Nat := ((m.getS x.a).setWidth w).toNat
    let b : Nat := ((match x.form.literal? with
      | some l => l
      | none => m.getS x.b).setWidth w).toNat
    let c : Nat := ((m.getS (thirdReg x)).setWidth w).toNat
    let vector (i : Instr) (negProduct negAddend : Bool) : Prop :=
      GivesFloats s i x w (512 / w) fun l => fpFma negProduct negAddend f r rule (va l) (vb l) (vc l)
    let scalar (i : Instr) (negProduct negAddend : Bool) : Prop :=
      let g := fpFma negProduct negAddend f r rule a b c
      GivesFloat s i x (BitVec.ofNat 64 g.1) g.2
    vector (.ffmaVector x) false false ∧ vector (.ffmsVector x) false true ∧ vector (.fnfmaVector x) true false ∧
    vector (.fnfmsVector x) true true ∧ scalar (.ffmaScalar x) false false ∧ scalar (.ffmsScalar x) false true ∧
    scalar (.fnfmaScalar x) true false ∧ scalar (.fnfmsScalar x) true true ∧
    (let h (v : VWord) (j : Nat) : Nat := (lane 16 v j).toNat
     let hb (j : Nat) : Nat := laneB x m 16 j
     GivesFloats s (.fdot2 x) x 32 16 fun l =>
       fpDot2 f r rule (h (m.getV x.a) (2 * l)) (h (m.getV x.a) (2 * l + 1)) (hb (2 * l)) (hb (2 * l + 1))
         (lane 32 (m.getV (thirdReg x)) l).toNat) ∧
    (let terms := ((List.range (512 / w)).filter fun i => (x.mask m).getLsbD i).map va
     let g := fpSum f r rule (terms ++ [b])
     (g.2 &&& enabled m = 0 → Completes s (.freds x) fun t => MeOnly s t ∧ ScalarFrame s t ∧ Past s t (wordsOf x.form) ∧
       ScalarsAfter s t x.d (BitVec.ofNat 64 g.1) ∧ t.me.fctl = m.fctl ||| g.2.setWidth 64) ∧
     (g.2 &&& enabled m ≠ 0 → m.tinh = false → Traps s (.freds x) .fp ((g.2.extractLsb' 0 5).setWidth 64) x.form.len))

/-- 05 R138 to R142: conversions between every pair of type codes, vector and scalar; dequantisation, quantisation and block
scales. `Obligations.FloatRounding` states the conversion of one value. -/
def Obligations.ConversionResults : Prop :=
  ∀ (s : State) (x : VForm),
    let m := s.me
    let r := modeOf x m
    let src := (x.form.e2.extractLsb' 8 5).toNat
    let dst := (x.form.e2.extractLsb' 0 5).toNat
    let sw := codeWidth src
    let dw := codeWidth dst
    let b : Word := match x.form.literal? with
      | some l => l
      | none => m.getS x.b
    (src < 14 → dst < 14 → s.cur.core.big = true ∨ (src ≠ 13 ∧ dst ≠ 13) →
      GivesFloats s (.fcvtVector x) x dw (512 / max sw dw)
        (fun l => convert src dst r x.form.sat (lane sw (m.getV x.a) l).toNat) ∧
      (let g := convert src dst r x.form.sat ((m.getS x.a).setWidth sw).toNat
       GivesFloat s (.fcvtScalar x) x
         (if dst < 8 then BitVec.ofInt 64 ((codeTy dst).val g.1) else BitVec.ofNat 64 g.1) g.2)) ∧
    (let q4 := x.ty.getLsbD 2
     let f : Fmt := match (x.ty.extractLsb' 0 2).toNat with
       | 0 => .f32
       | 1 => .f16
       | _ => .bf16
     let cw := if q4 then 4 else 8
     let group := groupRecord q4 (b.setWidth 32).toNat
     GivesFloats s (.qdeq x) x f.width (512 / max cw f.width)
       (fun l => qdeq f r (ruleOf x) group (lane cw (m.getV x.a) l).toNat) ∧
     GivesFloats s (.qquant x) x cw (512 / max f.width cw)
       (fun l => qquant f r group (if q4 then 15 else 255) (lane f.width (m.getV x.a) l).toNat)) ∧
    (let a := ((m.getS x.a).setWidth 32).toNat
     let g := if x.ty = 0 then f32ToS20 r a else s20ToF32 a
     GivesFloat s (.scvt x) x (BitVec.ofNat 64 g.1) g.2)

/-- 05 R144 to R147: the transcendental functions on a big core. Which neighbour an inexact .f64 result is stays free (log 20). `Obligations.FloatRounding` states
what one value gives. -/
def Obligations.TranscendentalResults : Prop :=
  ∀ (s : State) (x : VForm), s.cur.core.big = true →
    let f := tyFp x.ty
    let w := f.width
    let m := s.me
    let gives (i : Bool → Instr) (op : XfnOp) : Prop :=
      GivesFloats s (i false) x w (512 / w) (fun l => fpXfn op f (modeOf x m) (ruleOf x) (lane w (m.getV x.a) l).toNat) ∧
      (let g := fpXfn op f (modeOf x m) (ruleOf x) ((m.getS x.a).setWidth w).toNat
       GivesFloat s (i true) x (BitVec.ofNat 64 g.1) g.2)
    gives (.fexp2 · x) .exp2 ∧ gives (.fexp · x) .exp ∧ gives (.flog2 · x) .log2 ∧ gives (.fsin · x) .sin ∧
    gives (.fcos · x) .cos ∧ gives (.ftanh · x) .tanh ∧ gives (.frsq · x) .rsq ∧ gives (.frcp · x) .rcp

namespace Sys2Proof.Claims

/-- What shipping does at the sender (06 R150 to R155): no register, no memory and no other context changes; each destination is
pending; one packet, with the work `W` accepts, goes to the hive's guest queue, and its flags wait at the end of the merge queue. -/
def Ships (s t : State) (held : Bool) (dests : List Dest) (W : ShipWork → Prop) : Prop :=
  let m := s.me
  let h := coreHive s.cur.core
  t.me.s = m.s ∧ t.me.v = m.v ∧ t.me.p = m.p ∧ t.me.fctl = m.fctl ∧ t.mem = s.mem ∧
  (∀ d ∈ dests, t.me.pending d = (match d with
    | .s r => r != 0
    | .v _ => true
    | .p r => r != 0)) ∧
  (∃ p, (t.hive h).arriving = (s.hive h).arriving ++ [p] ∧ p.sender = s.cur ∧ p.held = held ∧ p.tag = m.nextTag % 64 ∧ W p.work) ∧
  t.me.flagQueue = m.flagQueue ++ [{ tag := m.nextTag % 64, flags := none }] ∧
  (t.core s.cur.core).spent = (s.core s.cur.core).spent + 1 ∧ ∀ c, c ≠ s.cur → t.ctx c = s.ctx c

/-- A held sender stays in its instruction until the result lands (06 R156, R157). -/
def Held (s t : State) (i : Instr) : Prop :=
  t.me.pc = s.me.pc ∧ ∃ b, t.me.blocked = some b ∧ b.instr = i ∧ b.deadline = none

/-- The work of a shipped floating instruction (06 R150, Table 6.2): the operation, the source values, the kept destination, the
mask and the captured rounding mode. `sa` and `sb` say whether A (with the third source) and B are scalar; `w` is the lane width
that a literal fills. -/
def Captured (x : VForm) (m : Context) (op : FpOp) (d : Dest) (sa sb : Bool) (w : Nat) (j : FpJob) : Prop :=
  let value (scalar : Bool) (r : Reg) : VWord := if scalar then (m.getS r).setWidth 512 else m.getV r
  j.op = op ∧ j.dest = d ∧ j.mask = x.mask m ∧ j.zero = x.form.zeroes ∧ j.rm = x.form.rmCode m ∧ j.sat = x.form.sat ∧
  j.a = value sa x.a ∧ j.c = value sa (thirdReg x) ∧
  j.old = (match d with
    | .s r => (m.getS r).setWidth 512
    | .v r => m.getV r
    | .p r => (m.getP r).setWidth 512) ∧
  match x.form.literal? with
  | none => j.b = value sb x.b
  | some l => (sb = true → j.b = l.setWidth 512) ∧ (sb = false → ∀ i, i < 512 / w → lane w j.b i = l.setWidth w)

end Sys2Proof.Claims

/-- 05 R146, 06 R149 to R157: a little core with a free credit ships every floating instruction on .f64 and every XFN form: with no
trap enabled the context moves on, and with one enabled it is held in the instruction. A scalar form whose mask bit is 0 ships
nothing. -/
def Sys2Proof.Claims.HeavyFloatsShip : Prop :=
  ∀ (s : State) (x : VForm), s.cur.core.big = false → s.canShip = true → s.me.blocked = none →
    let m := s.me
    let f := tyFp x.ty
    let ships (i : Instr) (op : FpOp) (d : Dest) (sa sb : Bool) (w : Nat) : Prop :=
      let work (k : ShipWork) : Prop := ∃ j, k = .float j ∧ Captured x m op d sa sb w j
      (enabled m = 0 → Completes s i fun t => Past s t (wordsOf x.form) ∧ Ships s t false [d] work) ∧
      (enabled m ≠ 0 → Completes s i fun t => Held s t i ∧ Ships s t true [d] work)
    let vector (i : Instr) (op : FpOp) (w : Nat) : Prop := ships i op (.v x.d) false false w
    let scalar (i : Instr) (op : FpOp) : Prop :=
      ((x.mask m).getLsbD 0 = true → ships i op (.s x.d) true true 64) ∧
      ((x.mask m).getLsbD 0 = false → Completes s i fun t => MeOnly s t ∧ ScalarFrame s t ∧ Past s t (wordsOf x.form) ∧
        t.me.fctl = m.fctl ∧ if x.form.zeroes then ScalarsAfter s t x.d 0 else ∀ r, t.me.getS r = m.getS r)
    let both (v k : Instr) (op : FpOp) (w : Nat) : Prop := vector v op w ∧ scalar k op
    let cc := (x.form.e2.extractLsb' 0 3).toNat
    let src := (x.form.e2.extractLsb' 8 5).toNat
    let dst := (x.form.e2.extractLsb' 0 5).toNat
    (f = .f64 →
      both (.fpvFadd x) (.fpsFadd x) (.arith .add f) 64 ∧ both (.fpvFsub x) (.fpsFsub x) (.arith .sub f) 64 ∧
      both (.fpvFmul x) (.fpsFmul x) (.arith .mul f) 64 ∧ both (.fpvFdiv x) (.fpsFdiv x) (.arith .div f) 64 ∧
      both (.fpvFsqrt x) (.fpsFsqrt x) (.arith .sqrt f) 64 ∧ both (.fpvFmin x) (.fpsFmin x) (.minMax false false f) 64 ∧
      both (.fpvFmax x) (.fpsFmax x) (.minMax true false f) 64 ∧ both (.fpvFminm x) (.fpsFminm x) (.minMax false true f) 64 ∧
      both (.fpvFmaxm x) (.fpsFmaxm x) (.minMax true true f) 64 ∧ both (.fpvFabs x) (.fpsFabs x) (.abs f) 64 ∧
      both (.fpvFneg x) (.fpsFneg x) (.neg f) 64 ∧ both (.fpvFsgnj x) (.fpsFsgnj x) (.sgnj f) 64 ∧
      both (.fpvFclass x) (.fpsFclass x) (.classify f) 64 ∧ both (.fpvFrnd x) (.fpsFrnd x) (.rint f) 64 ∧
      ships (.fpvFcmp x) (.cmp cc f) (.p (x.d.setWidth 3)) false false 64 ∧ scalar (.fpsFcmp x) (.cmp cc f) ∧
      both (.ffmaVector x) (.ffmaScalar x) (.fma false false f) 64 ∧ both (.ffmsVector x) (.ffmsScalar x) (.fma false true f) 64 ∧
      both (.fnfmaVector x) (.fnfmaScalar x) (.fma true false f) 64 ∧ both (.fnfmsVector x) (.fnfmsScalar x) (.fma true true f) 64 ∧
      ships (.freds x) (.reduce f) (.s x.d) false true 64) ∧
    (src < 14 → dst < 14 → src = 13 ∨ dst = 13 →
      let op : FpOp := if src < 8 then .fromInt (codeTy src) .f64
        else if dst < 8 then .toInt .f64 (codeTy dst) else .toFp (codeFmt src) (codeFmt dst)
      both (.fcvtVector x) (.fcvtScalar x) op (codeWidth src)) ∧
    (let xfn (i : Bool → Instr) (op : XfnOp) : Prop := both (i false) (i true) (.xfn op f) f.width
     xfn (.fexp2 · x) .exp2 ∧ xfn (.fexp · x) .exp ∧ xfn (.flog2 · x) .log2 ∧ xfn (.fsin · x) .sin ∧
     xfn (.fcos · x) .cos ∧ xfn (.ftanh · x) .tanh ∧ xfn (.frsq · x) .rsq ∧ xfn (.frcp · x) .rcp)

/-- 06 R156, 09 R222: a little core checks and translates a wide atomic, and an AMOF at .f64, itself, and ships it; the sender is
held. A refused access traps at the sender and ships nothing. -/
def Sys2Proof.Claims.WideAtomicsShip : Prop :=
  ∀ (s : State) (x : AForm) (a : Nat), s.cur.core.big = false → s.canShip = true → s.me.blocked = none →
    let va := s.me.getS x.a + x.e2.signExtend 64
    let pair (r : Reg) : BitVec 128 := s.me.getS (r + 1) ++ s.me.getS r
    let ships (i : Instr) (op n : Nat) (dests : List Dest) (c v : BitVec 128) : Prop :=
      Completes s i fun t => Held s t i ∧ Ships s t true dests fun k => ∃ j, k = .atomic j ∧
        j.op = op ∧ j.size = n ∧ j.addr = a ∧ j.va = va ∧ j.d = x.d ∧ j.a = c ∧ (i = .cas2 x → j.b = v) ∧
        j.en = enabled s.me ∧ ∀ p, s.owner s.cur.core = some p → j.space = p
    (x.sz = 4 → Granted s .atomic va 16 16 a →
      let wide (i : Instr) (op : Nat) : Prop := ships i op 16 [.s x.d, .s (x.d + 1)] (pair x.c) (pair x.n)
      wide (.amo2Swap x) 32 ∧ wide (.amo2Add x) 33 ∧ wide (.amo2And x) 34 ∧ wide (.amo2Or x) 35 ∧ wide (.amo2Xor x) 36 ∧
      wide (.cas2 x) 41) ∧
    (x.sz = 3 → Granted s .atomic va 8 8 a →
      let wide (i : Instr) (op : Nat) : Prop := ships i op 8 [.s x.d] ((s.me.getS x.c).setWidth 128) 0
      wide (.amofAdd x) 16 ∧ wide (.amofMin x) 17 ∧ wide (.amofMax x) 18) ∧
    (s.me.tinh = false → ∀ n, (x.sz = 4 ∧ n = 16) ∨ (x.sz = 3 ∧ n = 8) → va.toNat % n ≠ 0 → Untouched s va n →
      ∀ i, (n = 16 ∧ i ∈ [.amo2Swap x, .amo2Add x, .amo2And x, .amo2Or x, .amo2Xor x, .cas2 x]) ∨
        (n = 8 ∧ i ∈ [.amofAdd x, .amofMin x, .amofMax x]) → Traps s i .misaligned va 2)

/-- 05 R146, 06 R149 to R157, 09 R222: everything a little core ships, with the sender moving on or held. -/
def Obligations.LittleCoreShips : Prop :=
  Sys2Proof.Claims.HeavyFloatsShip ∧ Sys2Proof.Claims.WideAtomicsShip

namespace Sys2Proof.Claims

/-- An address of a byte of a little core's local memory (04 Table 4.7). -/
def localWord (die row col off : Nat) : Word := BitVec.ofNat 64 (8 * 2 ^ 60 + die * 2 ^ 34 + row * 2 ^ 27 + col * 2 ^ 19 + off)

/-- The null coordinate (04 R96). -/
def nullWord : Word := 0x800000FC00000000#64

/-- Nothing changed outside the contexts of the acting core, and context h, all of whose registers were written, has no faulty
register left. -/
def CoreContextsOnly (s t : State) (h : CtxId) : Prop :=
  t = { s with cores := t.cores, badRegs := s.badRegs.filter fun b => b.1 != h } ∧ (∀ k, t.core k = { s.core k with ctxs := (t.core k).ctxs }) ∧
    ∀ c, c.core ≠ s.cur.core → t.ctx c = s.ctx c

/-- A context with no engine fault to deliver, every accepted command complete and no landing outstanding (08 R197). -/
structure Settled (m : Context) : Prop where
  copies : m.copyTl.fault = none ∧ m.copyTl.value = m.copyTl.last
  mat : m.matTl.fault = none ∧ m.matTl.value = m.matTl.last
  coll : m.collTl.fault = none ∧ m.collTl.value = m.collTl.last
  landed : m.pendS = 0 ∧ m.pendV = 0 ∧ m.pendP = 0 ∧ m.flagQueue = []

/-- Slots after the acting context freed those it owned (07 R164). -/
def SlotsFreed (s t : State) : Prop :=
  ∀ (h : HiveId) (n : Fin 16), (t.hive h).slots[n] =
    if h = coreHive s.cur.core ∧ ((s.hive h).slots[n]).owner = some s.cur then Slot.reset else (s.hive h).slots[n]

/-- What condition c of a WAIT says (08 Table 8.3), where it faults nothing. -/
def CondSays (s : State) (c : WaitCond) (b : Bool) : Prop :=
  match c.kind with
  | 1 =>
    let tl := if bits c.qual 1 0 = 0 then s.me.copyTl else if bits c.qual 1 0 = 1 then s.me.matTl else s.me.collTl
    tl.fault = none ∧ b = decide (c.x.toNat ≤ tl.value)
  | 2 => ∃ a, Granted s .load c.x c.size c.size a ∧ Sound s a c.size ∧ b = decide (s.read a c.size = c.y.toNat % 2 ^ (8 * c.size))
  | 3 => ∃ a, Granted s .load c.x c.size c.size a ∧ Sound s a c.size ∧ b = decide (s.read a c.size ≠ c.y.toNat % 2 ^ (8 * c.size))
  | 4 => b = decide (∀ i : Fin 11, i ≠ 0 → i ≠ s.cur.num → ((s.core s.cur.core).ctxs[i]).live = false)
  | 5 => b = !s.me.mailbox.isEmpty
  | 6 => ∃ j l r, s.roleRing true c.x.toNat = some (j, l, r) ∧ b = decide (r.take < r.pubf)
  | 7 =>
    let g := (s.core s.cur.core).bgs[c.qual % 4]'(Nat.mod_lt _ (by decide))
    g.state ≠ 0 ∧ g.broken = false ∧ b = decide (g.state = 1)
  | _ => False

end Sys2Proof.Claims

/-- 04 R94 to R99: LEA adds a scaled index; CADDR builds a local or scratch address, or the null coordinate for a coordinate
outside the module; GADDR gives the owner and the local index of an element of a distribution. -/
def Sys2Proof.Claims.AddressResults : Prop :=
  ∀ (s : State) (x : RForm),
    let a := s.me.getS x.a
    let b := x.opB s.me
    let gives (i : Instr) (v : Word) : Prop := GivesScalar s i x.form x.d v
    let die := bits a.toNat 26 21
    let row := bits a.toNat 20 14
    let col := bits a.toNat 13 6
    gives (.lea x) (a + b <<< x.mod.toNat + x.form.e2.signExtend 64) ∧
    (x.mod = 0 → gives (.caddr x)
      (if die < 36 ∧ row < 96 ∧ col < 192 ∧ b.toNat < 2 ^ 19 then localWord die row col b.toNat else nullWord)) ∧
    (x.mod = 1 → gives (.caddr x)
      (if die < 36 ∧ row < 24 ∧ col < 24 ∧ b.toNat < 2 ^ 19 then
        BitVec.ofNat 64 (10 * 2 ^ 60 + die * 2 ^ 29 + row * 2 ^ 24 + col * 2 ^ 19 + b.toNat)
       else nullWord)) ∧
    ∀ n : Fin 4, x.mod = BitVec.ofNat 4 n.val →
      let t := (s.me.dist[n]).toNat
      let i := bits a.toNat 63 32
      let j := bits a.toNat 31 0
      let pr := bits t 29 23 + 1
      let pc := bits t 22 15 + 1
      let br := 2 ^ bits t 14 11
      let bc := 2 ^ bits t 10 7
      let y := bits t 44 38 + i / br % pr
      let z := bits t 37 30 + j / bc % pc
      let li := i / (br * pr) * br + i % br
      let lj := j / (bc * pc) * bc + j % bc
      let off := b.toNat + (li * 2 ^ bits t 4 0 + lj) * 2 ^ bits t 6 5
      gives (.gaddr x)
        (if bits t 50 45 < 36 ∧ y < 96 ∧ z < 192 ∧ lj < 2 ^ bits t 4 0 ∧ off < 2 ^ 19 then localWord (bits t 50 45) y z off
         else nullWord)

/-- 04 R97, 08 R199: CREL turns the local address of an existing core into a relative one, which CREL on the same core turns
back; other spaces pass unchanged. MYID reads the work identifier, or a field of it, and 1 or 0 where the stage has no such
field. -/
def Sys2Proof.Claims.RelativeAddresses : Prop :=
  ∀ (s : State) (x : RForm),
    let a := s.me.getS x.a
    let gives (v : Word) : Prop := GivesScalar s (.crel x) x.form x.d v
    (x.mod = 1 → ∀ k off, coreValid s.cur.core = true → coreValid k = true → k.big = false → off < 2 ^ 19 →
      a = localWord k.die k.row k.col off → ∃ v, gives v ∧ bits v.toNat 63 60 = 9 ∧ bits v.toNat 18 0 = off ∧
        crelValue s.cur.core false v = a) ∧
    (x.mod = 0 → bits a.toNat 63 60 = 9 → gives (match relToAbs s.cur.core a.toNat with
      | some b => BitVec.ofNat 64 b
      | none => nullWord)) ∧
    (x.mod = 0 → bits a.toNat 63 60 ≠ 9 → gives a) ∧ (x.mod = 1 → bits a.toNat 63 60 ≠ 8 → gives a) ∧
    Completes s (.myid x) fun t => ∃ v, WroteScalar s t (wordsOf x.form) x.d v ∧ (x.mod = 7 → v = s.me.work) ∧
      ∀ n < 7, ∀ j l st g, s.stageOf s.cur.core = some (j, l, st, g) →
        let fields := stageBits l.packet st 125 123
        let wid (i : Nat) : Nat := stageBits l.packet st (128 + 48 * i + 37) (128 + 48 * i + 32)
        let pos := ((List.range n).map wid).sum
        (x.mod = BitVec.ofNat 4 n → v = if n < fields then BitVec.ofNat 64 (s.me.work.toNat / 2 ^ pos % 2 ^ wid n) else 0) ∧
        (x.mod = BitVec.ofNat 4 (8 + n) →
          v = if n < fields then BitVec.ofNat 64 (stageBits l.packet st (128 + 48 * n + 31) (128 + 48 * n) + 1) else 1)

/-- 04 R94 to R99, 08 R199: the address instructions and MYID. -/
def Obligations.AddressResults : Prop :=
  Sys2Proof.Claims.AddressResults ∧ Sys2Proof.Claims.RelativeAddresses

/-- 08 R195, R196: START makes the lowest free helper live at its entry with two arguments, every other register 0, in user
mode; START.try with no helper free gives 0. In a helper it raises PRIVILEGED, and at a misaligned entry MISALIGNED. That the helper keeps
the TVEC its context number had is the model's reading (log 37). -/
def Sys2Proof.Claims.HelpersStart : Prop :=
  ∀ (s : State) (x : XForm),
    let k := s.core s.cur.core
    let entry := s.me.getS x.a
    (s.cur.num = 0 → entry.toNat % 4 = 0 → s.rowWaits s.cur.core = false → ∀ h : Fin 11, h ≠ 0 → (k.ctxs[h]).live = false →
      (∀ i : Fin 11, i ≠ 0 → i < h → (k.ctxs[i]).live = true) →
      Completes s (.start x) fun t => CoreContextsOnly s t { core := s.cur.core, num := h } ∧ Past s t 3 ∧ ScalarFrame s t ∧
        ScalarsAfter s t x.d (BitVec.ofNat 64 h.val) ∧
        (∀ c, c ≠ s.cur → c ≠ { core := s.cur.core, num := h } → t.ctx c = s.ctx c) ∧
        let m := t.ctx { core := s.cur.core, num := h }
        m.live = true ∧ m.pc = entry ∧ m.sup = false ∧ m.blocked = none ∧ m.fctl = 0x10000#64 ∧ m.tinh = false ∧
        m.work = s.me.work ∧ m.dist = s.me.dist ∧ m.lampcls = s.me.lampcls ∧ m.tvec = ((k.ctxs[h]).tvec) ∧
        (∀ r, m.getS r = if r = 1 then s.me.getS x.b else if r = 2 then s.me.getS (x.e1.extractLsb' 0 5) else 0) ∧
        (∀ r, m.getV r = 0) ∧ (∀ r, r ≠ 0 → m.getP r = 0)) ∧
    (s.cur.num = 0 → entry.toNat % 4 = 0 → x.mod = 1 → (∀ i : Fin 11, i ≠ 0 → (k.ctxs[i]).live = true) →
      Completes s (.start x) fun t => WroteScalar s t 3 x.d 0) ∧
    (s.me.tinh = false → s.cur.num ≠ 0 → Traps s (.start x) .privileged (((encode (.start x)).headD 0).setWidth 64) 2) ∧
    (s.me.tinh = false → s.cur.num = 0 → entry.toNat % 4 ≠ 0 → Traps s (.start x) .misaligned entry 2)

/-- 08 R197, R198, 07 R164: a helper whose commands and landings are complete retires: its number is free and so are its slots.
YIELD waits for the other contexts of its core that can issue, at most 16 core cycles; who counts as able to issue is the model's reading
(log 62). -/
def Sys2Proof.Claims.RetireAndYield : Prop :=
  ∀ (s : State) (i : Instr),
    (i = .retire ∨ i = .retireX → s.cur.num ≠ 0 → Settled s.me → Completes s i fun t =>
      t.me = { s.me with live := false, blocked := none, parked := false, yielding := none, spec := [], ras := [] } ∧
      SlotsFreed s t ∧ t = { s with cores := t.cores, hives := t.hives } ∧ (∀ c, c ≠ s.cur → t.ctx c = s.ctx c) ∧
      ∀ k, t.core k = { s.core k with ctxs := (t.core k).ctxs }) ∧
    (∀ len, (i, len) = (.retire, 0) ∨ (i, len) = (.retireX, 2) → s.cur.num = 0 → s.me.tinh = false →
      Traps s i .privileged (((encode i).headD 0).setWidth 64) len) ∧
    ∀ n, (i, n) = (.yieldK, 1) ∨ (i, n) = (.yieldX, 3) → Completes s i fun t => MeOnly s t ∧ Past s t n ∧ ∃ w,
      t.me = { s.me with yielding := some w, pc := t.me.pc, blocked := none } ∧ w.limit = (s.core s.cur.core).cycles + 16 ∧
      ∀ j : Fin 11, j ∈ w.waiting ↔ j ≠ s.cur.num ∧ ((s.core s.cur.core).ctxs[j]).live = true ∧
        ((s.core s.cur.core).ctxs[j]).blocked = none ∧ ((s.core s.cur.core).ctxs[j]).parked = false

/-- 08 R195 to R198: START, RETIRE and YIELD. What a helper keeps over START (log 37) and which contexts a yield set loses (log 62) are
the model's readings. -/
def Obligations.HelpersStartAndRetire : Prop :=
  Sys2Proof.Claims.HelpersStart ∧ Sys2Proof.Claims.RetireAndYield

/-- 08 R195, R197, 16 R326: END of a control context whose commands are complete and whose helpers have retired ends the kernel
where no loop value is left, and starts it again at ENTRY with the next work identifier where one is; the core's mailboxes, which
live for the kernel (00 R1), are empty. In a helper it raises PRIVILEGED. -/
def Obligations.KernelEnds : Prop :=
  ∀ (s : State) (i : Instr) (len : BitVec 2), (i, len) = (.endK, 0) ∨ (i, len) = (.endX, 2) →
    (s.cur.num ≠ 0 → s.me.tinh = false → Traps s i .privileged (((encode i).headD 0).setWidth 64) len) ∧
    (s.cur.num = 0 → Settled s.me → (∀ n : Fin 11, n ≠ 0 → ((s.core s.cur.core).ctxs[n]).live = false) →
      ((s.stageOf s.cur.core = none ∨ ∃ j l st x, s.stageOf s.cur.core = some (j, l, st, x) ∧
          nextLoop l.packet st (loopFields l.packet st) s.me.work = none) →
        Completes s i fun t => t.me.live = false ∧ SlotsFreed s t ∧ t.mem = s.mem ∧ (t.core s.cur.core).transfer = none ∧
          (t.core s.cur.core).status = (if (s.core s.cur.core).status = .running then .idle else (s.core s.cur.core).status) ∧
          ∀ c, c ≠ s.cur → t.ctx c = if c.core = s.cur.core then { s.ctx c with mailbox := [] } else s.ctx c) ∧
      (∀ j l st x w, s.stageOf s.cur.core = some (j, l, st, x) → s.cur.core.big = true → stageBits l.packet st 687 684 = 0 →
        nextLoop l.packet st (loopFields l.packet st) s.me.work = some w →
        Completes s i fun t => t.me.live = true ∧ t.me.pc = BitVec.ofNat 64 (stageBits l.packet st 63 0) ∧ t.me.work = w ∧
          t.me.sup = false ∧ t.me.fctl = 0x10000#64 ∧ t.me.blocked = none ∧ (∀ r, t.me.getS r = 0) ∧ SlotsFreed s t ∧
          t.mem = s.mem ∧ ∀ c, c ≠ s.cur → t.ctx c = if c.core = s.cur.core then { s.ctx c with mailbox := [] } else s.ctx c))

/-- 08 R200, R201, Table 8.3: WAIT.any returns when a condition it uses holds, WAIT.all when all do; S[D] has the bit of every
condition that holds, and the speculative-load table is invalid. -/
def Obligations.WaitReturns : Prop :=
  ∀ (s : State) (x : XForm) (h : Fin 4 → Bool),
    let kind (i : Fin 4) : Nat := bits x.e1.toNat (4 * i.val + 3) (4 * i.val)
    (∀ i, kind i = 0 → h i = false) → (∀ i, kind i ≠ 0 → CondSays s (XForm.cond x s.me i.val) (h i)) →
    (x.mod = 0 → ∃ i, h i = true) → (x.mod ≠ 0 → ∀ i, kind i ≠ 0 → h i = true) →
    Completes s (.wait x) fun t => MeOnly s t ∧ ScalarFrame s t ∧ Past s t 3 ∧ SpecInvalid t ∧ t.me.fctl = s.me.fctl ∧
      ScalarsAfter s t x.d (flagWord (h 0) + 2 * flagWord (h 1) + 4 * flagWord (h 2) + 8 * flagWord (h 3))

namespace Sys2Proof.Claims

/-- An instruction of an engine completed: outside the acting context and the engine contexts of its hive nothing changed. -/
structure EngineOnly (s t : State) : Prop where
  rest : t = { s with cores := t.cores, hives := t.hives }
  cores : ∀ k, t.core k = { s.core k with ctxs := (t.core k).ctxs }
  others : ∀ c, c ≠ s.cur → t.ctx c = s.ctx c
  hives : ∀ h, t.hive h = { s.hive h with slots := (t.hive h).slots, mats := (t.hive h).mats, copies := (t.hive h).copies }

/-- A matrix command was accepted: it has the next number, stands last in its queue, and no slot changed (07 R165). -/
def Commanded (s t : State) (x : XForm) (P : MatCmd → Prop) : Prop :=
  EngineOnly s t ∧ Past s t 3 ∧ ScalarsAfter s t x.d (BitVec.ofNat 64 (s.me.matTl.last + 1)) ∧ SpecAfter s t x.d ∧
    t.me = { s.me with s := t.me.s, spec := t.me.spec, pc := t.me.pc, blocked := t.me.blocked
                       matTl := { s.me.matTl with last := s.me.matTl.last + 1 } } ∧
    (∀ h, (t.hive h).slots = (s.hive h).slots ∧ (t.hive h).copies = (s.hive h).copies) ∧
    (∀ c, c ≠ s.cur → t.mat c = s.mat c) ∧
    ∃ c, t.mat s.cur = { s.mat s.cur with queue := (s.mat s.cur).queue ++ [c] } ∧ c.seq = s.me.matTl.last + 1 ∧ c.step = 0 ∧
      c.mode = x.mod ∧ P c

/-- The operands of a command pass their checks (07 R165, R167), and no window they lie in is absent or loading. -/
def Reachable (s : State) (os : List MatOperand) : Prop :=
  (∃ pages, s.checkMat os = .ok pages) ∧ s.touchAll (os.flatMap (·.accesses)) = .ok ()

/-- The slot ACC names. -/
def accOf (x : XForm) : Fin 16 := ⟨bits x.e1.toNat 8 5, Nat.mod_lt _ (by decide)⟩

/-- A copy command was queued with the next number (11 R258). -/
def Queued (s t : State) (x : XForm) (P : CopyCmd → Prop) : Prop :=
  EngineOnly s t ∧ Past s t 3 ∧ ScalarsAfter s t x.d (BitVec.ofNat 64 (s.me.copyTl.last + 1)) ∧ SpecAfter s t x.d ∧
    t.me = { s.me with s := t.me.s, spec := t.me.spec, pc := t.me.pc, blocked := t.me.blocked, batches := t.me.batches
                       copyTl := { s.me.copyTl with last := s.me.copyTl.last + 1 } } ∧
    (∀ h, (t.hive h).slots = (s.hive h).slots ∧ (t.hive h).mats = (s.hive h).mats) ∧
    (∀ c, c ≠ s.cur → t.copyQueue c = s.copyQueue c) ∧
    ∃ c, t.copyQueue s.cur = s.copyQueue s.cur ++ [c] ∧ c.seq = s.me.copyTl.last + 1 ∧ c.done = 0 ∧ P c

/-- The layout record of a register pair (11 R253); accepted, its relative addresses are turned absolute (08 R205). -/
def recordOf (s : State) (a : Reg) : BitVec 1024 := s.me.getV (a + 1) ++ s.me.getV a

/-- Only the acting context and window w of its core changed. -/
structure WindowOnly (s t : State) (w : Fin 8) : Prop where
  rest : t = { s with cores := t.cores, hives := t.hives }
  cores : ∀ k, t.core k = { s.core k with ctxs := (t.core k).ctxs, wins := (t.core k).wins }
  others : ∀ c, c ≠ s.cur → t.ctx c = s.ctx c
  wins : ∀ k (v : Fin 8), k ≠ s.cur.core ∨ v ≠ w → (t.core k).wins[v] = (s.core k).wins[v]
  engines : ∀ h, t.hive h = { s.hive h with copies := (t.hive h).copies }

/-- What a window holds. -/
def WindowIs (v : Window) (state : Nat) (dirty out : Bool) (tile size base : Nat) (r : BitVec 1024) : Prop :=
  v.state = state ∧ v.dirty = dirty ∧ v.out = out ∧ v.tile = tile ∧ v.size = size ∧ v.base = base ∧ v.record = r ∧ v.load = none

end Sys2Proof.Claims

/-- 07 R164, R165, R171, R187, Tables 7.2 and 7.9: with no command of its own queued, TALLOC takes a slot that is free or its own
and zeroes it, or reports 0 for another's; TSTAT reads the status, the sticky bits only of an own slot. -/
def Obligations.MatrixQueries : Prop :=
  ∀ (s : State) (x : XForm), s.me.matTl.fault = none → (s.mat s.cur).queue = [] →
    let n := accOf x
    let h := coreHive s.cur.core
    let slot := (s.hive h).slots[n]
    let mine (t : State) : Prop := EngineOnly s t ∧ ScalarFrame s t ∧ Past s t 3 ∧ SpecAfter s t x.d ∧ t.me.fctl = s.me.fctl ∧
      (∀ g, (t.hive g).mats = (s.hive g).mats ∧ (t.hive g).copies = (s.hive g).copies) ∧
      ∀ g (m : Fin 16), g ≠ h ∨ m ≠ n → (t.hive g).slots[m] = (s.hive g).slots[m]
    (slot.owner = none ∨ slot.owner = some s.cur → Completes s (.talloc x) fun t => mine t ∧ ScalarsAfter s t x.d 1 ∧
      (t.hive h).slots[n] = { Slot.reset with
        owner := some s.cur, kind := if x.mod = 0 then .ax36 else if x.mod = 1 then .f64 else .i48 }) ∧
    ((∃ c, slot.owner = some c ∧ c ≠ s.cur) → Completes s (.talloc x) fun t => mine t ∧ ScalarsAfter s t x.d 0 ∧
      (t.hive h).slots[n] = slot) ∧
    Completes s (.tstat x) fun t => mine t ∧ (t.hive h).slots[n] = slot ∧ ∃ v, ScalarsAfter s t x.d v ∧
      let own := decide (slot.owner = some s.cur)
      v.getLsbD 0 = (own && slot.nx) ∧ v.getLsbD 1 = (own && slot.nf) ∧ v.getLsbD 2 = (own && slot.nv) ∧
      v.getLsbD 3 = (own && slot.sx) ∧ v.getLsbD 4 = (own && slot.fault) ∧ v.getLsbD 5 = false ∧
      (v.extractLsb' 6 2).toNat =
        (if slot.owner = none then 3 else match slot.kind with | .ax36 => 0 | .f64 => 1 | .i48 => 2) ∧
      v.getLsbD 8 = (slot.owner.isSome && !own) ∧ v.getLsbD 9 = own ∧ v.toNat < 1024

/-- 07 R164, R165, R171 to R186: with no fault to deliver and fewer than 4 commands waiting, a matrix command whose slot is its
own and of a fitting kind and whose operands pass their checks is accepted with the next number; a slot that is not its own
raises ENGINE_FAULT reason 1. -/
def Obligations.MatrixCommands : Prop :=
  ∀ (s : State) (x : XForm), s.me.matTl.fault = none → (s.mat s.cur).waiting < 4 →
    let n := accOf x
    let kind := ((s.hive (coreHive s.cur.core)).slots[n]).kind
    let at_ (v : Word) : Word := absForm s.cur.core v
    let a := s.me.getS x.a
    let b := s.me.getS x.b
    let cmd (fn : Nat) : MatCmd := XForm.matCmd x fn s
    let accepts (i : Instr) (fn : Nat) (P : MatCmd → Prop) : Prop :=
      Completes s i fun t => Commanded s t x fun c => c.fn = fn ∧ c.acc = n ∧ P c
    let factors (c : MatCmd) : Prop := c.a = at_ a ∧ c.b = at_ b ∧ c.c = s.me.getS (x.e1.extractLsb' 0 5) ∧
      c.k = bits x.e2.toNat 10 0 ∧ c.zp = bits x.e2.toNat 18 11 ∧ c.classical = x.e1.getLsbD 9 ∧ c.mcast = x.e1.extractLsb' 10 4
    (s.ownsSlot n = true →
      accepts (.tfree x) 1 (fun _ => True) ∧ accepts (.tzero x) 2 (fun _ => True) ∧
      (mayLoad x.mod.toNat kind = true → Reachable s [(cmd 3).rows .load a] →
        accepts (.tload x) 3 fun c => c.a = at_ a ∧ c.b = b) ∧
      (kind = (cmd 4).kind → Reachable s ((cmd 4).factors a b) → accepts (.tmma x) 4 factors) ∧
      (let c := { cmd 5 with desc := s.acceptedDesc }
       kind = .ax36 → c.groupsFit = true → Reachable s (c.factors a b ++ c.records) →
        accepts (.tmmaq x) 5 fun c => factors c ∧ c.desc = s.acceptedDesc) ∧
      (mayDrain x.mod.toNat kind = true → a.toNat % 4 = 0 →
        accepts (.tdrain x) 7 fun c => c.a = a ∧ c.b = b ∧ c.sat = x.e1.getLsbD 16) ∧
      (mayDrain x.mod.toNat kind = true → Reachable s [(cmd 8).rows .store a] →
        accepts (.tstore x) 8 fun c => c.a = at_ a ∧ c.b = b ∧ c.sat = x.e1.getLsbD 16)) ∧
    (accepts (.tqdesc x) 6 fun c => c.desc = some
      { base := at_ a, shown := a, pitch := bits b.toNat 31 0, g := 32 * 2 ^ bits x.mod.toNat 1 0, q4 := x.mod.getLsbD 2 }) ∧
    (s.ownsSlot n = false → s.me.tinh = false →
      ∀ i ∈ [Instr.tfree x, .tzero x, .tload x, .tmma x, .tmmaq x, .tdrain x, .tstore x],
        Traps s i .engineFault (BitVec.ofNat 64 (1 + 16 * n.val)) 2)

/-- 11 R258 to R262: COPY and CSEAL take the next number where the queue has room; CWAIT returns once at most MOD batches are
open; TLGET reads a timeline. A copy that failed in the engine is delivered by CWAIT, with its queue discarded. -/
def Obligations.CopiesAndTimelines : Prop :=
  ∀ (s : State) (x : XForm),
    let m := s.me
    let r := recordOf s x.a
    (∀ pages, (s.copyQueue s.cur).length < 16 → s.checkRecord s.cur.core m.sup r false 0 = .ok pages →
      s.touchRecord (recEs r) (recAccesses s.cur.core r) = .ok () →
      Completes s (.copy x) fun t =>
        Queued s t x (fun c => c.kind = .copy ∧ c.record = recAbs s.cur.core r ∧ c.pages = pages) ∧ t.me.batches = m.batches) ∧
    ((s.copyQueue s.cur).length < 16 → m.batches.length < 16 →
      Completes s (.cseal x) fun t => Queued s t x (fun c => c.kind = .seal) ∧ t.me.batches = m.batches ++ [m.copyTl.last + 1]) ∧
    (m.copyTl.fault = none → m.batches.length ≤ x.mod.toNat →
      Completes s (.cwait x) fun t => MeOnly s t ∧ ScalarFrame s t ∧ Past s t 3 ∧ SpecInvalid t ∧ t.me.fctl = m.fctl ∧
        ScalarsAfter s t x.d (BitVec.ofNat 64 m.copyTl.value)) ∧
    (∀ v, m.copyTl.fault = some { cause := .engineFault, tval := v } → m.tinh = false →
      Completes s (.cwait x) fun t => t.me.tpc = m.pc ∧ t.me.tval = v ∧ t.me.tcode = 10 ∧ t.me.pc = m.tvec ∧
        t.me.copyTl = { value := m.copyTl.last, last := m.copyTl.last, fault := none } ∧ t.me.batches = [] ∧
        t.copyQueue s.cur = [] ∧ t.mem = s.mem) ∧
    Completes s (.tlget x) (WroteScalar s · 3 x.d (
      let tl := if bits x.mod.toNat 1 0 = 0 then m.copyTl else if bits x.mod.toNat 1 0 = 1 then m.matTl else m.collTl
      BitVec.ofNat 64 (if x.mod.getLsbD 2 then tl.last else tl.value)))

/-- 11 R264, R267, R268, Table 11.5: WINSET binds or unbinds a window; WINADV moves it to its next tile, with .wb writing a dirty
one out first; WINFLUSH writes a dirty window out and leaves it present and clean. An unbound window raises ENGINE_FAULT
reason 10, a bad record reason 8, a bad binding reason 9. -/
def Obligations.Windows : Prop :=
  ∀ (s : State) (x : XForm) (w : Fin 8), x.mod.extractLsb' 0 3 = BitVec.ofNat 3 w.val →
    let v := (s.core s.cur.core).wins[w]
    let own (t : State) : Window := (t.core s.cur.core).wins[w]
    let bit3 := x.mod.getLsbD 3
    let base := bits (s.me.getS x.b).toNat 18 0
    let size := bits (s.me.getS x.b).toNat 39 20
    let r := s.me.getV (x.a + 1) ++ s.me.getV x.a
    let moved (r' : BitVec 1024) : Prop := r'.extractLsb' 64 960 = v.record.extractLsb' 64 960 ∧
      (bits (recSrc v.record).toNat 63 60 = 0 → recSrc r' = recSrc v.record + v.record.extractLsb' 512 64)
    let written (t : State) : Prop := ScalarsAfter s t x.d (BitVec.ofNat 64 (s.me.copyTl.last + 1)) ∧ Past s t 3 ∧
      t.me.copyTl = { s.me.copyTl with last := s.me.copyTl.last + 1 } ∧ ∃ c after data, t.copyQueue s.cur = s.copyQueue s.cur ++ [c] ∧
        c.seq = s.me.copyTl.last + 1 ∧ c.kind = .writeOut w (localAddr s.cur.core v.base) v.size after data ∧
        after = s.earlierWrites s.cur.core (localAddr s.cur.core v.base) v.size ∧ (after ≠ [] → data = none) ∧
        (after = [] → ∃ d : Snapshot, data = some d ∧ d.bytes.size = v.size ∧
          ∀ i, i < v.size → d.bytes[i]? = some (s.byte (localAddr s.cur.core v.base + i)))
    let mayWrite : Prop := (s.copyQueue s.cur).length < 16 ∧
      ∃ pages, s.checkRecord s.cur.core s.me.sup (writeOutRecord v.record) true w.val = .ok pages
    let last (t : State) : Prop := ScalarsAfter s t x.d (BitVec.ofNat 64 s.me.copyTl.last) ∧ Past s t 3 ∧ t.hives = s.hives
    (v.state ≠ 2 → size = 0 → Completes s (.winset x) fun t => WindowOnly s t w ∧ Past s t 3 ∧ (own t).state = 0 ∧ t.me.s = s.me.s) ∧
    (v.state ≠ 2 → size ≠ 0 → recValid r = true → s.badBinding w r base size = false →
      Completes s (.winset x) fun t => WindowOnly s t w ∧ Past s t 3 ∧ t.me.s = s.me.s ∧
        WindowIs (own t) (if bit3 then 3 else 1) false bit3 0 size base r) ∧
    (v.state ≠ 2 → size ≠ 0 → recValid r = false → s.me.tinh = false → Traps s (.winset x) .engineFault 8 2) ∧
    (v.state ≠ 2 → size ≠ 0 → recValid r = true → s.badBinding w r base size = true → s.me.tinh = false →
      Traps s (.winset x) .engineFault (BitVec.ofNat 64 (9 + 16 * w.val)) 2) ∧
    (v.state = 0 → s.me.tinh = false → Traps s (.winadv x) .engineFault (BitVec.ofNat 64 (10 + 16 * w.val)) 2 ∧
      Traps s (.winflush x) .engineFault (BitVec.ofNat 64 (10 + 16 * w.val)) 2) ∧
    (v.state = 1 ∨ v.state = 3 →
      let next (t : State) : Prop := WindowOnly s t w ∧ ∃ r', moved r' ∧ (own t).record = r' ∧
        (own t).state = (if v.out then 3 else 1) ∧ (own t).dirty = false ∧ (own t).tile = (v.tile + 1) % 2 ^ 20 ∧
        (own t).size = v.size ∧ (own t).base = v.base
      (bit3 = false ∨ v.dirty = false → Completes s (.winadv x) fun t => next t ∧ last t) ∧
      (bit3 = true → v.dirty = true → mayWrite → Completes s (.winadv x) fun t => next t ∧ written t)) ∧
    (v.state = 3 → v.dirty = true → mayWrite → Completes s (.winflush x) fun t => WindowOnly s t w ∧ written t ∧
      (own t).state = 3 ∧ (own t).dirty = false ∧ (own t).record = v.record ∧ (own t).tile = v.tile) ∧
    (v.state = 1 ∨ (v.state = 3 ∧ v.dirty = false) → Completes s (.winflush x) fun t =>
      WindowOnly s t w ∧ last t ∧ own t = v)

namespace Sys2Proof.Claims

/-- The core's partition neither records nor replays (20 R392), or the core has none. -/
def Unrecorded (s : State) (k : CoreId) : Prop := ∀ p, s.owner k = some p → (s.part p).rmode = 0

/-- The scalar registers after S[c] := u and then S[d] := v. -/
def ScalarPair (s t : State) (c : Reg) (u : Word) (d : Reg) (v : Word) : Prop :=
  ∀ r, t.me.getS r = if r = 0 then 0 else if r = d then v else if r = c then u else s.me.getS r

/-- The barrier register MOD<1:0> names. -/
def barOf (x : XForm) : Fin 4 := ⟨bits x.mod.toNat 1 0, Nat.mod_lt _ (by decide)⟩

/-- The acting context is the control context of a little core (12 R283). -/
def Control (s : State) : Prop := s.cur.core.big = false ∧ s.cur.num = 0

/-- Outside a transfer phase, or in one that no overrun and no fenced neighbour has spoilt, with every word that is due latched
(12 R278, R284, 20 R391). -/
def PhaseSound (s : State) : Prop :=
  ∀ y, (s.core s.cur.core).transfer = some y → y.violated = false ∧ (∀ o : Fin 4, (y.latches[o]).overrun = false) ∧
    ∀ f ∈ (s.die s.cur.core.die).wires, f.dest = s.cur.core → s.dieCycle < f.due

/-- The direction of a code: 00 north, 01 east, 10 south, 11 west (12 R282). -/
def dirCode (c : Nat) : Dir := if c = 0 then .n else if c = 1 then .e else if c = 2 then .s else .w

/-- Its latch. -/
def latchOf (d : Dir) : Fin 4 := match d with | .n => 0 | .e => 1 | .s => 2 | .w => 3

/-- The work of a stage is counted in C (13 R287). -/
def WorkIs (s : State) (k : CoreId) (n : Nat) : Prop := ∃ j l st x, s.stageOf k = some (j, l, st, x) ∧ x.work = n

end Sys2Proof.Claims

/-- 12 R272, R283, R284, Table 12.1: BGSET binds a register to a valid rectangle that no held token contradicts, and breaks it
where one does; BWAIT on a released barrier gives 1. Helpers and big cores raise PRIVILEGED, an invalid rectangle or an unbound
or broken barrier reason 12. That BGSET leaves a broken register bound and not broken is the model's reading (log 39). -/
def Sys2Proof.Claims.BarrierRegisters : Prop :=
  ∀ (s : State) (x : XForm),
    let n := barOf x
    let k := s.cur.core
    let b := (s.core k).bgs[n]
    let own (t : State) : Barrier := (t.core k).bgs[n]
    let r := (s.me.getS x.a).extractLsb' 0 30
    let tval : Word := BitVec.ofNat 64 (12 + 16 * n.val)
    (Control s → b.state ≠ 2 → s.rectValid k r = true →
      ((∀ t, b.fromWest = some t ∨ b.fromNorth = some t → t.rect = r) → Completes s (.bgset x) fun t =>
        (own t).word = BitVec.ofNat 64 (2 ^ 62 + r.toNat) ∧ (own t).broken = false ∧ (own t).arrival = none ∧ Past s t 3 ∧
        t = { s with cores := t.cores } ∧ t.me.s = s.me.s ∧ (∀ c, c ≠ s.cur → t.ctx c = s.ctx c) ∧
        ∀ m, m ≠ n → (t.core k).bgs[m] = (s.core k).bgs[m]) ∧
      ((∃ t, (b.fromWest = some t ∨ b.fromNorth = some t) ∧ t.rect ≠ r) → Completes s (.bgset x) fun t =>
        (own t).broken = true ∧ (own t).rect = r)) ∧
    (k.big = false → b.state = 1 → b.broken = false → Completes s (.bwait x) fun t =>
      MeOnly s t ∧ ScalarFrame s t ∧ Past s t 3 ∧ SpecInvalid t ∧ ScalarsAfter s t x.d 1 ∧ t.me.fctl = s.me.fctl) ∧
    (s.me.tinh = false →
      (¬Control s → ∀ i ∈ [Instr.bgset x, .barr x, .phase x, .isel x, .xmit x, .xrecv x],
        Traps s i .privileged (((encode i).headD 0).setWidth 64) 2) ∧
      (k.big = true → Traps s (.bwait x) .privileged (((encode (.bwait x)).headD 0).setWidth 64) 2) ∧
      (Control s → b.state ≠ 2 → s.rectValid k r = false → Traps s (.bgset x) .engineFault tval 2) ∧
      (k.big = false → b.state = 0 ∨ b.broken = true → Traps s (.bwait x) .engineFault tval 2 ∧
        (s.cur.num = 0 → Traps s (.barr x) .engineFault tval 2 ∧ Traps s (.phase x) .engineFault tval 2)))

/-- 12 R273, R279, R284: BARR and PHASE arrive at a bound, released barrier, which enters STATE 10; BARR.nw goes on, the others wait
and go on once the barrier is released, as an acquire. Tokens already held are of the same kind (a mixture breaks the barrier,
R275). -/
def Sys2Proof.Claims.BarrierArrivals : Prop :=
  ∀ (s : State) (x : XForm), Control s →
    let n := barOf x
    let k := s.cur.core
    let b := (s.core k).bgs[n]
    let own (t : State) : Barrier := (t.core k).bgs[n]
    b.broken = false → b.state = 1 →
    (s.me.blocked = none → PhaseSound s →
      (x.mod.getLsbD 2 = true → s.me.copyTl.fault = none ∧ s.me.batches = []) →
      ((∀ t, b.fromWest = some t ∨ b.fromNorth = some t → t.kind = .compute) → x.mod.getLsbD 3 = true → Completes s (.barr x) fun t =>
        (own t).state = 2 ∧ (own t).arrival = some .compute ∧ Past s t 3 ∧ t.me.s = s.me.s ∧ SpecInvalid t ∧
        (t.core k).transfer = none ∧ (s.shed s.me = false → t.mem = s.mem)) ∧
      ∀ i kind, (i, kind) = (Instr.phase x, ArrivalKind.transfer) ∨
          (x.mod.getLsbD 3 = false ∧ (i, kind) = (Instr.barr x, ArrivalKind.compute)) →
        (∀ t, b.fromWest = some t ∨ b.fromNorth = some t → t.kind = kind) → Completes s i fun t =>
        (own t).state = 2 ∧ (own t).arrival = some kind ∧ t.me.pc = s.me.pc ∧ t.me.s = s.me.s ∧
        (t.core k).transfer = none ∧ ∃ w, t.me.blocked = some w ∧ w.phase = 1 ∧ w.instr = i) ∧
    (∀ w, s.me.blocked = some w → w.phase = 1 → ∀ i ∈ [Instr.barr x, .phase x],
      Completes s i fun t => MeOnly s t ∧ Past s t 3 ∧ SpecInvalid t ∧ StoreFrame s t)

/-- 12 R272, R273, R279, R283, R284: BGSET, BARR, PHASE and BWAIT. That BGSET leaves a broken barrier bound and not broken is the
model's reading (log 39). -/
def Obligations.BarrierInstructions : Prop :=
  Sys2Proof.Claims.BarrierRegisters ∧ Sys2Proof.Claims.BarrierArrivals

/-- 12 R278, R280, R285: a timed instruction that issues in its cycle R + t sets routes, sends a word one hop, or takes the word
its latch holds and marks it used (a word that arrives in that cycle is latched before). Before that cycle it waits; after it, and outside a transfer phase, it raises reason 13 (SLOT 0
outside a phase is the model's reading, log 41); at an edge of the rectangle reason 14. -/
def Obligations.TimedInstructions : Prop :=
  ∀ (s : State) (x : XForm), Control s →
    let k := s.cur.core
    let d := dirCode (bits x.mod.toNat 1 0)
    let cyc := bits x.e2.toNat 19 0
    let own (t : State) : Option Transfer := (t.core k).transfer
    let fault (i : Instr) (slot reason : Nat) : Prop := s.me.tinh = false → Traps s i .engineFault (BitVec.ofNat 64 (reason + 16 * slot)) 2
    let timed : List Instr := [.isel x, .xmit x, .xrecv x]
    let latched : Prop := ∀ f ∈ (s.die k.die).wires, f.dest = k → s.dieCycle < f.due
    ((s.core k).transfer = none → ∀ i ∈ timed, fault i 0 13) ∧
    ∀ y, (s.core k).transfer = some y → y.violated = false →
      (s.dieCycle < y.start + cyc → ∀ i ∈ timed, Completes s i fun t => t.me.pc = s.me.pc ∧ own t = some y ∧ t.mem = s.mem) ∧
      (y.start + cyc < s.dieCycle → ∀ i ∈ timed, fault i y.bg.val 13) ∧
      (s.dieCycle = y.start + cyc →
        (Completes s (.isel x) fun t => Past s t 3 ∧ t = { s with cores := t.cores } ∧ t.me.s = s.me.s ∧ ∃ z, own t = some z ∧
          z = { y with routes := z.routes } ∧ ∀ o : Fin 4,
            let code := bits x.e1.toNat (3 * o.val + 2) (3 * o.val)
            z.routes[o] = if code = 0 then y.routes[o] else if code = 1 then none else some (dirCode (code % 4))) ∧
        (∀ m, neighbour y.rect k d = some m →
          (y.routes[(latchOf d)] = none → Completes s (.xmit x) fun t => OnlyPast s { t with dies := s.dies } 3 ∧
            (∀ q, t.die q = { s.die q with wires := (t.die q).wires }) ∧
            (t.die k.die).wires = (s.die k.die).wires ++
              [{ dest := m, bg := y.bg, from_ := dirCode (((latchOf d).val + 2) % 4),
                 due := s.dieCycle + 1, load := s.me.getS x.a }]) ∧
          (y.routes[(latchOf d)] ≠ none → fault (.xmit x) y.bg.val 13) ∧
          ((y.latches[(latchOf d)]).v = true → latched → Completes s (.xrecv x) fun t => Past s t 3 ∧ t = { s with cores := t.cores } ∧
            ScalarsAfter s t x.d (y.latches[(latchOf d)]).word ∧ ScalarFrame s t ∧ ∃ z, own t = some z ∧
            z = { y with latches := z.latches } ∧ (z.latches[(latchOf d)]).u = true ∧
            ∀ o : Fin 4, o ≠ latchOf d → z.latches[o] = y.latches[o]) ∧
          ((y.latches[(latchOf d)]).v = false → latched → fault (.xrecv x) y.bg.val 13)) ∧
        (neighbour y.rect k d = none → fault (.xmit x) y.bg.val 14 ∧ (latched → fault (.xrecv x) y.bg.val 14)))

/-- 13 R286 to R292: SPAWN pushes a valid record at the newest end of its core's deque and counts it; SPAWNAT sends it to the core
its address chooses, or pushes it at home where that core is not of the stage or is full. Outside a pool stage, and for an
invalid record, both raise reason 7; that a context outside every launch does too, and that SPAWNAT looks for a pool stage before its
address and at its record after it, are the model's reading (log 42). -/
def Sys2Proof.Claims.Spawning : Prop :=
  ∀ (s : State) (x : XForm),
    let k := s.cur.core
    let r := (s.me.getV x.a).extractLsb' 0 256
    let quiet (t : State) : Prop := Past s t 3 ∧ t.mem = s.mem ∧ t.me = { s.me with pc := t.me.pc, blocked := t.me.blocked } ∧
      ∀ c, c ≠ s.cur → t.ctx c = s.ctx c
    let here (t : State) (n : Nat) : Prop := quiet t ∧ (t.core k).deque = (s.core k).deque ++ [r] ∧ t.spawns = s.spawns ∧
      WorkIs t k (n + 1)
    (s.me.tinh = false →
      (s.inPool = false ∨ taskValid r = false → Traps s (.spawn x) .engineFault 7 2) ∧
      (s.inPool = false ∨ (taskValid r = false ∧ ∃ a, s.resolve k s.me.sup .load (s.me.getS x.b).toNat = .ok a) →
        Traps s (.spawnat x) .engineFault 7 2)) ∧
    ∀ j l st g, s.stageOf k = some (j, l, st, g) → l.pool st = true → taskValid r = true → Unrecorded s k →
      ((s.core k).deque.length < 64 → Completes s (.spawn x) (here · g.work)) ∧
      (∀ a old rest, (s.core k).deque = old :: rest → 64 ≤ (s.core k).deque.length → (s.core k).ovfring.getLsbD 63 = true →
        (s.core k).ovfTop < 2 ^ bits (s.core k).ovfring.toNat 62 58 → Memory.wf s = true →
        Granted s .store (BitVec.ofNat 64 (bits (s.core k).ovfring.toNat 56 5 * 32 + 32 * (s.core k).ovfTop)) 32 32 a →
        Completes s (.spawn x) fun t => Past s t 3 ∧ BytesAfter s t a 32 old.toNat ∧ (t.core k).deque = rest ++ [r] ∧
          (t.core k).ovfTop = (s.core k).ovfTop + 1 ∧ WorkIs t k (g.work + 1)) ∧
      ∀ a, s.resolve k s.me.sup .load (s.me.getS x.b).toNat = .ok a →
        let target := s.spawnTarget g (stageBits l.packet st 126 126 == 1) a
        (∀ m, target = some m → m ∈ g.cores → (s.core m).deque.length < 64 → s.me.blocked = none →
          Completes s (.spawnat x) fun t =>
          quiet t ∧ t.spawns = s.spawns ++ [{ dest := m, by_ := s.cur, record := r }] ∧ (t.core k).deque = (s.core k).deque ∧
          WorkIs t k (g.work + 1)) ∧
        ((s.core k).deque.length < 64 → (∀ m, target = some m → m ∉ g.cores ∨ 64 ≤ (s.core m).deque.length) →
          Completes s (.spawnat x) (here · g.work))

/-- 13 R294, R297: TASKGET takes the newest entry of its deque: a plain task whole, of a range the first GRAIN indices, whose rest
stays and counts; with nothing left in the stage it reports 1. TASKEND ends a taken task. -/
def Sys2Proof.Claims.TakingTasks : Prop :=
  ∀ (s : State) (x : XForm) (j : Nat) (l : Launch) (st : Nat) (g : Stage),
    let k := s.cur.core
    let c : Reg := x.e1.extractLsb' 0 5
    s.stageOf k = some (j, l, st, g) → l.pool st = true →
    (s.shed s.me = false → Unrecorded s k →
      (∀ old e, (s.core k).deque = old ++ [e] → Completes s (.taskget x) fun t => Past s t 3 ∧ t.mem = s.mem ∧ SpecInvalid t ∧
        t.me.takes = s.me.takes + 1 ∧ (∀ q, t.me.getS q = if q = 0 then 0 else if q = c then 0 else s.me.getS q) ∧
        (∀ q, q ≠ x.d → t.me.getV q = s.me.getV q) ∧ (∀ m, m ≠ s.cur → t.ctx m = s.ctx m) ∧
        (if e.getLsbD 208 = true ∧ bits e.toNat 159 128 + bits e.toNat 207 192 < bits e.toNat 191 160 then
          let mid := bits e.toNat 159 128 + bits e.toNat 207 192
          (∃ rest : BitVec 256, (t.core k).deque = old ++ [rest] ∧ bits rest.toNat 159 128 = mid ∧
            rest.extractLsb' 160 96 = e.extractLsb' 160 96 ∧ rest.extractLsb' 0 128 = e.extractLsb' 0 128) ∧
          WorkIs t k (g.work + 1) ∧ bits (t.me.getV x.d).toNat 191 160 = mid ∧
          bits (t.me.getV x.d).toNat 159 0 = bits e.toNat 159 0 ∧ bits (t.me.getV x.d).toNat 511 192 = bits e.toNat 255 192
         else (t.core k).deque = old ∧ WorkIs t k g.work ∧ t.me.getV x.d = e.setWidth 512)) ∧
      ((s.core k).deque = [] → (s.core k).ovfTop = 0 → g.work = 0 → Completes s (.taskget x) fun t =>
        MeOnly s t ∧ ScalarFrame s t ∧ Past s t 3 ∧ SpecInvalid t ∧ ScalarsAfter s t c 1)) ∧
    (0 < s.me.takes → Completes s .taskend fun t => Past s t 3 ∧ t.mem = s.mem ∧ WorkIs t k (g.work - 1) ∧
      t.me = { s.me with takes := s.me.takes - 1, pc := t.me.pc, blocked := t.me.blocked } ∧ ∀ m, m ≠ s.cur → t.ctx m = s.ctx m) ∧
    (s.me.takes = 0 → s.me.tinh = false → Traps s .taskend .engineFault 7 2)

/-- 13 R286 to R297: SPAWN, SPAWNAT, TASKGET and TASKEND. Reason 7 outside every launch, and the order in which
SPAWNAT looks for a pool stage, its address and its record, are the model's readings (log 42). -/
def Obligations.TaskInstructions : Prop :=
  Sys2Proof.Claims.Spawning ∧ Sys2Proof.Claims.TakingTasks

/-- 13 R299, R300: RGRES reserves the next ticket of a ring that has a free slot, RGTAKE takes the next published one, and both
give the address of its slot; RGTAKE of an exhausted closed ring gives all ones. Without the role they raise reason 5. -/
def Sys2Proof.Claims.RingTickets : Prop :=
  ∀ (s : State) (x : XForm),
    let n := x.mod.toNat
    let c : Reg := x.e1.extractLsb' 0 5
    let slot (l : Launch) (i : Nat) : Word := BitVec.ofNat 64
      (ringBits l.packet n 56 0 + i % 2 ^ (ringBits l.packet n 116 113 + 1) * 2 ^ ringBits l.packet n 120 117)
    let ring (t : State) (j : Nat) : Option Ring := (t.launch? j).map fun l => lookup Ring.reset n l.rings
    let quiet (t : State) : Prop := Past s t 3 ∧ ScalarFrame s t ∧ t.me.fctl = s.me.fctl ∧
      (∀ m, m ≠ s.cur → t.ctx m = s.ctx m) ∧ t = { s with cores := t.cores, launches := t.launches }
    (∀ j l r, s.roleRing false n = some (j, l, r) → r.res - r.donef < 2 ^ (ringBits l.packet n 116 113 + 1) →
      Unrecorded s s.cur.core → Completes s (.rgres x) fun t => quiet t ∧
        ScalarPair s t c (BitVec.ofNat 64 r.res) x.d (slot l r.res) ∧
        ring t j = some { r with res := r.res + 1, reserved := store r.res s.cur r.reserved }) ∧
    (∀ j l r, s.roleRing true n = some (j, l, r) → s.shed s.me = false →
      (r.take < r.pubf → Unrecorded s s.cur.core → Completes s (.rgtake x) fun t => quiet t ∧ SpecInvalid t ∧
        ScalarPair s t c (BitVec.ofNat 64 r.take) x.d (slot l r.take) ∧
        ring t j = some { r with take := r.take + 1, taken := store r.take s.cur r.taken }) ∧
      (r.pubf ≤ r.take → r.closed = true → r.take = r.res → Completes s (.rgtake x) fun t => MeOnly s t ∧ quiet t ∧
        SpecInvalid t ∧ ScalarPair s t x.d 0 c 0xFFFFFFFFFFFFFFFF)) ∧
    (s.me.tinh = false →
      let tval : Word := BitVec.ofNat 64 (5 + 16 * n)
      (s.roleRing false n = none → Traps s (.rgres x) .engineFault tval 2 ∧ Traps s (.rgpub x) .engineFault tval 2) ∧
      (s.roleRing true n = none → Traps s (.rgtake x) .engineFault tval 2 ∧ Traps s (.rgdone x) .engineFault tval 2))

/-- 13 R300: RGPUB publishes a ticket its context reserved, and RGDONE finishes one it took; the frontier then stands at the lowest
ticket that is not marked. -/
def Sys2Proof.Claims.RingFrontiers : Prop :=
  ∀ (s : State) (x : XForm) (j : Nat) (l : Launch) (r : Ring),
    let n := x.mod.toNat
    let i := (s.me.getS x.a).toNat
    let quiet (t : State) : Prop := OnlyPast s { t with launches := s.launches } 3
    let stands (limit old new : Nat) (marks : List Nat) : Prop := old ≤ new ∧ (∀ k, old ≤ k → k < new → k ∈ marks) ∧
      (new < limit → new ∉ marks)
    (s.roleRing false n = some (j, l, r) → r.pubf ≤ i → i < r.res → i ∉ r.published → (i, s.cur) ∈ r.reserved →
      Completes s (.rgpub x) fun t => quiet t ∧ ∃ l' r', t.launch? j = some l' ∧ lookup Ring.reset n l'.rings = r' ∧
        stands r.res r.pubf r'.pubf (i :: r.published) ∧ (∀ k, k ∈ r'.published ↔ r'.pubf ≤ k ∧ (k = i ∨ k ∈ r.published)) ∧
        (∀ e, e ∈ r'.reserved ↔ e ∈ r.reserved ∧ e.1 ≠ i) ∧
        r' = { r with pubf := r'.pubf, published := r'.published, reserved := r'.reserved }) ∧
    (s.roleRing true n = some (j, l, r) → r.donef ≤ i → i < r.take → i ∉ r.done → (i, s.cur) ∈ r.taken →
      Completes s (.rgdone x) fun t => quiet t ∧ ∃ l' r', t.launch? j = some l' ∧ lookup Ring.reset n l'.rings = r' ∧
        stands r.take r.donef r'.donef (i :: r.done) ∧ (∀ k, k ∈ r'.done ↔ r'.donef ≤ k ∧ (k = i ∨ k ∈ r.done)) ∧
        (∀ e, e ∈ r'.taken ↔ e ∈ r.taken ∧ e.1 ≠ i) ∧
        r' = { r with donef := r'.donef, done := r'.done, taken := r'.taken })

/-- 13 R299, R300: RGRES, RGTAKE, RGPUB and RGDONE. -/
def Obligations.RingInstructions : Prop :=
  Sys2Proof.Claims.RingTickets ∧ Sys2Proof.Claims.RingFrontiers

/-- 13 R290, R302 to R305: RANK, RANK.n and RANK.of read the rank table; SEND puts a message to an existing rank of its own partition
into the send buffer where it has room, and raises reason 6 for another rank, as RANK.of does; RECV takes the oldest message. That a
sender without a rank sends all ones (log 31), and that a context without a launch has an empty rank table (log 42), are the model's
reading. -/
def Obligations.RanksAndMessages : Prop :=
  ∀ (s : State) (x : XForm),
    let ranks : List RankEntry := match s.stageOf s.cur.core with
      | some (_, l, _, _) => l.ranks
      | none => []
    let dest := (s.me.getS x.a).toNat
    let c : Reg := x.e1.extractLsb' 0 5
    let k := s.core s.cur.core
    let mine (e : RankEntry) : Prop := e.ctx = s.cur ∧ e.ended = false
    let own (e : RankEntry) : Prop := s.owner e.ctx.core = s.owner s.cur.core
    (Completes s (.rank x) fun t => ∃ v, WroteScalar s t 3 x.d v ∧
      ((∀ e ∈ ranks, ¬mine e) → v = 0xFFFFFFFFFFFFFFFF) ∧
      ∀ n e, ranks[n]? = some e → mine e → (∀ m f, m < n → ranks[m]? = some f → ¬mine f) → v = BitVec.ofNat 64 n) ∧
    Completes s (.rankN x) (WroteScalar s · 3 x.d (BitVec.ofNat 64 ranks.length)) ∧
    (∀ e, ranks[dest]? = some e → own e → Completes s (.rankOf x) (WroteScalar s · 3 x.d
      (BitVec.ofNat 64 ((if e.transit then 2 ^ 63 else 0) + coreIdBits e.ctx)))) ∧
    (s.me.tinh = false → ranks.length ≤ dest ∨ (∃ e, ranks[dest]? = some e ∧ ¬own e) →
      Traps s (.rankOf x) .engineFault 6 2 ∧ (s.me.blocked = none → Traps s (.send x) .engineFault 6 2)) ∧
    ((∃ e, ranks[dest]? = some e ∧ own e) → k.sendBuf.length < 8 → Completes s (.send x) fun t => t = { s with cores := t.cores } ∧ Past s t 3 ∧
      t.me = { s.me with pc := t.me.pc, blocked := t.me.blocked } ∧ (∀ m, m ≠ s.cur → t.ctx m = s.ctx m) ∧
      (∀ m, t.core m = { s.core m with ctxs := (t.core m).ctxs, sendBuf := (t.core m).sendBuf }) ∧
      ∃ o, (t.core s.cur.core).sendBuf = k.sendBuf ++ [o] ∧ o.sender = s.cur ∧ o.rank = dest ∧
        o.msg.payload = s.me.getV x.b ∧ o.msg.tag = x.e2.setWidth 16 ∧
        ((∀ e ∈ ranks, ¬mine e) → o.msg.source = 0xFFFFFFFF)) ∧
    (∀ m ms, s.me.mailbox = m :: ms → Completes s (.recv x) fun t => MeOnly s t ∧ Past s t 3 ∧ SpecInvalid t ∧
      t.me.mailbox = ms ∧ (∀ r, t.me.getV r = if r = x.d then m.payload else s.me.getV r) ∧
      ScalarsAfter s t c (BitVec.ofNat 64 (m.source.toNat * 2 ^ 16 + m.tag.toNat)) ∧ t.me.p = s.me.p ∧ t.me.fctl = s.me.fctl)

/-- 13 R306 to R308: GRPJOIN joins the current generation of an id and reads its number; COLL adds the member's part of its next
round and takes the next number of the collective timeline; GRPFREE leaves the group. Without a launch (the model's reading, log 42) or
a membership they raise reason 6. GRPJOIN of any index and size (a bad one is a mismatch found later) and its wait while a generation
drains are the model's reading (log 31). -/
def Obligations.CollectiveGroups : Prop :=
  ∀ (s : State) (x : XForm),
    let ga := bits (s.me.getS x.a).toNat 7 0
    let gb := bits (s.me.getS x.b).toNat 7 0
    let group (l : Launch) (g : Nat) : GroupId := lookup GroupId.reset g l.groups
    let number : Word := BitVec.ofNat 64 (s.me.collTl.last + 1)
    let quiet (t : State) : Prop := Past s t 3 ∧ t = { s with cores := t.cores, launches := t.launches } ∧
      (∀ m, m ≠ s.cur → t.ctx m = s.ctx m) ∧ t.me.v = s.me.v ∧ t.me.p = s.me.p ∧ t.me.fctl = s.me.fctl
    (∀ j l st g, s.stageOf s.cur.core = some (j, l, st, g) →
      (s.me.groups.length < 4 → (group l ga).drains = false → Completes s (.grpjoin x) fun t => quiet t ∧
        ScalarsAfter s t x.d (BitVec.ofNat 64 (group l ga).gen) ∧
        t.me.groups = s.me.groups ++ [{ group := ga, gen := (group l ga).gen, index := bits (s.me.getS x.b).toNat 31 16,
                                        size := bits (s.me.getS x.b).toNat 15 0, round := 0 }] ∧
        ∃ l', t.launch? j = some l' ∧
          (group l' ga).members = (group l ga).members ++ [(s.cur, bits (s.me.getS x.b).toNat 31 16)] ∧
          (group l' ga).size = if (group l ga).members = [] then bits (s.me.getS x.b).toNat 15 0 else (group l ga).size) ∧
      (s.me.collTl.fault = none → ∀ before mb after, s.me.groups = before ++ mb :: after → mb.group = gb →
        (∀ o ∈ before, o.group ≠ gb) → (∀ o ∈ after, o.group ≠ gb) →
        (∀ a, Granted s .store (s.me.getS (x.e1.extractLsb' 0 5)) 64 64 a →
          Completes s (.coll x) fun t => quiet t ∧ ScalarsAfter s t x.d number ∧
            t.me.collTl = { s.me.collTl with last := s.me.collTl.last + 1 } ∧
            t.me.groups = before ++ { mb with round := mb.round + 1 } :: after ∧
            ∃ l' p, t.launch? j = some l' ∧ (group l' gb).parts = (group l gb).parts ++ [p] ∧ p.ctx = s.cur ∧
              p.index = mb.index ∧ p.round = mb.round ∧ p.seq = s.me.collTl.last + 1 ∧ p.mode = x.mod ∧
              p.value = s.me.getV x.a)) ∧
      (s.me.collTl.fault = none → (∃ o ∈ s.me.groups, o.group = ga) → Completes s (.grpfree x) fun t => quiet t ∧
        ScalarsAfter s t x.d number ∧ t.me.collTl.last = s.me.collTl.last + 1 ∧
        (∀ o, o ∈ t.me.groups ↔ o ∈ s.me.groups ∧ o.group ≠ ga) ∧
        ∃ l', t.launch? j = some l' ∧ (group l' ga).frees = (group l ga).frees ++ [s.cur])) ∧
    (s.me.tinh = false → s.me.collTl.fault = none →
      (s.stageOf s.cur.core = none → Traps s (.grpjoin x) .engineFault 6 2 ∧ Traps s (.coll x) .engineFault 6 2 ∧
        Traps s (.grpfree x) .engineFault 6 2) ∧
      (4 ≤ s.me.groups.length → Traps s (.grpjoin x) .engineFault 6 2) ∧
      ((∀ o ∈ s.me.groups, o.group ≠ gb) → Traps s (.coll x) .engineFault 6 2) ∧
      ((∀ o ∈ s.me.groups, o.group ≠ ga) → Traps s (.grpfree x) .engineFault 6 2))

namespace Sys2Proof.Claims

/-- Outside the contexts' cores and one hive nothing changed. -/
def HiveAndCores (s t : State) (h : HiveId) : Prop :=
  t = { s with cores := t.cores, hives := t.hives } ∧ ∀ g, g ≠ h → t.hive g = s.hive g

/-- Outside the contexts' cores and one hive nothing changed, but register d of context c has no fault mark. -/
def Landed (s t : State) (h : HiveId) (c : CtxId) (d : Dest) : Prop :=
  t = { s with cores := t.cores, hives := t.hives, badRegs := s.badRegs.filter fun b => !(b.1 == c && b.2 == d) } ∧
    ∀ g, g ≠ h → t.hive g = s.hive g

/-- Only one hive changed. -/
def HiveOnly (s t : State) (h : HiveId) : Prop := t = { s with hives := t.hives } ∧ ∀ g, g ≠ h → t.hive g = s.hive g

/-- The state with c as the acting context. -/
def actingAs (s : State) (c : CtxId) : State := { s with cur := c }

/-- A context waits in an instruction that it may run again (08 R192); no line it needs is busy (10 R248). -/
def Waits (s : State) (c : CtxId) (i : Instr) : Prop :=
  (actingAs s c).mayIssue = true ∧ (actingAs s c).linesBusy i = false ∧ ∃ b, (s.ctx c).blocked = some b ∧ b.instr = i

/-- The deadline of a waiting context has come (08 R200, R201). -/
def DeadlinePassed (s : State) (c : CtxId) : Prop :=
  ∃ b d, (s.ctx c).blocked = some b ∧ b.deadline = some d ∧ d < 2 ^ 64 - 1 ∧ d ≤ s.now

/-- A context has passed the 3-word instruction it waited in, with the scalar registers `g` gives. -/
def WentOn (s t : State) (c : CtxId) (g : Reg → Word) : Prop :=
  (t.ctx c).blocked = none ∧ (t.ctx c).pc = (s.ctx c).pc + 12 ∧ t.cur = s.cur ∧ ∀ r, r ≠ 0 → (t.ctx c).getS r = g r

/-- The registers of c with one written. -/
def oneSet (s : State) (c : CtxId) (d : Reg) (v : Word) (r : Reg) : Word := if r = d then v else (s.ctx c).getS r

/-- A core's error log entry of a die is the newest (20 R389, Table 20.4). -/
def LoggedLast (t : State) (die cls unit pos : Nat) : Prop :=
  ∃ e, (t.die die).errlog.getLast? = some e ∧ bits e.toNat 57 55 = cls ∧ bits e.toNat 54 49 = unit ∧ bits e.toNat 48 0 = pos

end Sys2Proof.Claims

namespace Sys2Proof.Claims

/-- The types of A and B of a floating TMMA (07 Table 7.4). -/
def pairOf (mode : Nat) : Option (Fmt × Fmt) :=
  match mode with
  | 0 => some (.e4m3, .e4m3)
  | 1 => some (.e5m2, .e5m2)
  | 2 => some (.e4m3, .e5m2)
  | 3 => some (.e5m2, .e4m3)
  | 4 => some (.f16, .f16)
  | 5 => some (.bf16, .bf16)
  | 6 => some (.f32, .f32)
  | 7 => some (.f64, .f64)
  | _ => none

/-- The values of the elements of A and B of an integer TMMA (07 Table 7.4). -/
def wholeOf (mode zp : Nat) (b : Bool) (x : Nat) : Int :=
  let signed (w : Nat) : Int := if x < 2 ^ (w - 1) then x else (x : Int) - 2 ^ w
  match mode with
  | 8 => signed 8
  | 9 => if b then (x : Int) - zp else signed 8
  | 10 => signed 4
  | _ => if b then (x : Int) - zp else signed 4

/-- Element e of a slot. -/
def elem (x : Slot) (e : Nat) : Nat := (x.elems.getD e 0).toNat

/-- A signed factor of an exact product: its sign, and its value. -/
abbrev Signed := Bool × Rat

/-- A finite number with its sign. -/
def signedOf (f : Fmt) (x : Nat) (v : Signed) : Prop := isFinite f x = true ∧ v = (negative f x, real f x)

/-- A rounding to odd inside the engine (03 R68, R70). -/
def RoundsOdd (f : Fmt) (zero : Bool) (x : Rat) (out : Nat × Flags) : Prop := Delivers f .rod .intermediate zero x out

/-- The exact sum of eight products, rounded to odd into AX36 (03 R81, 07 R176). -/
def Run (xs : List (Signed × Signed)) (out : Nat × Flags) : Prop :=
  RoundsOdd .ax36 (zeroSign .rod (xs.map fun p => p.1.1 != p.2.1)) ((xs.map fun p => p.1.2 * p.2.2).foldl (· + ·) 0) out

/-- The sum or difference of two finite AX36 values, rounded to odd (03 R81, 07 R176). -/
def Adds (sub : Bool) (x y : Nat) (out : Nat × Flags) : Prop :=
  isFinite .ax36 x = true → isFinite .ax36 y = true →
    RoundsOdd .ax36 (zeroSign .rod [negative .ax36 x, sub != negative .ax36 y])
      (if sub then real .ax36 x - real .ax36 y else real .ax36 x + real .ax36 y) out

/-- A post-addition (07 R176, R177). -/
def Posts (sub : Bool) (x y : Nat) (out : Nat × Flags) : Prop :=
  Adds sub x y out ∧ (isInfinity .ax36 x = true → isInfinity .ax36 y = true → out = (canonical .ax36, fNV))

/-- The quadrants, with a minus where they are subtracted, of the left factors of M1 to M7 (07 R176). -/
def leftQuads : List (List (Bool × Nat × Nat)) :=
  [[(false, 0, 0), (false, 1, 1)], [(false, 1, 0), (false, 1, 1)], [(false, 0, 0)], [(false, 1, 1)],
   [(false, 0, 0), (false, 0, 1)], [(false, 1, 0), (true, 0, 0)], [(false, 0, 1), (true, 1, 1)]]

/-- Those of the right factors. -/
def rightQuads : List (List (Bool × Nat × Nat)) :=
  [[(false, 0, 0), (false, 1, 1)], [(false, 0, 0)], [(false, 0, 1), (true, 1, 1)], [(false, 1, 0), (true, 0, 0)],
   [(false, 1, 1)], [(false, 0, 0), (false, 0, 1)], [(false, 1, 0), (false, 1, 1)]]

/-- An integer element of a factor: place (i, j) of each of its quadrants, of hr rows and hc columns. -/
def quadWhole (qs : List (Bool × Nat × Nat)) (v : Nat → Nat → Int) (hr hc i j : Nat) : Int :=
  (qs.map fun q => (if q.1 then -1 else 1) * v (q.2.1 * hr + i) (q.2.2 * hc + j)).foldl (· + ·) 0

/-- A floating element of a factor: a quadrant's element enters exactly, a sum of two is rounded to odd into PA24 (07 R176, Table 7.7). -/
def QuadValue (qs : List (Bool × Nat × Nat)) (leaf : Nat → Nat → Signed) (hr hc i j : Nat) (v : Signed) : Prop :=
  let at_ (q : Bool × Nat × Nat) : Signed :=
    let y := leaf (q.2.1 * hr + i) (q.2.2 * hc + j)
    (q.1 != y.1, if q.1 then -y.2 else y.2)
  match qs with
  | [q] => v = at_ q
  | [q, r] => ∃ p fl, RoundsOdd .pa24 (zeroSign .rod [(at_ q).1, (at_ r).1]) ((at_ q).2 + (at_ r).2) (p, fl) ∧ signedOf .pa24 p v
  | _ => False

/-- An element of a slot in a data type (07 R185, Table 7.6). -/
def Converted (mode : Nat) (sat : Bool) (k : AccKind) (x y : Nat) (fl : Flags) : Prop :=
  let rule : OverflowRule := if sat then .saturate else .final
  let narrowed (src dst : Fmt) : Prop :=
    (isNaN src x = true → (y, fl) = (canonical dst, 0)) ∧
    (isInfinity src x = true → (y, fl) = if dst ≠ .e4m3 then (infinityOf dst (negative src x), 0)
      else if sat then (zeroOf dst (negative src x) + largest dst, fNX) else (zeroOf dst (negative src x) + 0x7F, fNV)) ∧
    (isFinite src x = true → Delivers dst .rne rule (negative src x) (real src x) (y, fl))
  let typeOf : Fmt := match mode with | 0 => .e4m3 | 1 => .e5m2 | 4 => .f16 | 5 => .bf16 | 6 => .f32 | _ => .f64
  match k with
  | .i48 =>
    let z : Int := (BitVec.ofNat 64 x).toInt
    let clamped : Int := max (-2 ^ 31) (min (2 ^ 31 - 1) z)
    y < 2 ^ 32 ∧ (BitVec.ofNat 32 y).toInt = clamped ∧ fl = if clamped = z then 0 else fSX
  | .ax36 => narrowed .ax36 typeOf
  | .f64 => if mode = 7 then y = x ∧ fl = 0 else narrowed .f64 typeOf

/-- The bytes of an element of a data type (07 Table 7.6). -/
def elemBytes (mode : Nat) : Nat := match mode with | 0 => 1 | 1 => 1 | 4 => 2 | 5 => 2 | 7 => 8 | _ => 4

/-- A value of a data type loaded into a slot: exact, and every NaN canonical (07 R172). -/
def LoadedInto (mode : Nat) (k : AccKind) (y x : Nat) : Prop :=
  let src : Fmt := match mode with | 0 => .e4m3 | 1 => .e5m2 | 4 => .f16 | 5 => .bf16 | 6 => .f32 | _ => .f64
  let dst : Fmt := if k = .f64 then .f64 else .ax36
  if k = .i48 then (BitVec.ofNat 64 x).toInt = (BitVec.ofNat 32 y).toInt
  else
    (isNaN src y = true → x = canonical dst) ∧ (isInfinity src y = true → x = infinityOf dst (negative src y)) ∧
    (isFinite src y = true → isFinite dst x = true ∧ negative dst x = negative src y ∧ real dst x = real src y)

end Sys2Proof.Claims

/-- 03 R81 to R83, 07 R174 to R180: what a step of a product that is not multicast adds, where the numbers it meets are finite.
`State.matRaw` is the element of an operand in the rows of its pitch (07 R168), `MatCmd.recordAddr` the place of a group record (07
R179). -/
def Sys2Proof.Claims.ProductSteps : Prop :=
  ∀ (s : State) (c : CtxId) (n : Nat) (d : MatCmd), s.matMay c n = some d → s.matTurn c = true → d.mcast = 0 → d.fetch = none →
    let h := coreHive c.core
    let p := s.owner c.core
    let x := (s.hive h).slots[d.acc]
    let mode := d.mode.toNat
    let quant : Bool := (d.desc.map (·.q4)).getD false
    let half := d.k / 2
    let row (base : Word) (pitch w i k : Nat) : Nat := s.matRaw p d.pages base (i * pitch) w k
    let a (w : Nat) : Nat → Nat → Nat := row d.a (bits d.c.toNat 31 0) w
    let b (w : Nat) : Nat → Nat → Nat := row d.b (bits d.c.toNat 63 32) w
    let goes (P : State → MatCmd → Slot → Prop) : Prop := Completes s (.matStep c n) fun t =>
      ∃ e, (t.mat c).queue[n]? = some e ∧ e.step = d.step + 1 ∧ P t e ((t.hive h).slots[d.acc])
    let part (e : MatCmd) (i : Nat) : Int := e.parts.getD i 0
    let blocks (left right : Nat → Nat → Signed) (e : MatCmd) : Prop := ∀ i r j, i < 7 → r < 32 → j < 32 →
      ∃ (l q : Nat → Signed) (run flags : Nat × Flags),
        (∀ t < 8, QuadValue (leftQuads.getD i []) left 32 half r (8 * d.step + t) (l t) ∧
          QuadValue (rightQuads.getD i []) right half 32 (8 * d.step + t) j (q t)) ∧
        Run ((List.range 8).map fun t => (l t, q t)) run ∧ Adds false (part d (1024 * i + 32 * r + j)).toNat run.1 flags ∧
        part e (1024 * i + 32 * r + j) = flags.1
    (∀ f g, d.fn = 4 → pairOf mode = some (f, g) →
      (d.classical = true → mode ≠ 7 → goes fun _ _ y => ∀ i j (u v : Nat → Signed), i < 64 → j < 64 →
        (∀ t < 8, signedOf f (a (bitsOf f) i (8 * d.step + t)) (u t) ∧ signedOf g (b (bitsOf g) (8 * d.step + t) j) (v t)) →
        ∃ run out, Run ((List.range 8).map fun t => (u t, v t)) run ∧ Adds false (elem x (64 * i + j)) run.1 out ∧
          elem y (64 * i + j) = out.1 ∧ ((run.2 ||| out.2) &&& fNX ≠ 0 → y.nx = true)) ∧
      (d.classical = true → mode = 7 → goes fun _ _ y => ∀ i j (u v : Nat → Signed), i < 64 → j < 64 →
        (∀ t < 8, signedOf .f64 (a 64 i (8 * d.step + t)) (u t) ∧ signedOf .f64 (b 64 (8 * d.step + t) j) (v t)) →
        isFinite .f64 (elem x (64 * i + j)) = true →
        ∃ out, Delivers .f64 .rne .final
          (zeroSign .rne (((List.range 8).map fun t => (u t).1 != (v t).1) ++ [negative .f64 (elem x (64 * i + j))]))
          (((List.range 8).map fun t => (u t).2 * (v t).2).foldl (· + ·) 0 + real .f64 (elem x (64 * i + j))) out ∧
          elem y (64 * i + j) = out.1 ∧ (out.2 &&& fNX ≠ 0 → y.nx = true)) ∧
      (d.classical = false → mode < 6 → ∀ left right : Nat → Nat → Signed,
        (∀ m k, m < 64 → k < d.k → signedOf f (a (bitsOf f) m k) (left m k)) →
        (∀ k j, k < d.k → j < 64 → signedOf g (b (bitsOf g) k j) (right k j)) →
        goes fun _ e y => y = x ∧ blocks left right e)) ∧
    (d.fn = 4 → 8 ≤ mode →
      let w := if mode < 10 then 8 else 4
      let u (i k : Nat) : Int := wholeOf mode d.zp false (a w i k)
      let v (k j : Nat) : Int := wholeOf mode d.zp true (b w k j)
      let sum (g : Nat → Int) : Int := ((List.range 8).map g).foldl (· + ·) 0
      (d.classical = true → goes fun _ e y => y = x ∧ ∀ i j, i < 64 → j < 64 → part e (64 * i + j) =
        part d (64 * i + j) + sum fun t => u i (8 * d.step + t) * v (8 * d.step + t) j) ∧
      (d.classical = false → goes fun _ e y => y = x ∧ ∀ i r j, i < 7 → r < 32 → j < 32 → part e (1024 * i + 32 * r + j) =
        part d (1024 * i + 32 * r + j) + sum fun t => quadWhole (leftQuads.getD i []) u 32 half r (8 * d.step + t) *
          quadWhole (rightQuads.getD i []) v half 32 (8 * d.step + t) j)) ∧
    ∀ q, d.fn = 5 → d.desc = some q → q.g ∈ [32, 64, 128] → mode ∈ [0, 1, 4, 5, 8] →
      let f : Option Fmt := if mode = 8 then none else (pairOf mode).map (·.1)
      let factor (m k : Nat) (z : Signed) : Prop := match f with
        | some f => signedOf f (a (bitsOf f) m k) z
        | none => let y := wholeOf 8 0 false (a 8 m k)
          z = (decide (y < 0), (y : Rat))
      let code (k j : Nat) : Nat := b (if quant then 4 else 8) k j
      let record (g j : Nat) : Nat :=
        if d.groups.any (·.1 == g) then (lookup [] g d.groups).getD j 0 else s.engineLoad p (d.recordAddr q g j) 4
      let skip (g j : Nat) : Bool := record g j / 2 ^ 28 % 2 == 1
      let less (g k j : Nat) : Int := (code k j : Int) - (if quant then record g j / 2 ^ 20 % 16 else record g j / 2 ^ 20 % 256 : Nat)
      let scale (g j : Nat) : Rat := real .s20 (record g j % 2 ^ 20)
      (d.classical = true → goes fun _ _ y => ∀ i j (u : Nat → Signed), i < 64 → j < 64 →
        (∀ t < q.g, factor i (q.g * d.step + t) (u t)) →
        let at_ := elem x (64 * i + j)
        (skip d.step j = true → elem y (64 * i + j) = at_) ∧
        (skip d.step j = false → ∃ sum scaled out,
          RoundsOdd .ax36 (zeroSign .rod ((List.range q.g).map fun t => (u t).1 != decide (less d.step (q.g * d.step + t) j < 0)))
            (((List.range q.g).map fun t => (u t).2 * (less d.step (q.g * d.step + t) j : Rat)).foldl (· + ·) 0) sum ∧
          (isFinite .ax36 sum.1 = true → RoundsOdd .ax36 (decide (scale d.step j < 0) != negative .ax36 sum.1)
            (scale d.step j * real .ax36 sum.1) scaled) ∧
          Adds false at_ scaled.1 out ∧ elem y (64 * i + j) = out.1)) ∧
      (d.classical = false → ∀ left right : Nat → Nat → Signed, (∀ m k, m < 64 → k < d.k → factor m k (left m k)) →
        (∀ k j, k < d.k → j < 64 → ∃ out, RoundsOdd .pa24 false (if skip (k / q.g) j then 0 else scale (k / q.g) j * (less (k / q.g) k j : Rat)) out ∧
          signedOf .pa24 out.1 (right k j)) →
        goes fun _ e y => y = x ∧ blocks left right e)

/-- 03 R83, 07 R172, R176, R177, R185, R186: what the completion of a product adds to the slot, and the values that rows of TLOAD,
TSTORE and TDRAIN move. -/
def Sys2Proof.Claims.CompletionsAndRows : Prop :=
  ∀ (s : State) (c : CtxId) (d : MatCmd),
    let h := coreHive c.core
    let p := s.owner c.core
    let x := (s.hive h).slots[d.acc]
    let mode := d.mode.toNat
    let part (i : Nat) : Int := d.parts.getD i 0
    (∀ ds, (s.mat c).queue = d :: ds → d.total ≤ d.step → d.handlers = [] → (s.ctx c).matTl.fault = none → s.matRuns c = true →
      let ends (P : Slot → Prop) : Prop := Completes s (.matCommandComplete c) fun t => P ((t.hive h).slots[d.acc])
      let m (i r j : Nat) : Int := part (1024 * i + 32 * r + j)
      (d.fn = 4 → 8 ≤ mode →
        let adds (y : Slot) (e : Nat) (z : Int) : Prop :=
          let sum := (x.elems.getD e 0).toInt + z
          let clamped : Int := max (-2 ^ 47) (min (2 ^ 47 - 1) sum)
          (y.elems.getD e 0).toInt = clamped ∧ (clamped ≠ sum → y.sx = true)
        (d.classical = true → ends fun y => ∀ e < 4096, adds y e (part e)) ∧
        (d.classical = false → ends fun y => ∀ r j, r < 32 → j < 32 →
          adds y (64 * r + j) (m 0 r j + m 3 r j - m 4 r j + m 6 r j) ∧ adds y (64 * r + 32 + j) (m 2 r j + m 4 r j) ∧
          adds y (64 * (32 + r) + j) (m 1 r j + m 3 r j) ∧
          adds y (64 * (32 + r) + 32 + j) (m 0 r j - m 1 r j + m 2 r j + m 5 r j))) ∧
      (d.fn = 4 ∧ mode < 6 ∨ d.fn = 5 → d.classical = false → ends fun y => ∀ r j, r < 32 → j < 32 →
        let f (i : Nat) : Nat := (m i r j).toNat
        let lands (e v : Nat) : Prop := ∃ out, Adds false (elem x e) v out ∧ elem y e = out.1
        (∃ u v w, Posts false (f 0) (f 3) u ∧ Posts true u.1 (f 4) v ∧ Posts false v.1 (f 6) w ∧ lands (64 * r + j) w.1) ∧
        (∃ u, Posts false (f 2) (f 4) u ∧ lands (64 * r + 32 + j) u.1) ∧
        (∃ u, Posts false (f 1) (f 3) u ∧ lands (64 * (32 + r) + j) u.1) ∧
        ∃ u v w, Posts true (f 0) (f 1) u ∧ Posts false u.1 (f 2) v ∧ Posts false v.1 (f 5) w ∧ lands (64 * (32 + r) + 32 + j) w.1)) ∧
    (∀ n, s.matMay c n = some d → s.matTurn c = true → mode ∈ [0, 1, 4, 5, 6, 7, 9] →
      (d.fn = 3 → mayLoad mode x.kind = true → Completes s (.matStep c n) fun t =>
        let y := (t.hive h).slots[d.acc]
        (∀ j < 64, LoadedInto mode x.kind (s.engineLoad p (d.rowAddr d.step j) (elemBytes mode)) (elem y (64 * d.step + j))) ∧
        ∀ e < 4096, e / 64 ≠ d.step → y.elems.getD e 0 = x.elems.getD e 0) ∧
      (d.fn = 8 → mayDrain mode x.kind = true → Memory.wf s = true → Completes s (.matStep c n) fun t =>
        (t.hive h).slots[d.acc] = x ∧ ∀ j < 64, s.engineMay p (d.rowAddr d.step j) (elemBytes mode) = true →
          inPort (d.rowAddr d.step j) = false →
          (∀ k < 64, k ≠ j → d.rowAddr d.step k + elemBytes mode ≤ d.rowAddr d.step j ∨
            d.rowAddr d.step j + elemBytes mode ≤ d.rowAddr d.step k) →
          ∃ fl, Converted mode d.sat x.kind (elem x (64 * d.step + j)) (t.read (d.rowAddr d.step j) (elemBytes mode)) fl)) ∧
    ∀ m, s.drainAt c = some (m, d) → mode ∈ [0, 1, 4, 5, 6, 9] → mayDrain mode x.kind = true → ∀ i : Fin 11, i ≠ 0 →
      ((s.core c.core).ctxs[i]).live = false → (∀ j : Fin 11, j ≠ 0 → j < i → ((s.core c.core).ctxs[j]).live = true) →
      Completes s (.tdrainRowDispatch c) fun t =>
        let w := 8 * elemBytes mode
        let per := 512 / w
        let u := t.ctx { core := c.core, num := i }
        (∀ j < 64, ∃ fl, Converted mode d.sat x.kind (elem x (64 * d.step + j))
          (lane w (u.getV (BitVec.ofNat 5 (28 + j / per))) (j % per)).toNat fl) ∧
        (∀ q < 4, 64 ≤ q * per → u.getV (BitVec.ofNat 5 (28 + q)) = 0) ∧
        ∀ e < 4096, ((t.hive h).slots[d.acc]).elems.getD e 0 = if e / 64 = d.step then 0 else x.elems.getD e 0

/-- 03 R81 to R83, 07 R172 to R180, R185, R186: the values the matrix engine computes and moves. The model's readings: the roundings
to PA24 count in NX (log 35), and how .e4m3 spells a negative infinity (log 105). -/
def Obligations.MatrixValues : Prop :=
  Sys2Proof.Claims.ProductSteps ∧ Sys2Proof.Claims.CompletionsAndRows

namespace Sys2Proof.Claims

/-- The n-th entry of a guest queue is its oldest ready one and may take an issue slot of a big core that is not fenced (06 R152,
R153). -/
def GuestTurn (s : State) (h : HiveId) (n : Nat) (p : Packet) : Prop :=
  (s.hive h).queue[n]? = some p ∧ (s.core (bigCore h)).status ≠ .fenced ∧ s.guestReady h p = true ∧
    (∀ e ∈ (s.hive h).queue.take n, s.guestReady h e = false) ∧ s.guestMay h p = true

/-- A guest entry has run: it left the queue, its credit returned to where it came from, and its result r is on its way (06 R151,
R152). -/
def GuestRan (s t : State) (h : HiveId) (n : Nat) (p : Packet) (r : Result) : Prop :=
  let q := s.hive h
  (t.hive h).queue = q.queue.eraseIdx n ∧ (t.hive h).results = q.results ++ [r] ∧
    r.sender = p.sender ∧ r.tag = p.tag ∧ r.held = p.held ∧
    if p.reserved then (t.core p.sender.core).creditReserved = false ∧ (t.hive h).pooled = q.pooled
    else (t.core p.sender.core).creditsPooled = (s.core p.sender.core).creditsPooled - 1 ∧ (t.hive h).pooled = q.pooled + 1

/-- 06 R151, R152, R157: a shipped floating instruction runs. A packet whose sender goes on merges its flags and never traps; one whose
sender is held takes FP, with its destination as it was, where a raised flag is enabled. -/
def FloatGuests : Prop :=
  ∀ (s : State) (h : HiveId) (n : Nat) (p : Packet) (j : FpJob), GuestTurn s h n p → coreHive p.sender.core = h → p.work = .float j →
    let flags := j.run.flags.foldl (· ||| ·) 0
    let en := enabled (s.ctx p.sender)
    (p.held = false ∨ en &&& flags = 0 → Completes s (.guestIssue h n) fun t => HiveAndCores s t h ∧ (∀ c, t.ctx c = s.ctx c) ∧
      ∃ r, GuestRan s t h n p r ∧ r.writes = [(j.dest, j.run.value)] ∧ r.flags = flags ∧ r.trap = none) ∧
    (p.held = true → en &&& flags ≠ 0 → Completes s (.guestIssue h n) fun t => HiveAndCores s t h ∧ (∀ c, t.ctx c = s.ctx c) ∧
      ∃ r e, GuestRan s t h n p r ∧ r.flags = 0 ∧ r.trap = some e ∧ e.cause = .fp ∧
        e.tval.extractLsb' 0 5 = flags.extractLsb' 0 5)

/-- 06 R156, 09 R220, Table 9.5: a shipped atomic runs in the wide-atomic unit: it reads the old value, stores the new one, and sends
the old one back; an enabled flag of AMOF, or a faulty byte, stores nothing and sends the trap. -/
def AtomicGuests : Prop :=
  ∀ (s : State) (h : HiveId) (n : Nat) (p : Packet) (j : WideAtomic), Memory.wf s = true → GuestTurn s h n p →
    coreHive p.sender.core = h → p.work = .atomic j → inPort j.addr = false → (∃ u, s.guestTouch p = .ok u) →
    (j.size = 16 → Sound s j.addr 16 →
      let old : BitVec 128 := BitVec.ofNat 128 (s.read j.addr 16)
      ∀ v : BitVec 128, (j.op = 32 → v = j.a) → (j.op = 33 → v = old + j.a) → (j.op = 34 → v = old &&& j.a) →
        (j.op = 35 → v = old ||| j.a) → (j.op = 36 → v = old ^^^ j.a) → (j.op = 41 → v = if old = j.a then j.b else old) →
        j.op ∈ [32, 33, 34, 35, 36, 41] → Completes s (.guestIssue h n) fun t => BytesAfter s t j.addr 16 v.toNat ∧
          ∃ r, GuestRan s t h n p r ∧ r.flags = 0 ∧ r.trap = none ∧
            r.writes = [(.s j.d, (old.extractLsb' 0 64).setWidth 512), (.s (j.d + 1), (old.extractLsb' 64 64).setWidth 512)]) ∧
    (j.size = 8 → Sound s j.addr 8 →
      let old := s.read j.addr 8
      ∀ g, (j.op = 16 → g = fpArith .add .f64 .rne .final old j.a.toNat) → (j.op = 17 → g = fpMinMax false false .f64 old j.a.toNat) →
        (j.op = 18 → g = fpMinMax true false .f64 old j.a.toNat) → j.op ∈ [16, 17, 18] →
        (j.en &&& g.2 = 0 → Completes s (.guestIssue h n) fun t => BytesAfter s t j.addr 8 g.1 ∧
          ∃ r, GuestRan s t h n p r ∧ r.flags = g.2 ∧ r.trap = none ∧ r.writes = [(.s j.d, BitVec.ofNat 512 old)]) ∧
        (j.en &&& g.2 ≠ 0 → Completes s (.guestIssue h n) fun t => t.mem = s.mem ∧
          ∃ r e, GuestRan s t h n p r ∧ r.flags = 0 ∧ r.trap = some e ∧ e.cause = .fp ∧ e.tval = (g.2.extractLsb' 0 5).setWidth 64)) ∧
    (¬ Sound s j.addr j.size → Completes s (.guestIssue h n) fun t => t.mem = s.mem ∧
      ∃ r e, GuestRan s t h n p r ∧ r.flags = 0 ∧ r.trap = some e ∧ e.cause = .dataError ∧
        ∃ b ∈ s.poisoned, j.addr ≤ b ∧ b < j.addr + j.size ∧ e.tval = j.va + BitVec.ofNat 64 (b - j.addr))

/-- 06 R155 to R158: a result lands in its sender's register, clears its pending bit and merges its flags; a held sender is past its
instruction then. A trap that comes back clears the pending bits and is taken at the instruction of its sender, which is held there. -/
def ResultsLand : Prop :=
  ∀ (s : State) (h : HiveId) (n : Nat) (r : Result) (e : FlagEntry) (rest : List FlagEntry),
    let q := s.hive h
    let m := s.ctx r.sender
    q.results[n]? = some r → (s.core (bigCore h)).status ≠ .fenced → (s.core r.sender.core).status ≠ .fenced →
    m.flagQueue = e :: rest → e.tag = r.tag → (∀ x ∈ rest, x.tag ≠ r.tag ∧ x.flags = none) →
    (∀ d v, r.trap = none → r.writes = [(.s d, v)] → d ≠ 0 →
      let took (t : State) : Prop :=
        let u := t.ctx r.sender
        t.hive h = { q with results := q.results.eraseIdx n } ∧ (∀ x, x ≠ 0 → u.getS x = if x = d then v.extractLsb' 0 64 else m.getS x) ∧
        u.pendS = m.pendS &&& ~~~(1#32 <<< d.toNat) ∧ u.flagQueue = rest ∧ u.fctl = m.fctl ||| r.flags.setWidth 64 ∧
        u.v = m.v ∧ u.p = m.p
      (r.held = false → Completes s (.shipResultLanding h n) fun t => Landed s t h r.sender (.s d) ∧ took t ∧
        (t.ctx r.sender).pc = m.pc ∧ ∀ c, c ≠ r.sender → t.ctx c = s.ctx c) ∧
      (r.held = true → ∀ b, m.blocked = some b → m.live = true → s.shed m = false → Completes s (.shipResultLanding h n) fun t =>
        Landed s t h r.sender (.s d) ∧ took t ∧ (t.ctx r.sender).blocked = none ∧
        (t.ctx r.sender).pc = m.pc + BitVec.ofNat 64 (4 * lenWords m.heldLen) ∧
        (m.heldAcquires = true → ∀ y ∈ (t.ctx r.sender).spec, y.valid = false))) ∧
    (∀ x, r.trap = some x → (s.core r.sender.core).status = .running → (s.core r.sender.core).parkedSince = none → m.tinh = false →
      Completes s (.shipResultLanding h n) fun t =>
        let u := t.ctx r.sender
        (t.hive h).results = q.results.eraseIdx n ∧ u.tpc = m.pc ∧ u.tval = x.tval ∧ u.tcode = BitVec.ofNat 6 x.cause.code ∧
        u.pc = m.tvec ∧ u.sup = true ∧ u.tinh = true ∧ u.blocked = none ∧ u.s = m.s ∧ u.v = m.v ∧ u.p = m.p ∧ u.fctl = m.fctl ∧
        u.flagQueue = rest ∧ ∀ w ∈ r.writes, u.pending w.1 = false)

end Sys2Proof.Claims

/-- 06 R151 to R162: a packet enters the guest queue, two a cycle and the core's whose turn it is first, or waits there; the oldest
ready guest entry that may take a slot runs and leaves its result and its credit; an entry that has waited 1,024 cycles has aged; a
result lands, or its trap is taken; a packet sent again is a soft error. GSHARE takes the value of its oldest write on the way as a
window begins, and no entry runs at a fenced big core (20 R391). The unit and place of the soft error's log entry are log 53's choice,
and how early a write of GSHARE can be in force is log 113's. -/
def Obligations.ShippingEvents : Prop :=
  Sys2Proof.Claims.FloatGuests ∧ Sys2Proof.Claims.AtomicGuests ∧ Sys2Proof.Claims.ResultsLand ∧
  ∀ (s : State) (h : HiveId) (n : Nat),
    let q := s.hive h
    (∀ p, q.arriving[n]? = some p →
      (s.admittedNow h < 2 → (∀ e ∈ q.arriving, e.atQueue = true →
          turnsTo q.admitTurn (coreIndex p.sender.core) ≤ turnsTo q.admitTurn (coreIndex e.sender.core)) →
        Completes s (.shipPacketArrival h n) fun t => HiveOnly s t h ∧ t.hive h = { q with
          arriving := q.arriving.eraseIdx n, queue := q.queue ++ [{ p with entered := s.dieCycle, atQueue := true }]
          admitTurn := (coreIndex p.sender.core + 1) % 32, admitted := (s.dieCycle, s.admittedNow h + 1) }) ∧
      (2 ≤ s.admittedNow h → Completes s (.shipPacketArrival h n) fun t => HiveOnly s t h ∧
        t.hive h = { q with arriving := q.arriving.set n { p with atQueue := true } })) ∧
    ((s.core (bigCore h)).status = .fenced → exec (.guestIssue h n) s = .next s ∧ exec (.shipResultLanding h n) s = .next s) ∧
    (∀ p, q.queue[n]? = some p → p.entered + 1024 ≤ s.dieCycle → Completes s (.guestAgeingExpiry h n) fun t => HiveOnly s t h ∧
      t.hive h = { q with queue := q.queue.set n { p with aged := true } }) ∧
    (n < q.arriving.length + q.results.length → s.physHive h < 600 → Completes s (.shipRetransmit h n) fun t =>
      t = { s with dies := t.dies } ∧ LoggedLast t h.die 0 6 (s.physHive h)) ∧
    ∀ m k c rest, q.gshareNext = (m, k, c) :: rest → (s.core (bigCore h)).cycles % q.gshareM = 0 → c + 2 ≤ s.dieCycle →
      Completes s (.gshareUpdate h) fun t => HiveOnly s t h ∧
        t.hive h = { q with gshareM := m, gshareK := k, gshareNext := rest }

/-- The n-th command of a context may run its next step: its timeline and its rows go on, no byte it reaches is faulty or behind a cut
port, and no line it needs is busy (07 R166, R188, 10 R248, 20 R391). -/
def Sys2Proof.Claims.StepOpen (s : State) (c : CtxId) (n : Nat) (d : MatCmd) : Prop :=
  s.matCmd c n = some d ∧ (s.ctx c).matTl.fault = none ∧ d.fn ≠ 7 ∧ s.badStep (coreHive c.core) d = false ∧
    s.badRow (coreHive c.core) d = false ∧ s.portDead d.reaches = false ∧ s.rangesBusy (coreHive c.core).die d.reaches = false

/-- 07 R165, R166, R171, R184 to R190: what the matrix engine does on its own: it accepts a waiting command, issues a
multicast fetch, runs a step in the turn of its context, waits for a multicast partner at most 256 cycles, hands a row of a TDRAIN to a
free helper, completes its oldest command, or stops its timeline at a fault. What the steps compute is in `Obligations.MatrixValues`.
That all engines of a multicast take a step as events of their own, and go on with what has come after 256 cycles, is log 124, and the
place of a fault log 110: they are the model's readings. -/
def Obligations.MatrixEvents : Prop :=
  ∀ (s : State) (c : CtxId) (n : Nat),
    let h := coreHive c.core
    let q := s.mat c
    (∀ i x, i = Instr.tfree x ∨ i = .tzero x → Waits s c i → (s.ctx c).matTl.fault = none → q.waiting < 4 →
      (actingAs s c).ownsSlot (accOf x) = true → Completes s (.matCommandAccept c) fun t =>
        WentOn s t c (oneSet s c x.d (BitVec.ofNat 64 ((s.ctx c).matTl.last + 1))) ∧
        (t.mat c).queue.length = q.queue.length + 1 ∧ (t.ctx c).matTl.last = (s.ctx c).matTl.last + 1) ∧
    (∀ d, StepOpen s c n d → d.fetchReady = true →
      (s.matTurn c = true → Completes s (.matStep c n) fun t =>
        (∃ e, (t.mat c).queue[n]? = some e ∧ e.step = d.step + 1 ∧ e.fn = d.fn ∧ e.seq = d.seq ∧ e.acc = d.acc) ∧
        (∀ m, m ≠ n → (t.mat c).queue[m]? = q.queue[m]?) ∧ (t.mat c).queue.length = q.queue.length ∧
        (t.hive h).matTurn = matIndex c + 1 ∧ (d.fn ≠ 8 → t.mem = s.mem ∧ ∀ k, t.ctx k = s.ctx k) ∧
        (∀ m : Fin 16, m ≠ d.acc → (t.hive h).slots[m] = (s.hive h).slots[m]) ∧
        (d.fn = 8 → (t.hive h).slots = (s.hive h).slots) ∧
        (d.fn = 1 → (t.hive h).slots[d.acc] = Slot.reset) ∧
        (d.fn = 2 → (∀ i < 4096, ((t.hive h).slots[d.acc]).elems.getD i 0 = 0) ∧
          ((t.hive h).slots[d.acc]).owner = ((s.hive h).slots[d.acc]).owner ∧
          ((t.hive h).slots[d.acc]).nv = false ∧ ((t.hive h).slots[d.acc]).nx = false ∧ ((t.hive h).slots[d.acc]).sx = false ∧
          ((t.hive h).slots[d.acc]).nf = false ∧ ((t.hive h).slots[d.acc]).fault = false) ∧
        (d.fn = 6 → (t.mat c).desc = d.desc) ∧ (d.fn = 1 ∨ d.fn = 2 ∨ d.fn = 6 → HiveOnly s t h)) ∧
      (s.matTurn c = false → exec (.matStep c n) s = .next s)) ∧
    ((∀ g, ∀ m ∈ (s.hive g).mats, coreHive m.1.core = g) →
      (∀ d, StepOpen s c n d → d.fetchReady = false → d.fetch = none → Completes s (.matStep c n) fun t =>
        t.mem = s.mem ∧ (∀ k, t.ctx k = s.ctx k) ∧ (∀ g, (t.hive g).slots = (s.hive g).slots) ∧
          ∃ e f, (t.mat c).queue[n]? = some e ∧ e.step = d.step ∧ e.fetch = some f ∧ f.since = s.dieCycle) ∧
      (∀ d f, q.queue[n]? = some d → d.fetch = some f → f.since + 256 ≤ s.dieCycle → Completes s (.mcastWaitExpiry c n) fun t =>
        t = { s with hives := t.hives } ∧ ∃ e g, (t.mat c).queue[n]? = some e ∧ e.step = d.step ∧ e.fetch = some g ∧
          g.since = f.since ∧ ∀ b, d.selects b = true → g.got b = true)) ∧
    (∀ d ds, q.queue = d :: ds → d.total ≤ d.step → d.handlers = [] → (s.ctx c).matTl.fault = none → s.matRuns c = true →
      Completes s (.matCommandComplete c) fun t => HiveAndCores s t h ∧ (t.mat c).queue = ds ∧
        (t.ctx c).matTl = { (s.ctx c).matTl with value := d.seq } ∧ (∀ m, m ≠ c → t.ctx m = s.ctx m) ∧
        (t.ctx c).fctl = if d.fn = 7 ∨ d.fn = 8 then (s.ctx c).fctl ||| d.flags.setWidth 64 else (s.ctx c).fctl) ∧
    (∀ d, s.matCmd c 0 = some d → (s.ctx c).matTl.fault = none → s.badStep h d = true → Completes s (.matFault c 0) fun t =>
      (t.ctx c).matTl = { (s.ctx c).matTl with
        fault := some { cause := .engineFault, tval := BitVec.ofNat 64 (4 + 16 * d.acc.val + d.seq % 2 ^ 56 * 256) } } ∧
      ((t.hive h).slots[d.acc]).fault = true ∧ t.mem = s.mem ∧ ∀ m, m ≠ c → t.ctx m = s.ctx m) ∧
    (∀ m d, s.drainAt c = some (m, d) → d.mode ≠ 7 → ∀ i : Fin 11, i ≠ 0 → ((s.core c.core).ctxs[i]).live = false →
      (∀ j : Fin 11, j ≠ 0 → j < i → ((s.core c.core).ctxs[j]).live = true) → Completes s (.tdrainRowDispatch c) fun t =>
        let u := t.ctx { core := c.core, num := i }
        u.live = true ∧ u.pc = d.a ∧ u.getS 1 = BitVec.ofNat 64 d.step ∧ u.getS 2 = d.b ∧
        (∃ e, (t.mat c).queue[m]? = some e ∧ e.step = d.step + 1 ∧ e.handlers = d.handlers ++ [i]) ∧ t.mem = s.mem ∧
        ∀ k, k ≠ { core := c.core, num := i } → t.ctx k = s.ctx k) ∧
    ∀ x (i : Fin 11), Waits s { core := c.core, num := 0 } (.start x) → s.rowWaits c.core = false →
      ((s.ctx { core := c.core, num := 0 }).getS x.a).toNat % 4 = 0 → i ≠ 0 → ((s.core c.core).ctxs[i]).live = false →
      (∀ j : Fin 11, j ≠ 0 → j < i → ((s.core c.core).ctxs[j]).live = true) → Completes s (.helperAssign c.core) fun t =>
        (t.ctx { core := c.core, num := i }).live = true ∧
        (t.ctx { core := c.core, num := i }).pc = (s.ctx { core := c.core, num := 0 }).getS x.a ∧
        WentOn s t { core := c.core, num := 0 } (oneSet s { core := c.core, num := 0 } x.d (BitVec.ofNat 64 i.val))

/-- 11 R252 to R262, R266: what the block-transfer engine does on its own: it accepts a waiting command, moves a chunk in the
turn of its context (no byte outside the chunk's destinations changes), completes a command, or stops its timeline at a faulty source; a tile load ends with
its window present, or absent again with a trap for the instruction that touched it. That elements move in
index order is log 36's choice, and what a line that has left every range gives log 128's. -/
def Obligations.CopyEvents : Prop :=
  ∀ (s : State) (c : CtxId) (n : Nat), Memory.wf s = true →
    (∀ x, Waits s c (.cseal x) → (s.copyQueue c).length < 16 → (s.ctx c).batches.length < 16 →
      Completes s (.copyAccept c) fun t =>
        WentOn s t c (oneSet s c x.d (BitVec.ofNat 64 ((s.ctx c).copyTl.last + 1))) ∧
        (t.copyQueue c).length = (s.copyQueue c).length + 1) ∧
    (∀ d, s.copyAt c n = some d → s.badChunk d = false → d.kind = .copy → s.portDead (d.ranges.1 ++ d.ranges.2) = false →
      s.rangesBusy c.core.die (d.chunkReads ++ d.chunkWrites) = false →
      (s.copyTurn c = false → exec (.copyChunk c n) s = .next s) ∧
      (s.copyTurn c = true → Completes s (.copyChunk c n) fun t =>
        let z := recEs d.record
        let dst := recWrites d.record d.pages
        t.copyQueue c = (s.copyQueue c).set n { d with done := d.done + d.chunk.length } ∧
        (t.hive (coreHive c.core)).copyTurn = matIndex c + 1 ∧ (∀ k, t.ctx k = s.ctx k) ∧
        (∀ b, (∀ i ∈ d.chunk, b < dst i ∨ dst i + z ≤ b) → t.byte b = s.byte b) ∧
        ∀ i ∈ d.chunk, (∀ j ∈ d.chunk, j ≠ i → dst j + z ≤ dst i ∨ dst i + z ≤ dst j) → inPort (dst i) = false →
          s.engineMay (s.owner c.core) (dst i) z = true →
          (recReads d.record d.pages i = none → t.read (dst i) z = recBits d.record 511 448 % 2 ^ (8 * z)) ∧
          ∀ a, recReads d.record d.pages i = some a → inPort a = false → s.engineMay (s.owner c.core) a z = true →
            (∀ j ∈ d.chunk, dst j + z ≤ a ∨ a + z ≤ dst j) → t.read (dst i) z = s.read a z)) ∧
    (∀ d, s.copyAt c n = some d → d.total ≤ d.done → (d.kind = .seal → n = 0) → Completes s (.copyComplete c n) fun t =>
      let q := (s.copyQueue c).eraseIdx n
      HiveAndCores s t (coreHive c.core) ∧ t.copyQueue c = q ∧
      (t.ctx c).copyTl.value = (match q with | [] => (s.ctx c).copyTl.last | e :: _ => e.seq - 1) ∧
      (∀ b, b ∈ (t.ctx c).batches ↔ b ∈ (s.ctx c).batches ∧ (t.ctx c).copyTl.value < b) ∧ ∀ m, m ≠ c → t.ctx m = s.ctx m) ∧
    (∀ d, s.copyAt c n = some d → s.badChunk d = true → d.kind = .copy → Completes s (.copyFault c n) fun t =>
      (t.ctx c).copyTl = { (s.ctx c).copyTl with
        fault := some { cause := .engineFault, tval := BitVec.ofNat 64 (11 + d.seq % 2 ^ 56 * 256) } } ∧
      t.mem = s.mem ∧ ∀ m, m ≠ c → t.ctx m = s.ctx m) ∧
    ∀ (w : Fin 8) l,
      let v := (s.core c.core).wins[w]
      let r := recAbs c.core v.record
      v.load = some l →
      s.portDead (((List.range (recTotal r)).filterMap fun i => (recReads r l.pages i).map fun a => (a, 1)) ++
        [(localAddr c.core 0, 1)]) = false →
      (s.badSource r l.pages (List.range (recTotal r)) = none →
        s.rangesBusy c.core.die ((List.range (recTotal r)).filterMap fun i => (recReads r l.pages i).map fun a => (a, recEs r)) = false →
        Completes s (.tileLoadDone c.core w) fun t =>
        ((t.core c.core).wins[w]).state = 3 ∧ ((t.core c.core).wins[w]).dirty = false ∧ ((t.core c.core).wins[w]).load = none ∧
        ∀ k, t.ctx k = s.ctx k) ∧
      (∀ i b, s.badSource r l.pages (List.range (recTotal r)) = some (i, b) → Completes s (.tileLoadDone c.core w) fun t =>
        ((t.core c.core).wins[w]).state = 1 ∧ ((t.core c.core).wins[w]).load = none ∧ t.mem = s.mem ∧
        ∃ f, ((t.core c.core).wins[w]).fault = some (l.toucher, f) ∧ f.cause = .dataError)

/-- 08 R198 to R201, 12 R284, 13 R291 to R305: a waiting instruction that can go on does; one whose deadline has come reports it
(WAIT with bit 4, BWAIT with 0x10, TASKGET with 2, RGTAKE with all ones but bit 0, RECV with all ones), and a SPAWN that finds no
room for 4,096 ticks takes SPILL_FULL. A YIELD ends after 16 core cycles. When and in which order the conditions of WAIT
are checked is the model's reading (log 33). -/
def Obligations.WaitsAndTimeouts : Prop :=
  ∀ (s : State) (c : CtxId) (x : XForm),
    let u := actingAs s c
    let m := s.ctx c
    let sc : Reg := x.e1.extractLsb' 0 5
    let kind (i : Fin 4) : Nat := bits x.e1.toNat (4 * i.val + 3) (4 * i.val)
    (∀ h : Fin 4 → Bool, Waits s c (.wait x) → (∀ i, kind i = 0 → h i = false) →
      (∀ i, kind i ≠ 0 → CondSays u (XForm.cond x m i.val) (h i)) →
      let got : Word := flagWord (h 0) + 2 * flagWord (h 1) + 4 * flagWord (h 2) + 8 * flagWord (h 3)
      ((x.mod = 0 → ∃ i, h i = true) → (x.mod ≠ 0 → ∀ i, kind i ≠ 0 → h i = true) →
        Completes s (.waitEvaluate c) fun t => WentOn s t c (oneSet s c x.d got)) ∧
      ((x.mod = 0 → ∀ i, h i = false) → (x.mod ≠ 0 → ∃ i, kind i ≠ 0 ∧ h i = false) → DeadlinePassed s c →
        Unrecorded s c.core → Completes s (.waitTimeout c) fun t => WentOn s t c (oneSet s c x.d (got + 16)))) ∧
    (∀ y, m.yielding = some y → y.limit ≤ (s.core c.core).cycles → Completes s (.yieldExpiry c) fun t =>
      t = { s with cores := t.cores } ∧ t.ctx c = { m with yielding := none } ∧ ∀ k, k ≠ c → t.ctx k = s.ctx k) ∧
    (Unrecorded s c.core → DeadlinePassed s c →
      (Waits s c (.bwait x) → c.core.big = false → ((s.core c.core).bgs[barOf x]).state = 2 →
        ((s.core c.core).bgs[barOf x]).broken = false →
        Completes s (.bwaitTimeout c) fun t => WentOn s t c (oneSet s c x.d 16)) ∧
      (∀ j l st g, Waits s c (.taskget x) → s.stageOf c.core = some (j, l, st, g) → l.pool st = true → g.work ≠ 0 →
        s.shed m = false → (s.core c.core).deque = [] → (s.core c.core).ovfTop = 0 →
        Completes s (.taskgetTimeout c) fun t => WentOn s t c (oneSet s c sc 2)) ∧
      (∀ j l r, Waits s c (.rgtake x) → u.roleRing true x.mod.toNat = some (j, l, r) → s.shed m = false → r.pubf ≤ r.take →
        r.closed = false → Completes s (.rgtakeTimeout c) fun t =>
          WentOn s t c fun q => if q = sc then 0xFFFFFFFFFFFFFFFE else if q = x.d then 0 else m.getS q) ∧
      (Waits s c (.recv x) → m.mailbox = [] →
        Completes s (.recvTimeout c) fun t => WentOn s t c (oneSet s c sc 0xFFFFFFFFFFFFFFFF))) ∧
    (∀ j l st g b, Waits s c (.spawn x) → m.blocked = some b → b.issued + 4096 ≤ s.now → Unrecorded s c.core →
      s.stageOf c.core = some (j, l, st, g) → l.pool st = true → taskValid ((m.getV x.a).extractLsb' 0 256) = true →
      64 ≤ (s.core c.core).deque.length → (s.core c.core).spills = false → m.tinh = false →
      Completes s (.spawnTimeout c) fun t => (t.ctx c).tcode = 9 ∧ (t.ctx c).tval = 0 ∧ (t.ctx c).tpc = m.pc ∧
        (t.ctx c).pc = m.tvec ∧ (t.ctx c).tlen = 2 ∧ (t.ctx c).blocked = none ∧ (t.ctx c).sup = true ∧ (t.ctx c).s = m.s)

/-- 12 R273 to R279: a token is held until it is used; a release of the same rectangle and kind sets the cycle in which the
phase starts (S per column later for a compute release), one of a class that is shed is withheld, and one of another rectangle or of
mixed kinds breaks the barrier; in that cycle the register counts its generation and returns to STATE 01, and the context that waits
goes on; a word that arrives in a latch sets V and clears U. That a newer token takes the place of a held one is log 29, and that the
class of the corner core's context decides the withholding log 40: the model's readings. -/
def Obligations.BarrierEvents : Prop :=
  ∀ (s : State) (die n : Nat) (k : CoreId) (bg : Fin 4),
    let d := s.die die
    let bar (t : State) (k : CoreId) (g : Fin 4) : Barrier := (t.core k).bgs[g]
    (∀ f, d.tokens[n]? = some f → f.due ≤ s.dieCycle → (s.core f.dest).status ≠ .fenced → (bar s f.dest f.bg).state = 0 → Completes s (.barrierTokenArrival die n) fun t =>
      (t.die die).tokens = d.tokens.eraseIdx n ∧ bar t f.dest f.bg =
        (if f.from_ = .n then { bar s f.dest f.bg with fromNorth := some f.load } else { bar s f.dest f.bg with fromWest := some f.load }) ∧
      (∀ c, t.ctx c = s.ctx c) ∧ t.mem = s.mem) ∧
    (∀ f, d.tokens[n]? = some f → f.due ≤ s.dieCycle → (s.core f.dest).status ≠ .fenced → (bar s f.dest f.bg).state ≠ 0 → f.load.gen0 = (bar s f.dest f.bg).gen0 →
      f.load.rect ≠ (bar s f.dest f.bg).rect → Completes s (.barrierTokenArrival die n) fun t => (bar t f.dest f.bg).broken = true) ∧
    (∀ f, d.releases[n]? = some f → f.due ≤ s.dieCycle → (s.core f.dest).status ≠ .fenced → (bar s f.dest f.bg).rect = f.load.1.rect → f.load.1.kind ≠ .mixed →
      (f.load.1.kind = .compute → s.shed ((s.core (cornerOf f.dest.die f.load.1.rect)).ctxs[(0 : Fin 11)]) = true →
        Completes s (.barrierReleaseArrival die n) fun t => (bar t f.dest f.bg).withheld = true ∧
          (bar t f.dest f.bg).startAt = (bar s f.dest f.bg).startAt ∧ (bar t f.dest f.bg).state = (bar s f.dest f.bg).state) ∧
      ((f.load.1.kind = .compute → s.shed ((s.core (cornerOf f.dest.die f.load.1.rect)).ctxs[(0 : Fin 11)]) = false) →
       Completes s (.barrierReleaseArrival die n) fun t =>
        bar t f.dest f.bg = { bar s f.dest f.bg with
          startKind := f.load.1.kind
          startAt := some (f.load.2 + if f.load.1.kind = .compute then
            ((s.jobLaunch f.dest).map fun l => bits l.packet.toNat 14 11).getD 0 * (f.dest.col - bits f.load.1.rect.toNat 7 0) else 0) } ∧
        (∀ c, t.ctx c = s.ctx c) ∧ t.mem = s.mem)) ∧
    (∀ f, d.releases[n]? = some f → f.due ≤ s.dieCycle → (s.core f.dest).status ≠ .fenced → (bar s f.dest f.bg).rect ≠ f.load.1.rect ∨ f.load.1.kind = .mixed →
      Completes s (.barrierReleaseArrival die n) fun t => (bar t f.dest f.bg).broken = true) ∧
    (∀ r, (bar s k bg).startAt = some r → r ≤ s.dieCycle → (s.core k).status ≠ .fenced → (bar s k bg).fromWest = none → (bar s k bg).fromNorth = none →
      Completes s (.phaseStart k bg) fun t =>
        (bar t k bg).state = 1 ∧ (bar t k bg).rect = (bar s k bg).rect ∧ (bar t k bg).startAt = none ∧ (bar t k bg).arrival = none ∧
        bits (bar t k bg).word.toNat 61 46 = (bits (bar s k bg).word.toNat 61 46 + 1) % 2 ^ 16 ∧
        ∀ b x, ((s.core k).ctxs[(0 : Fin 11)]).blocked = some b → b.phase = 1 → barOf x = bg → b.instr = .barr x ∨ b.instr = .phase x →
          ((bar s k bg).startKind = .transfer → ∃ y, (t.core k).transfer = some y ∧ y.start = r ∧ y.bg = bg ∧
            y.rect = (bar s k bg).rect ∧ (t.core k).divider = 1 ∧ (y.halted = none ↔ s.memberHalted k bg = false) ∧
            ∀ o : Fin 4, y.routes[o] = none ∧ (y.latches[o]).v = false ∧ (y.latches[o]).u = true ∧ (y.latches[o]).overrun = false) ∧
          ((s.core k).status = .running → (bar s k bg).startKind = .compute ∨ s.memberHalted k bg = false →
            ((t.core k).ctxs[(0 : Fin 11)]).blocked = none ∧
            ((t.core k).ctxs[(0 : Fin 11)]).pc = ((s.core k).ctxs[(0 : Fin 11)]).pc + 12)) ∧
    ∀ f y, d.wires[n]? = some f → f.due ≤ s.dieCycle → (s.core f.dest).transfer = some y → (s.core f.dest).status ≠ .fenced →
      (neighbour y.rect f.dest f.from_).isSome = true → Completes s (.wireWordArrival die n) fun t =>
      (t.die die).wires = d.wires.eraseIdx n ∧ (∀ c, t.ctx c = s.ctx c) ∧ ∃ z, (t.core f.dest).transfer = some z ∧
        z = { y with latches := z.latches } ∧ (∀ o : Fin 4, o ≠ latchOf f.from_ → z.latches[o] = y.latches[o]) ∧
        let old := y.latches[(latchOf f.from_)]
        z.latches[(latchOf f.from_)] = { word := f.load, v := true, u := false, overrun := old.overrun || (old.v && !old.u),
                                         arrived := f.due - y.start }

namespace Sys2Proof.Claims

/-- Core a comes before core b in the allotment order of a pool stage: by the number of its unit, then by place (13 R295, 16 R326). -/
def AllottedBefore (g : Stage) (level : Nat) (a b : CoreId) : Prop :=
  let unit (k : CoreId) : Nat := (g.unitOf level k).getD (2 ^ 17)
  unit a < unit b ∨ unit a = unit b ∧ placeKey a < placeKey b

/-- 13 R295: a draw is one xorshift64, and its victim the core of that number, modulo their count, among the cores of the stage that run a
context, in allotment order; a core that draws itself sends no probe. -/
def Draws : Prop :=
  ∀ (s : State) (k : CoreId) (j : Nat) (l : Launch) (st : Nat) (g : Stage) (vs : List CoreId),
    s.stageOf k = some (j, l, st, g) → (s.core k).steals = true → vs.Perm g.running → (∀ v ∈ vs, coreValid v = true) →
    vs.Pairwise (AllottedBefore g (topLevel l.packet st)) → Completes s (.stealProbe k) fun t =>
      let x1 := (s.core k).steal ^^^ ((s.core k).steal <<< 13)
      let x2 := x1 ^^^ (x1 >>> 7)
      let x := x2 ^^^ (x2 <<< 17)
      let v := vs[x.toNat % vs.length]?
      (t.core k).steal = x ∧ (t.core k).probe = (if v = some k then none else v) ∧ (∀ m, t.ctx m = s.ctx m) ∧
        (∀ m, m ≠ k → t.core m = s.core m) ∧ t = { s with cores := t.cores }

/-- 13 R295: the victim gives up the older half of its deque; of one range task of two grains or more the thief gets the upper part, and
C rises; else the probe fails, as it does where the victim has left the stage. -/
def Steals : Prop :=
  ∀ (s : State) (k v : CoreId),
    let c := s.core k
    let q := (s.core v).deque
    c.probe = some v → v ≠ k → c.status ≠ .fenced → (s.core v).status ≠ .fenced →
    let fails : Prop := Completes s (.stealResponse k) fun t => (t.core k).probe = none ∧ (t.core k).deque = c.deque ∧
      (∀ m, m ≠ k → t.core m = s.core m) ∧ t = { s with cores := t.cores }
    let moves (keep move : List (BitVec 256)) (t : State) : Prop := (t.core v).deque = keep ∧
      (t.core k).deque = c.deque ++ move ∧ (t.core k).probe = none ∧ t.mem = s.mem ∧ ∀ m, t.ctx m = s.ctx m
    let grains (e : BitVec 256) : Nat := (taskHi e - taskLo e + taskGrain e - 1) / taskGrain e
    ((s.core v).job ≠ c.job → fails) ∧ (q = [] → fails) ∧
    (∀ e, q = [e] → taskRange e = false ∨ grains e < 2 → fails) ∧
    ((s.core v).job = c.job → c.status ≠ .off → Unrecorded s v →
      (2 ≤ q.length → Completes s (.stealResponse k) fun t => moves (q.drop (q.length / 2)) (q.take (q.length / 2)) t ∧
        t.launches = s.launches) ∧
      (∀ e j l st g, q = [e] → taskRange e = true → 2 ≤ grains e → s.stageOf v = some (j, l, st, g) →
        Completes s (.stealResponse k) fun t => ∃ a b l' g', moves [a] [b] t ∧
          taskLo a = taskLo e ∧ taskHi a = taskLo e + (grains e + 1) / 2 * taskGrain e ∧ taskLo b = taskHi a ∧ taskHi b = taskHi e ∧
          (∀ r, r = a ∨ r = b → r.extractLsb' 0 128 = e.extractLsb' 0 128 ∧ r.extractLsb' 192 64 = e.extractLsb' 192 64) ∧
          t.stageOf v = some (j, l', st, g') ∧ g'.work = g.work + 1))

/-- Lane i of a round's result (13 Table of R311): from the contributions in index order. -/
def RoundLane (mode : BitVec 4) (qs : List CollPart) (i : Nat) (r : BitVec 32) : Prop :=
  let xs := qs.map fun q => lane 32 q.value i
  (mode = 0 → r = xs.foldl (· + ·) 0) ∧
  (mode = 1 → r = BitVec.ofNat 32 (fpSum .f32 .rne .final (xs.map (·.toNat))).1) ∧
  (mode = 2 → r ∈ xs ∧ ∀ x ∈ xs, r.sle x = true) ∧ (mode = 3 → r ∈ xs ∧ ∀ x ∈ xs, x.sle r = true) ∧
  (mode = 4 → ∀ q ∈ qs, q.index = 0 → r = lane 32 q.value i)

/-- 13 R307, R311, R312: a round whose members have all issued it is combined, lane by lane and in index order, whatever order the
parts came in; every member's destination takes the result and its command is complete. Members that give different rules stop, with
reason 15. -/
def CollectiveRounds : Prop :=
  ∀ (s : State) (j n : Nat) (l : Launch) (qs : List CollPart),
    let g := lookup GroupId.reset n l.groups
    let at_ (p : CollPart) : Nat := engineAddr p.pages p.dst
    Memory.wf s = true → s.launch? j = some l → g.mismatch = false → qs ≠ [] → qs.Perm g.parts →
    qs.Pairwise (fun p q => p.index < q.index ∧ p.ctx ≠ q.ctx ∧ p.round = q.round) → g.size ≤ qs.length →
    (∀ p ∈ qs, (s.core p.ctx.core).status ≠ .fenced ∧ s.portDead [(at_ p, 64)] = false ∧
      s.rangesBusy p.ctx.core.die [(at_ p, 64)] = false) →
    (∀ mode : BitVec 4, mode.toNat < 5 → (∀ p ∈ qs, p.mode = mode) →
      (∀ p ∈ qs, inPort (at_ p) = false ∧ s.engineMay (s.owner p.ctx.core) (at_ p) 64 = true) →
      qs.Pairwise (fun p q => at_ p + 64 ≤ at_ q ∨ at_ q + 64 ≤ at_ p) →
      (∀ e ∈ l.groups, e.1 ≠ n → ∀ o ∈ e.2.parts, ∀ p ∈ qs, o.ctx ≠ p.ctx) → (l.groups.map (·.1)).Nodup →
      Completes s (.collRoundComplete j n) fun t => ∃ v : VWord, (∀ i, i < 16 → RoundLane mode qs i (lane 32 v i)) ∧
        ∀ p ∈ qs, t.read (at_ p) 64 = v.toNat ∧ (t.ctx p.ctx).collTl.value = (s.ctx p.ctx).collTl.last) ∧
    (∀ p ∈ qs, ∀ q ∈ qs, p.mode ≠ q.mode → (∀ o ∈ qs, (s.ctx o.ctx).collTl.fault = none) →
      Completes s (.collRoundComplete j n) fun t => t.mem = s.mem ∧ ∀ o ∈ qs, ((t.ctx o.ctx).collTl).fault =
        some { cause := .engineFault, tval := BitVec.ofNat 64 (15 + o.seq % 2 ^ 56 * 256) })

end Sys2Proof.Claims

/-- 13 R292 to R312: what tasks, messages and collectives do on their own: a probe draws a victim by xorshift64; a victim gives up
the older half of its deque or splits its one range; a SPAWNAT record and a message are delivered; a round whose members have all issued
it is combined and its commands complete; a group id whose members have all freed it is free at its next generation. That one member of
a generation whose joins mismatch stops as its own part comes is log 32, and that a context which has ended still takes messages in its
mailbox log 31: the model's readings. -/
def Obligations.TaskEvents : Prop :=
  Sys2Proof.Claims.Draws ∧ Sys2Proof.Claims.Steals ∧ Sys2Proof.Claims.CollectiveRounds ∧
  ∀ (s : State) (k : CoreId) (n : Nat),
    let c := s.core k
    (∀ p, s.spawns[n]? = some p → (s.core p.dest).deque.length < 64 → (s.core p.dest).status ≠ .fenced → Unrecorded s p.dest →
      Completes s (.spawnatDelivery n) fun t => t.spawns = s.spawns.eraseIdx n ∧
        (t.core p.dest).deque = (s.core p.dest).deque ++ [p.record] ∧ (∀ m, m ≠ p.dest → t.core m = s.core m) ∧ t.mem = s.mem) ∧
    (∀ m l e, c.sendBuf[n]? = some m → s.launch? m.launch = some l → l.ranks[m.rank]? = some e → e.transit = false → e.ended = false →
      (∀ o ∈ c.sendBuf.take n, ¬(o.launch = m.launch ∧ o.sender = m.sender ∧ o.rank = m.rank)) → (s.ctx e.ctx).mailbox.length < 4 →
      s.owner e.ctx.core = some l.part → (s.core e.ctx.core).status = .running ∨ (s.core e.ctx.core).status = .idle →
      c.status ≠ .fenced → (s.part l.part).rmode = 0 → Completes s (.messageDelivery k n) fun t =>
        (t.core k).sendBuf = c.sendBuf.eraseIdx n ∧ (t.ctx e.ctx).mailbox = (s.ctx e.ctx).mailbox ++ [m.msg] ∧
        (∀ q, q ≠ e.ctx → t.ctx q = s.ctx q) ∧ t.mem = s.mem) ∧
    ∀ j l,
      let g := lookup GroupId.reset n l.groups
      s.launch? j = some l →
      (∀ p, g.mismatch = true → g.parts = [p] → (s.ctx p.ctx).collTl.fault = none → Completes s (.collRoundComplete j n) fun t =>
        ((t.ctx p.ctx).collTl).fault = some { cause := .engineFault, tval := BitVec.ofNat 64 (15 + p.seq % 2 ^ 56 * 256) } ∧
        t.mem = s.mem) ∧
      (g.members ≠ [] → g.size ≤ g.members.length → g.members.length ≤ g.frees.length → g.parts = [] →
        Completes s (.groupGenerationDrain j n) fun t => ∃ l', t.launch? j = some l' ∧
          lookup GroupId.reset n l'.groups = { GroupId.reset with gen := g.gen + 1 })

namespace Sys2Proof.Claims

/-- The directory has no sharer of a line and is not busy with it (10 Table 10.3). -/
def Unshared (s : State) (die line : Nat) : Prop :=
  (s.entry die line).state = .uncached ∧ (s.entry die line).coarse = false ∧ (s.entry die line).ptrs = [] ∧
    (s.entry die line).dv = 0 ∧ (s.entry die line).waiting = []

/-- A core's L1 state of a line: `some true` is exclusive. -/
def lineState (s : State) (k : CoreId) (line : Nat) : Option Bool := (s.l1Line k line).map (·.own)

/-- A core's L1 has room for a line: it holds it, or a way of the line's set is free (10 R242). -/
def L1Room (s : State) (k : CoreId) (line : Nat) : Prop :=
  s.holdsLine k line = true ∨
    ∃ w ∈ s.l1Ways k, ∀ e ∈ (s.core k).l1, e.line % l1Sets k = line % l1Sets k → e.way ≠ w

/-- The partition of a line, if any, neither records nor replays (20 R392). -/
def LineUnrecorded (s : State) (line : Nat) : Prop := ∀ p, s.lineOwner line = some p → (s.part p).rmode = 0

/-- The n-th message of a die's inbox, which a die may apply now and which waits at no entry (10 R234, R248). -/
def Applies (s : State) (die n : Nat) (m : XMsg) : Prop :=
  (s.die die).inbox[n]? = some m ∧ s.mayApply die n m = true ∧ s.messageWaits die m = false

end Sys2Proof.Claims

/-- 10 R234, R235, R242 to R250, 02 R32: what the directory, the links between dies and the caches do on their own, in sets with
room. None of it changes a byte of memory or a context, but a fence that gets its ticket goes on. That no coherence event changes a byte,
since an access performs whole in its own step, is log 6's choice, and so are log 24 (a reply installs a line only where
the directory covers it), log 111 (tickets go in the order of arrival) and log 131 (message numbers wrap at 48 bits). -/
def Obligations.CoherenceEvents : Prop :=
  ∀ (s : State) (die line n : Nat) (k : CoreId) (h : HiveId),
    let e := s.entry die line
    let quiet (i : Instr) (P : State → Prop) : Prop := Completes s i fun t => t.mem = s.mem ∧ (∀ c, t.ctx c = s.ctx c) ∧ P t
    let arrived (t : State) (m : XMsg) : Prop := (t.die die).inbox = (s.die die).inbox.eraseIdx n ∧
      ∀ d, (t.die die).counter d = if d = m.src then max ((s.die die).counter d) m.raises else (s.die die).counter d
    (∀ m, Applies s die n m →
      (((∃ no, m.kind = .beat no) ∨ ∃ q, m.kind = .localAccess q ∧ Unrecorded s q) →
        quiet (.crossDieMessageApply die n) fun t => arrived t m) ∧
      (LineUnrecorded s line → e.state ≠ .busy → s.makeEntry die line = s →
        (∀ q, m.kind = .readRequest line q → quiet (.crossDieMessageApply die n) fun t => arrived t m ∧
          (m.src < 36 → (t.entry die line).dv.getLsbD m.src = true) ∧ (q, line) ∈ (t.hive (coreHive q)).replies) ∧
        (m.kind = .invalidate line ∨ m.kind = .write line ∨ m.kind = .atomic line →
          (Unshared s die line → quiet (.crossDieMessageApply die n) fun t => arrived t m ∧ (t.entry die line).replica = none ∧
            (t.entry die line).state = .uncached) ∧
          (∀ q, e.state = .shared → e.coarse = false → e.ptrs = [pointerOf q] → q.die = die → coreValid q = true →
            quiet (.crossDieMessageApply die n) fun t => (t.entry die line).state = .busy ∧
              (t.entry die line).acks = [coreHive q] ∧ (t.entry die line).replica = none)))) ∧
    (∀ dst, dst ≠ die → dst ∈ (s.die die).unbeaten → quiet (.clockBeat die dst) fun t => dst ∉ (t.die die).unbeaten ∧
      (t.die dst).inbox = (s.die dst).inbox ++
        [{ src := die, no := (s.die die).msgNo, clock := (s.die die).counters, kind := .beat (s.die die).msgNo }]) ∧
    (∀ w rest b, s.fence.waiting = w :: rest → w.ctx.core.die = die → s.fenceSeen w = true → (s.ctx w.ctx).blocked = some b →
      Completes s (.fenceSequencerTicket die) fun t => t.mem = s.mem ∧ t.fence = { ticket := s.fence.ticket + 1, waiting := rest } ∧
        (t.ctx w.ctx).blocked = none ∧ (∀ x ∈ (t.ctx w.ctx).spec, x.valid = false) ∧ (t.ctx w.ctx).s = (s.ctx w.ctx).s ∧
        ∀ q, q ≠ w.ctx → t.ctx q = s.ctx q) ∧
    (k.die = die → Unshared s die line → s.makeEntry die line = s →
      quiet (.directoryReadMiss die line k) (fun t => (t.entry die line).state = .shared ∧ (t.entry die line).ptrs = [pointerOf k] ∧
        (t.entry die line).coarse = false) ∧
      (homedOn die line = true → L1Room s k line → quiet (.ownershipRequest die line k) fun t =>
        (t.entry die line).state = .exclusive ∧ (t.entry die line).ptrs = [pointerOf k] ∧ lineState t k line = some true) ∧
      (homedOn die line = false → quiet (.proxyWriteThrough die line k) fun t => (t.entry die line).replica = none ∧
        ∃ m, (t.die (homeDie (128 * line))).inbox = (s.die (homeDie (128 * line))).inbox ++ [m] ∧ m.src = die ∧
          m.kind = .write line ∧ m.no = ((s.die die).msgNo + 1) % 2 ^ 48)) ∧
    (∀ q, k.die = die → s.makeEntry die line = s → e.state = .shared → e.coarse = false → e.ptrs = [pointerOf q] →
      pointerOf q ≠ pointerOf k → q.die = die → coreValid q = true →
      let waits (t : State) : Prop := (t.entry die line).state = .busy ∧ (t.entry die line).acks = [coreHive q]
      (homedOn die line = true → quiet (.ownershipRequest die line k) waits) ∧
        (homedOn die line = false → quiet (.proxyWriteThrough die line k) waits)) ∧
    (e.state = .busy → LineReq.read k ∉ e.waiting → k.die = die → quiet (.directoryReadMiss die line k) fun t =>
      t.entry die line = { e with waiting := e.waiting ++ [.read k] }) ∧
    (e.state = .busy → h ∈ e.acks → quiet (.hiveInvalidation die line h) fun t =>
      ∀ q ∈ hiveCores h, some q ≠ e.requester → t.holdsLine q line = false) ∧
    (homedOn die line = true → e.state = .busy → e.acks = [h] → e.waiting = [.own k] → L1Room s k line →
      (∀ x ∈ (s.hive h).replies, x.2 ≠ line ∧ x ∉ e.behind) → (∀ q ∈ hiveCores h, q ≠ k → s.holdsLine q line = false) →
      quiet (.invalidationAck die line h) fun t =>
        (t.entry die line).state = .exclusive ∧ (t.entry die line).ptrs = [pointerOf k] ∧ lineState t k line = some true) ∧
    (∀ x, k.die = die → e.coarse = false → e.ptrs = [pointerOf k] → e.state ≠ .busy → s.l1Line k line = some x →
      let gone (t : State) : Prop := (t.entry die line).state = .uncached ∧ (t.entry die line).ptrs = [] ∧ t.holdsLine k line = false
      (x.dirty = false → quiet (.cleanEvictionNotice die line k) gone) ∧ (x.dirty = true → quiet (.dirtyWriteBack die line k) gone)) ∧
    (∀ p j, k.die = die → homedOn die line = false → s.holdsLine k line = true → e.replica = none → e.state ≠ .busy →
      s.owner k = some p → s.nearestSlice die p (hiveIndex (coreHive k)) = some j → quiet (.replicaOffer die line k) fun t =>
        (t.entry die line).replica = some j ∧ t.holdsLine k line = false) ∧
    (128 * line < 2 ^ 52 → Sound s (128 * line) 128 → quiet (.readReply k line .codeLine) fun t => ∀ j < 128,
      (t.core k).icache.find? (fun x => x.1 == 128 * line + j) = some (128 * line + j, s.byte (128 * line + j))) ∧
    (s.replyNext k line = false → exec (.readReply k line .dataLine) s = .next s) ∧
    (s.replyNext k line = true → (s.entry k.die line).covers k = true → s.holdsLine k line = false → L1Room s k line →
      quiet (.readReply k line .dataLine) fun t => lineState t k line = some false)

namespace Sys2Proof.Claims

/-- The head of a queue passes every check of 16 R330, its images are copied, and admitting it leads from s to r. -/
def Admits (s : State) (p m : Nat) (head : Machine.Queued) (r : State) : Prop :=
  s.firstChecks p head.packet = .ok () ∧ ∃ u alloc v,
    let l : Launch := { head.launch p with stages := freshStages head.packet alloc }
    (s.switchMode p m).allotFor (head.launch p) = some (u, alloc) ∧ u.lastChecks l = .ok () ∧
      ({ u with nextLaunch := u.nextLaunch + 1 }.setSplits u.nextLaunch l).copyImages l (stageNums l.packet) = (v, false) ∧
      r = (v.dequeue p m).makeResident u.nextLaunch l ((stageNums l.packet).map (u.seedsOf p l.packet))

end Sys2Proof.Claims

/-- 16 R328 to R334, 21 R400, R401: a submitted packet joins its queue, one that cannot be read is rejected, and one from a source
that is not allowed, or that comes while its partition is changed, is counted; a draw advances the lottery by xorshift64 and admits the
drawn head where it passes its checks and its groups are free, discards it where it fails them, or leaves it; a forced head is tried
again; a sample is taken every 16,384 ticks; a decided move takes its groups over; a stage whose work is over is done, and with the last
one the launch ends. The model's choices and readings among these: a doorbell's address is taken as a multiple of 128, and an unread
packet is reported at its header's RPT (log 86), where that can be written (log 87); floors are taken greedily (log 78); one movable
unit moves, which one is free (log 83); a fabric message whose head names no partition is discarded uncounted (log 130). -/
def Obligations.LaunchEvents : Prop :=
  ∀ (s : State) (p n j : Nat), Memory.wf s = true →
    let q := s.part p
    let joins (t : State) (packet : BitVec 11264) (src : Source) : Prop :=
      lookup [] (bits packet.toNat 23 18) (t.part p).queues =
        lookup [] (bits packet.toNat 23 18) q.queues ++ [{ packet := packet, source := src }] ∧ (t.part p).armed = true ∧
        t.launches = s.launches
    let counted (t : State) : Prop := t = { s with parts := t.parts } ∧ t.part p = { q with dbdrop := q.dbdrop + 1 }
    (∀ page addr, s.doorbellPart page = some p → q.rmode = 0 →
      let a := addr.toNat / 128 * 128
      (s.changes p = true → Completes s (.dbpkt page addr) counted) ∧
      (s.changes p = false →
        (∀ packet, s.readPacket p a = .ok packet → (lookup [] (bits packet.toNat 23 18) q.queues).length < 256 →
          Completes s (.dbpkt page addr) fun t => joins t packet .doorbell) ∧
        (∀ d, s.readPacket p a = .error d → Completes s (.dbpkt page addr) fun t => t.parts = s.parts ∧ t.launches = s.launches ∧
          (∀ e, s.rimRead p a 128 = .error e → t.mem = s.mem) ∧
          ∀ header pa, s.rimRead p a 128 = .ok header → bits (BitVec.ofNat 11264 header).toNat 447 384 ≠ 0 →
            s.rimAddr p .store (bits (BitVec.ofNat 11264 header).toNat 447 384) = .ok pa → inPort pa = false →
            t.read pa 32 = reportWord s.now p (BitVec.ofNat 11264 header) 3 8 [] % 2 ^ 256))) ∧
    (∀ src packet, q.rmode = 0 → p < 64 →
      (s.changes p = false → src ∈ q.fabric → (lookup [] (bits packet.toNat 23 18) q.queues).length < 256 →
        Completes s (.fabricSubmission src (p + 256) packet) fun t => joins t packet (.fabric src) ∧ t.mem = s.mem) ∧
      (s.changes p = true ∨ src ∉ q.fabric → Completes s (.fabricSubmission src (p + 256) packet) counted)) ∧
    (let x1 := q.lottery ^^^ (q.lottery <<< 13)
     let x2 := x1 ^^^ (x1 >>> 7)
     let x := x2 ^^^ (x2 <<< 17)
     let u := s.setPart p { q with lottery := x, armed := false, freed := false, lastDraw := some s.refCount }
     ∀ m f head rest, s.mayDraw p = true → q.rmode = 0 → q.select x = some (m, f) → lookup [] m q.queues = head :: rest →
      let drawn (t : State) (queue : List Machine.Queued) (forced : Option Nat) : Prop :=
        (t.part p).lottery = x ∧ (t.part p).lastDraw = some s.refCount ∧ lookup [] m (t.part p).queues = queue ∧
        (t.part p).forced = forced ∧ t.launches = s.launches
      (∀ reason, u.firstChecks p head.packet = .error reason → Completes s (.lotteryDraw p) fun t => drawn t rest none) ∧
      (u.firstChecks p head.packet = .ok () → q.recNext = none →
        (u.allotFor (head.launch p) = none → Completes s (.lotteryDraw p) fun t => drawn t (head :: rest) (if f then some m else none)) ∧
        (∀ v alloc reason, u.allotFor (head.launch p) = some (v, alloc) →
          v.lastChecks { head.launch p with stages := freshStages head.packet alloc } = .error reason →
          Completes s (.lotteryDraw p) fun t => drawn t rest none)) ∧
      (∀ r, Admits u p m head r → Completes s (.lotteryDraw p) (· = r.setPart p { (r.part p).age
        (q.waiting.filter fun i => 0 < q.tickets i) m true with forced := none }))) ∧
    (∀ m head rest reason, q.forced = some m → q.freed = true → s.residents p < 64 → lookup [] m q.queues = head :: rest →
      ((s.setPart p { q with freed := false }).firstChecks p head.packet = .error reason →
        Completes s (.forcedHeadRetry p) fun t => (t.part p).forced = none ∧ lookup [] m (t.part p).queues = rest ∧
          t.launches = s.launches) ∧
      (∀ r, Admits (s.setPart p { q with freed := false }) p m head r → Completes s (.forcedHeadRetry p)
        (· = r.setPart p { r.part p with forced := none, skip := store m 0 (r.part p).skip }))) ∧
    ∀ l, s.launch? j = some l →
      (l.sampled + 16384 ≤ s.refCount → Completes s (.governorSample j) fun t => t = { s with launches := t.launches } ∧
        ∃ l', t.launch? j = some l' ∧ l'.sampled = l.sampled + 16384 ∧
          l' = { l with samples := l'.samples, moves := l'.moves, sampled := l'.sampled }) ∧
      (∀ a b gs, (n, a, b) ∈ l.moves → (∀ m ∈ l.moves, m.1 = n → m = (n, a, b)) → l.mayMove a b = true →
        s.movableUnits l a b = [gs] →
        let u := ((coresOf gs).foldl State.endContexts ({ s with free := s.free + 1 }.setLaunch j
          { l with moves := l.moves.filter fun m => m.1 != n })).leaveStage j a gs
        Completes s (.groupMove j n) (· = ((u.inTransit j (coresOf gs)).joinStage j b gs).arrived j (coresOf gs))) ∧
      (∀ g, l.stages[n]? = some g → g.done = false → g.running = [] → (l.pool n = true → g.work = 0) →
        (∀ h, h ≠ n → l.runs h = false) → Completes s (.stageComplete j n) fun t =>
          ((∀ h x, h ≠ n → l.stages[h]? = some x → x.done = true) → t.launch? j = none ∧ (t.part l.part).armed = true) ∧
          ((∃ h x, h ≠ n ∧ l.stages[h]? = some x ∧ x.done = false) →
            ∃ l' x, t.launch? j = some l' ∧ l'.stages[n]? = some x ∧ x.done = true ∧ x.alloc = []))

namespace Sys2Proof.Claims

/-- Memory holds the image of a live context at a (17 R343, R344, Tables 17.2 and 17.3): its registers, its return-address store with the
newest entry first, and the trap it takes first. -/
def Imaged (s : State) (a : Nat) (m : Context) : Prop :=
  let w (off : Nat) : Word := BitVec.ofNat 64 (s.read (a + off) 8)
  let status := (w 0x988).toNat
  (∀ r : Reg, r ≠ 0 → m.getS r = w (8 * r.toNat)) ∧
  (∀ r : Reg, m.getV r = BitVec.ofNat 512 (s.read (a + 0x100 + 64 * r.toNat) 64)) ∧
  (∀ r : BitVec 3, r ≠ 0 → m.getP r = w (0x900 + 8 * r.toNat)) ∧
  m.pc = w 0x940 ∧ m.fctl = w 0x948 ∧ m.tcode = (w 0x950).extractLsb' 0 6 ∧ m.tlen = (w 0x950).extractLsb' 26 2 ∧
  m.tpm = (w 0x950).getLsbD 30 ∧ m.tinh = (w 0x950).getLsbD 31 ∧ m.tpc = w 0x958 ∧ m.tval = w 0x960 ∧ m.tscr = w 0x968 ∧
  m.rasp = w 0x970 ∧ m.rasl = w 0x978 ∧ m.rasn = (w 0x980).setWidth 32 ∧
  bits status 11 11 = 1 ∧ m.sup = (w 0x988).getLsbD 10 ∧ m.ras.length = bits status 23 19 ∧
  (∀ i < m.ras.length, m.ras[m.ras.length - 1 - i]? = some (w (0x998 + 8 * i))) ∧
  (∀ i : Fin 4, m.dist[i] = w (0xa18 + 8 * i.val)) ∧ m.work = w 0xa38 ∧
  (bits status 5 0 = 0 → m.pendingTrap = none) ∧
  (bits status 5 0 ≠ 0 → ∃ x, m.pendingTrap = some x ∧ x.1.cause = causeOf (bits status 5 0) ∧ x.1.tval = w 0x990)

/-- Memory holds the core part of a core's image at a (17 Table 17.2): windows and their records, barriers, divider, heartbeat timer and
cycle count. -/
def CoreImaged (s : State) (a : Nat) (c : Core) : Prop :=
  let r (off n : Nat) : Nat := s.read (a + 45056 + off) n
  (∀ i : Fin 8, r (8 * i.val) 8 = (c.wins[i]).word.toNat ∧ r (0x40 + 128 * i.val) 128 = (c.wins[i]).record.toNat) ∧
    (∀ i : Fin 4, r (0x440 + 8 * i.val) 8 = (c.bgs[i]).word.toNat) ∧ r 0x4b8 8 = c.hbTimer % 2 ^ 64 ∧ r 0x4c0 8 = c.cycles % 2 ^ 64

/-- What a context holds that its image has room for (04 R110, 11 R260, 13 R303, R306). -/
def ImageFits (m : Context) : Prop :=
  m.ras.length ≤ 16 ∧ m.batches.length ≤ 16 ∧ m.mailbox.length ≤ 4 ∧ m.groups.length ≤ 4 ∧ ∀ x, m.pendingTrap = some x → x.1.cause ≠ .none

/-- 17 R341 to R344: a quiescent core that is halted is saved: the image of every live context, the core part and the CRC are in memory. -/
def Saves : Prop :=
  ∀ (s : State) (k : CoreId) (p : Nat),
    let c := s.core k
    let a := s.imageAddr p k
    Memory.wf s = true → s.owner k = some p → c.saveWanted = true → c.status = .halted → s.quiescent k = true →
    Completes s (.coreSave k) fun t => (t.core k).status = .saved ∧ (t.core k).saveWanted = false ∧ (∀ i, t.ctx i = s.ctx i) ∧
      (coreValid k = true → s.supervised p = false → s.inRange p a 49152 = true → (∀ b ∈ s.badRegs, b.1.core ≠ k) →
        (∀ i ∈ c.live, ImageFits c.ctxs[i]) →
        (∀ j l, c.job = some j → s.launch? j.launch = some l → ∀ e ∈ l.ranks, e.ctx.core ≠ k) →
        t.imageGood p k = true ∧ CoreImaged t a c ∧ ∀ i ∈ c.live, Imaged t (a + 4096 * i.val) c.ctxs[i])

/-- 17 R345, R346: a saved core whose image is good goes on at another core of its launch that runs nothing: its contexts have the
registers of the image, its local memory is at the new place and zero at the old. -/
def Moves : Prop :=
  ∀ (s : State) (k k' : CoreId) (p : Nat),
    let c := s.core k
    let a := s.imageAddr p k
    Memory.wf s = true → s.owner k = some p → c.status = .saved ∨ c.status = .off → s.canTake k k' = true → s.copiesDone k = true →
    s.slotsClash k k' = false → s.imageGood p k = true → c.deque = [] →
    Completes s (.contextMove k k') fun t =>
      (t.core k).status = .idle ∧ (∀ i : Fin 11, ((t.core k).ctxs[i]).live = false) ∧ (t.core k').job = c.job ∧
      (∀ i : Fin 11, ((t.core k').ctxs[i]).live = (c.ctxs[i]).live) ∧
      (c.transfer = none → (∀ n : Fin 4, (c.bgs[n]).state = 0 ∧ (c.bgs[n]).broken = false) →
        (∀ i : Fin 11, bits (s.read (a + 4096 * i.val + 0x988) 8) 11 11 = 1 → Imaged s (a + 4096 * i.val) (t.core k').ctxs[i]) ∧
        ((s.core k').requested = false → c.forcedPark = false → c.live ≠ [] → (t.core k').status = .running)) ∧
      (k.big = false → coreValid k = true → coreValid k' = true → ∀ o < 2 ^ 19,
        t.byte (localAddr k' o) = s.byte (localAddr k o) ∧ t.byte (localAddr k o) = 0)

end Sys2Proof.Claims

/-- 17 R339 to R354, 20 R391, 12 R281: a pre-emption request brings its core to divider 1 and to a halt; a quiescent core is
saved; its image goes on at another core; a shootdown request is taken, and completes once nothing uses its range, with every
translation of it gone; a core that misses its heartbeat is fenced, and may be re-homed or abort its launch. What an image does not hold
goes on as the engines and the network have left it (log 52), barrier registers keep their tokens (log 46), and an abort discards what
its cores had on the way (log 82): the model's readings. -/
def Obligations.PreemptionEvents : Prop :=
  Sys2Proof.Claims.Saves ∧ Sys2Proof.Claims.Moves ∧
  ∀ (s : State) (k k' : CoreId) (p : Nat),
    let c := s.core k
    (c.requested = true → c.status = .running → c.parkedSince = none → c.transfer = none → Completes s (.preemptionRequest k) fun t =>
      t = { s with cores := t.cores } ∧
      t.core k = { c with status := .halting, dividerKept := c.divider, divider := 1 } ∧
      ∀ m, m ≠ k → t.core m = s.core m) ∧
    (c.status = .halting → c.transfer = none → c.forcedPark = false → s.timedNow k = false → s.startsNow k = false →
      Completes s (.coreHalt k) fun t =>
        t.core k = { c with status := .halted } ∧ t.mem = s.mem ∧ ∀ m, m ≠ k → t.core m = s.core m) ∧
    (∀ r rest, (s.part p).requests = r :: rest → r.bad = false → s.usesRange p r = false →
      Completes s (.shootdownComplete p) fun t => (t.part p).requests = rest ∧ (t.part p).donen = (s.part p).donen + 1 ∧
        t.mem = s.mem ∧ (∀ m, s.owner m = some p → ∀ e ∈ (t.core m).tlb, r.meets e.page (2 ^ e.log) = false) ∧
        ∀ h, (s.hive h).owner = some p → (∀ e ∈ (t.hive h).tlb, r.meets e.page (2 ^ e.log) = false) ∧
          ∀ e ∈ (t.hive h).ptrs, r.meetsPtr e = false) ∧
    (∀ w ws x a, s.portWriters p = w :: ws → Waits s w (.stp x) → x.form.active (s.ctx w) = true → s.owner w.core = some p →
      (s.part p).sdport = a → inPort a = true →
      (addrM x 16 (s.ctx w)).toNat % 16 = 0 → s.resolve w.core (s.ctx w).sup .store (addrM x 16 (s.ctx w)).toNat = .ok a →
      (s.part p).requests.length < 16 → Completes s (.shootdownRequest p) fun t =>
        (t.part p).reqn = (s.part p).reqn + 1 ∧ (t.ctx w).blocked = none ∧ (∃ r, (t.part p).requests = (s.part p).requests ++ [r] ∧
          r.va = bits ((s.ctx w).getS x.d).toNat 56 14 * 2 ^ 14 ∧ r.npg = bits ((s.ctx w).getS (x.d + 1)).toNat 31 0 ∧
          r.all = ((s.ctx w).getS x.d).getLsbD 0 ∧ r.by_ = w)) ∧
    (c.status = .running → c.hbMissed = true → k.big = false → Completes s (.heartbeatMiss k) fun t =>
      (t.core k).status = .fenced) ∧
    (∀ j l since, c.job = some j → s.launch? j.launch = some l → c.holdSince = some since → c.fencing = true →
      c.saveWanted = true → s.quiescent k = false → since + 1000000 ≤ s.refCount → Completes s (.fenceQuiescenceTimeout k) fun t =>
        t.launch? j.launch = none) ∧
    (∀ j l gs, c.job = some j → s.owner k = some p → s.launch? j.launch = some l → c.fencing = true → c.saveWanted = false →
      s.copiesDone k = true → k.big = k'.big → k ≠ k' → s.slotsClash k k' = false → s.imageGood p k = true →
      s.rescueUnit p l j.stage k' = some gs → k ∉ coresOf gs →
      Completes s (.fenceRehome k k') fun t => (t.core k).status = .fenced ∧ (t.core k).fencing = false ∧
        (t.core k').job = some j ∧ (t.core k').deque = c.deque ∧ ∀ i : Fin 11, ((t.core k').ctxs[i]).live = (c.ctxs[i]).live)

/-- 18 R363 to R379: a frame addressed to the module is counted, and a valid one is an evaluation: the settings written before it come in
force and it sets the telemetry values; LOSS ticks without one enter loss mode; A rises by one class; a class hold that is FSB old
pre-empts its group; a parked core is switched off after 2,000,000 ticks and on again once its class is restored; dividers, segment
levels and the droop detector follow their rules. The model's choices and readings: which frames the port takes (log 77), TGT = A = 8 at
a valid frame with EN = 0 (log 89), frames ignored while any partition replays (log 91), a big core's switch-off (log 93), when the
detector trips and which of the 64 cycles issue (log 123). -/
def Obligations.PowerEvents : Prop :=
  ∀ (s : State) (k : CoreId) (g : SegId) (f : BitVec 320),
    let w := s.power
    let c := s.core k
    let byte (i : Nat) : Nat := bits f.toNat (8 * i + 7) (8 * i)
    let field (i : Nat) : Nat := byte i * 2 ^ 24 + byte (i + 1) * 2 ^ 16 + byte (i + 2) * 2 ^ 8 + byte (i + 3)
    (∀ dest ether, dest ≠ Config.macAddress ∨ ether ≠ 0x88B5 → exec (.telemetryFrame ⟨dest, ether, f⟩) s = .next s) ∧
    (s.replaying = false → Completes s (.telemetryFrame ⟨Config.macAddress, 0x88B5, f⟩) fun t => t.power.frames = w.frames + 1 ∧
      (if w.frameValid f then t.power.seq = some (BitVec.ofNat 32 (field 4)) ∧ t.power.freq = field 8 ∧ t.power.vbus = field 12 ∧
        t.power.loss = false ∧ t.power.lastValid = s.refCount ∧ t.power.invalid = w.invalid ∧
        (let z := { w with cfg := w.written.cfg, curve := w.written.curve }
         t.power.cfg = z.cfg ∧ t.power.curve = z.curve ∧ t.power.time = w.written.time ∧ t.power.dvcfg = w.written.dvcfg ∧
         t.power.next = none ∧
         if z.cfg.getLsbD 63 then t.power.target = z.targetOf (z.evaluate (field 8) (field 12)) ∧
          t.power.active = min w.active t.power.target else t.power.target = 8 ∧ t.power.active = 8)
       else t = { s with power := { w with frames := w.frames + 1, invalid := w.invalid + 1 } })) ∧
    (w.loss = false → s.replaying = false → w.lastValid + bits w.time.toNat 63 32 ≤ s.refCount →
      Completes s .telemetryLoss fun t => t.power.loss = true ∧
        t.power.target = (if w.cfg.getLsbD 63 then min w.target (bits w.cfg.toNat 61 59 + 1) else w.target) ∧
        t.power.active = min w.active t.power.target) ∧
    (w.active < w.target → w.changed + 2000000 ≤ s.refCount → s.replaying = false → Completes s .activeCountRise fun t =>
      t.power.active = w.active + 1 ∧ t.power.changed = s.refCount) ∧
    (∀ since, coreValid k = true → c.holdSince = some since → c.status = .running → c.parkedSince = none → c.transfer = none →
      (∃ i ∈ c.live, s.shed c.ctxs[i] = true) → since + bits w.time.toNat 31 0 ≤ s.refCount → Completes s (.forcedShed k) fun t =>
        (t.core k).status = .halting ∧ (t.core k).forcedPark = true ∧ (t.core k).divider = 1 ∧
        (∀ i, i.core = k → t.ctx i = s.ctx i) ∧
        ((∀ m ∈ (groupOf k).cores, (s.core m).status ≠ .halted) → t.mem = s.mem ∧ ∀ i, t.ctx i = s.ctx i)) ∧
    (∀ since p, c.parkedSince = some since → s.owner k = some p → since + 2000000 ≤ s.refCount → s.quiescent k = true →
      (k.big = true → s.guestsGone (coreHive k) = true) → c.status = .saved ∨ c.status = .running → c.deque = [] →
      Completes s (.parkedSwitchOff k) fun t => (t.core k).status = .off) ∧
    (∀ p, s.waitsOn k c = true → s.owner k = some p → ((s.die k.die).switchOns.filter fun t => decide (s.refCount < t + 1000)).length < 96 →
      (∀ e ∈ s.cores, e.1.die = k.die → placeKey e.1 < placeKey k → s.waitsOn e.1 e.2 = false) → s.imageGood p k = true →
      Completes s (.coreSwitchOn k) fun t => (t.core k).status ≠ .off ∧ (t.core k).status ≠ .saved ∧
        (t.die k.die).switchOns.head? = some s.refCount) ∧
    (k.big = false → c.status = .running → c.transfer = none → 16000 ≤ c.windowTicks →
      Completes s (.dividerWindowEnd k) fun t =>
        let total := c.sensB + c.sensK + c.sensM
        let sens := if total = 0 then 0 else 256 * (c.sensB + c.sensK) / total
        let n := if w.cfg.getLsbD 62 = false then 1
          else if sens < bits w.dvcfg.toNat 15 8 ∧ c.divider < bits w.dvcfg.toNat 2 0 + 1 then c.divider + 1
          else if bits w.dvcfg.toNat 23 16 ≤ sens ∧ 1 < c.divider then c.divider - 1 else c.divider
        t = { s with cores := t.cores } ∧ (∀ m, m ≠ k → t.core m = s.core m) ∧
        t.core k = { c with
          sensB := 0, sensK := 0, sensM := 0, windowTicks := 0
          divider := if n < c.divider then c.divider else n
          dividerNext := if n < c.divider then some n else none }) ∧
    (Completes s (.segmentVoltageReached g) fun t => (t.segment g).level = s.segTarget g ∧ t.mem = s.mem ∧
      (∀ i, t.ctx i = s.ctx i) ∧ ∀ m, (t.core m).divider = (s.core m).divider ∨
        (m ∈ segCores g ∧ (s.core m).dividerNext = some (t.core m).divider ∧ levelOf (t.core m).divider ≤ s.segTarget g)) ∧
    ((s.segment g).ddctl.getLsbD 63 = true → Completes s (.droopTrip g) fun t =>
      bits (t.segment g).ddctl.toNat 47 32 = min (bits (s.segment g).ddctl.toNat 47 32 + 1) 65535 ∧
      bits (t.segment g).ddctl.toNat 31 0 = bits (s.segment g).ddctl.toNat 31 0 ∧
      ((∀ m ∈ segCores g, (s.core m).transfer = none) → ∀ m ∈ segCores g,
        (t.core m).droop = some (s.core m).cycles) ∧
      ((∃ m ∈ segCores g, (s.core m).transfer ≠ none) → t.cores = s.cores)) ∧
    ∀ since, c.droop = some since → since + 71 ≤ c.cycles → Completes s (.droopRecovery k) fun t =>
      t.core k = { c with droop := none } ∧ ∀ m, m ≠ k → t.core m = s.core m

/-- 20 R384 to R394, 21 R402, R403: an error is logged, and its class decides what follows; fatal events keep a dump of their
cause and stop every launch; lanes and links fail; a replay that makes no progress aborts its launch and reports the next unapplied
entry; a module reset clears everything but the flash, the fuses and the module dump, and raises the rollback value to a staged copy that
verifies. The model's choices and readings: a clean copy logged with class 0 (log 64, where Table 20.4 has a class 1), what WHERE names
(log 53), cause 2 for a unit above 10 (log 55), what survives a reset (log 72) and that a module fatal error keeps the partitions (log
73). -/
def Obligations.ErrorsAndReset : Prop :=
  ∀ (s : State) (die unit pos : Nat) (d : Dir) (c : CtxId) (x : Dest),
    let stops (i : Instr) (cause : Nat) : Prop := Completes s i fun t => t.launches = [] ∧ t.fw.staged = s.fw.staged ∧
      ∃ e ∈ t.fw.dumps, e.part = none ∧ e.cause = cause ∧ e.time = s.now
    let logged (i : Instr) (cls : Nat) (P : State → Prop) : Prop := Completes s i fun t => LoggedLast t die cls unit pos ∧ P t
    let block : Nat := if unit = 3 then 8 * 2 ^ 60 else if unit = 0 then 10 * 2 ^ 60 else 0
    (unit < 2 ^ 6 → pos < 2 ^ 49 →
      logged (.errorDetected die .corrected unit pos none) 0 (fun t => t = { s with dies := t.dies }) ∧
      (logged (.errorDetected die .cleanCopy unit pos none) 0 fun t => t.mem = s.mem ∧ ∀ m, t.ctx m = s.ctx m) ∧
      (unit ≠ 2 → unit ≠ 9 → ∀ b, s.logicPlace (block + pos * 256) = some b →
        (logged (.errorDetected die .consumed unit pos none) 2 fun t => ∃ j < 4, ∀ i < 64, b + 64 * j + i ∈ t.poisoned) ∧
        logged (.errorDetected die .latent unit pos none) 3 fun t => ∃ j < 4, ∀ i < 64, b + 64 * j + i ∈ t.poisoned) ∧
      (∀ p, (s.part p).live = true → Completes s (.errorDetected die .orphaned unit pos (some p)) fun t =>
        (t.part p).outOfUse = true ∧ (∀ e ∈ t.launches, e.2.part ≠ p) ∧
        ∃ e ∈ t.fw.dumps, e.part = some p ∧ e.cause = if unit ≤ 10 then 1 else 2)) ∧
    stops (.errorDetected die .moduleWide unit pos none) 3 ∧ stops (.thermalTrip die) 6 ∧ stops .managementWatchdog 5 ∧
    (∀ k, coreValid c.core = true → x ≠ .s 0 → s.logicCore c.core = some k →
      Completes s (.errorDetected die .consumed 2 (coreIdBits c * 256 + x.code) none) fun t =>
        t.badRegs = ({ c with core := k }, x) :: s.badRegs ∧ t.cores = s.cores) ∧
    (Completes s (.linkLaneFailure die d) fun t => t = { s with dies := t.dies } ∧
      lookup Link.reset d (t.die die).links =
        { lookup Link.reset d (s.die die).links with failed := (lookup Link.reset d (s.die die).links).failed + 1 }) ∧
    (Completes s (.linkDown die d) fun t => (lookup Link.reset d (t.die die).links).down = true) ∧
    (∀ j l, s.launch? j = some l → (s.part l.part).rmode = 2 → s.waitsOnReplay l.part = true →
      (s.part l.part).lastApplied + (s.part l.part).replayTo ≤ s.refCount → Completes s (.replayDivergence l.part j) fun t =>
        t.launch? j = none ∧ (s.fw.heldEvents = [] → s.fw.room = true → ∃ e, t.fw.events.getLast? = some e ∧
          bits e.toNat 7 0 = 3 ∧ ∀ i w, s.nextEntry l.part isApplied = some (i, w) → bits e.toNat 511 64 = w % 2 ^ 448)) ∧
    Completes s .moduleReset fun t => t.mem = [] ∧ t.cores = [] ∧ t.hives = [] ∧ t.parts = [] ∧ t.launches = [] ∧
      t.refCount = 0 ∧ t.dieCycle = 0 ∧ t.fw.copyA = s.fw.copyA ∧ t.fw.copyB = s.fw.copyB ∧ s.fw.rollback ≤ t.fw.rollback ∧
      (s.fw.staged = true → s.fw.validCopy s.fw.other = true → Config.selfTest s.free = true →
        blockCounter s.fw.other.block ≤ t.fw.rollback) ∧
      t.fw.dumps = s.fw.dumps.filter (fun e => e.part.isNone) ∧ (t.fw.ready = false → 1 ≤ t.fw.stage ∧ t.fw.stage ≤ 5) ∧
      (t.fw.ready = true → t.fw.stage = 6)

/-- 21 R395 to R397, 20 R394, 02 R30, R45, 08 R206: what reaches the machine from outside: register writes, memory requests of the
host, accesses at a local memory's port, packets of a replay; and the traps of words that cannot be decoded or fetched. The model's
choices and readings: MBCP is stored clamped (log 9), host requests name physical addresses, and a faulty one is answered with nothing
(log 74), when a replay's counts and packets come in (log 75), and reserved bits of MBCQ and MBEQ ignored (log 100). -/
def Obligations.OutsideAccesses : Prop :=
  ∀ (s : State) (k : CoreId) (n a : Nat) (v : Word) (bytes : List Byte),
    let quiet (i : Instr) (P : State → Prop) : Prop := Completes s i fun t => t = { s with fw := t.fw } ∧ P t
    (quiet (.mbec (v.extractLsb' 0 32)) fun t => t.fw.mbec = v.extractLsb' 0 32 ∧
      (s.fw.heldEvents = [] → t.fw = { s.fw with mbec := v.extractLsb' 0 32 })) ∧
    (quiet (.mmioRegisterWrite .mbcp v) fun t =>
      let ring := 16 * 2 ^ min (bits s.fw.mbcq.toNat 3 0) 8
      t.fw = { s.fw with mbcp := if ring < (v.extractLsb' 0 32 - s.fw.mbcc).toNat then s.fw.mbcc + BitVec.ofNat 32 ring
                                 else v.extractLsb' 0 32 }) ∧
    (quiet (.mmioRegisterWrite .mbcq v) fun t => t.fw = { s.fw with mbcq := v &&& ~~~0xff0#64 }) ∧
    (quiet (.mmioRegisterWrite .mbeq v) fun t => t.fw = { s.fw with mbeq := v &&& ~~~0xff0#64 }) ∧
    (∀ r ∈ [MmioReg.mbcc, .mbep, .mbst], quiet (.mmioRegisterWrite r v) fun t => t = s) ∧
    ((∀ e ∈ s.fw.vf, e.1 ≠ n) →
      (quiet (.hostMemoryRequest n a (.read bytes.length)) fun t =>
        t.fw = { s.fw with sent := s.fw.sent ++ [(none, List.replicate bytes.length 0)] }) ∧
      quiet (.hostMemoryRequest n a (.write bytes)) fun t => t = s) ∧
    (∀ p l, (s.fw.vf.find? fun e => e.1 == n) = some (n, p) → s.inRange p a bytes.length = true → populated a bytes.length = true →
      l ∈ linesOf a bytes.length → (s.entry (homeDie (128 * l)) l).state = .busy →
      exec (.hostMemoryRequest n a (.read bytes.length)) s = .next s ∧ exec (.hostMemoryRequest n a (.write bytes)) s = .next s) ∧
    (∀ p, (s.fw.vf.find? fun e => e.1 == n) = some (n, p) → s.inRange p a bytes.length = true → populated a bytes.length = true →
      (∀ l ∈ linesOf a bytes.length, (s.entry (homeDie (128 * l)) l).state ≠ .busy) →
      (Sound s a bytes.length → Completes s (.hostMemoryRequest n a (.read bytes.length)) fun t => t.mem = s.mem ∧
        t.fw = { s.fw with sent := s.fw.sent ++ [(none, (List.range bytes.length).map fun i => s.byte (a + i))] }) ∧
      (¬ Sound s a bytes.length → Completes s (.hostMemoryRequest n a (.read bytes.length)) fun t => t.mem = s.mem ∧ t.fw = s.fw) ∧
      (Memory.wf s = true → Completes s (.hostMemoryRequest n a (.write bytes)) fun t => ∀ b, t.byte b =
        if a ≤ b ∧ b < a + bytes.length then bytes.getD (b - a) 0 else s.byte b)) ∧
    (Memory.wf s = true → k.big = false → (s.core k).status ≠ .fenced → n + bytes.length ≤ 2 ^ 19 → Completes s (.localMemoryPortAccess k n false (.write bytes)) fun t =>
      ∀ b, t.byte b = if localAddr k n ≤ b ∧ b < localAddr k n + bytes.length then bytes.getD (b - localAddr k n) 0 else s.byte b) ∧
    Completes s (.localMemoryPortAccess k n false (.read bytes.length)) (· = s) ∧
    (∀ i e, (s.part n).rmode = 2 → s.nextEntry n (fun e => recType e == 11) = some (i, e) → bits e 255 192 ≤ s.now →
      Completes s (.replayInject n) fun t => t.power.active = recPayload e) ∧
    (∀ i e, (s.part n).rmode = 2 → (∀ x, s.nextEntry n (fun e => recType e == 11) = some x → s.now < bits x.2 255 192) →
      s.nextEntry n (fun e => recType e == 1) = some (i, e) →
      let q := bits (s.recordedPacket n i).toNat 23 18
      (lookup [] q (s.part n).queues).length < 256 → Completes s (.replayInject n) fun t =>
        lookup [] q (t.part n).queues = lookup [] q (s.part n).queues ++
          [{ packet := s.recordedPacket n i, source := .doorbell }] ∧ (t.part n).rhead = (s.part n).rhead + 1) ∧
    (s.me.tinh = false →
      (∀ word len, Traps s (.illegalEncoding word len) .illegal (word.setWidth 64) len) ∧
      ∀ access, Completes s (.instructionFetchFault access v) fun t =>
        t.me = { s.me with
          tpc := s.me.pc, tval := v, tcode := if access then 5 else 4, tlen := 0, tpm := s.me.sup, sup := true, tinh := true
          pc := s.me.tvec, blocked := none, spec := s.me.spec.map fun e => { e with valid := false } } ∧ t.mem = s.mem)

namespace Sys2Proof.Claims

/-- Nerdigar takes a command: one waits, the event ring has room, boot is done, and no reserved bit is set (21 R396, R398). -/
def Ready (s : State) (c : Cmd) : Prop := s.fw.takesCommand = true ∧ s.fw.ready = true ∧ c.reserved = false

/-- The newest event is the completion of a command with a status and data, and MBCC has moved on (21 R396, Table 21.3). -/
def Answered (s t : State) (c : Cmd) (status data : Nat) : Prop :=
  t.fw.mbcc = s.fw.mbcc + 1 ∧ ∃ e, t.fw.events.getLast? = some e ∧ bits e.toNat 7 0 = 1 ∧ bits e.toNat 15 8 = status ∧
    bits e.toNat 47 32 = c.tag.toNat ∧ bits e.toNat 511 64 = data

/-- The bytes of an answer left the module last. -/
def Replied (t : State) (request : Nat) (covers : List Byte) : Prop :=
  t.fw.sent.getLast? = some (none, Config.reply request covers)

/-- The bytes of an answer left the module last in clear, behind what frames them. -/
def Clear (t : State) (request : Nat) (bs : List Byte) : Prop :=
  t.fw.sent.getLast? = some (none, Config.reply request bs ++ bs)

/-- A key slot of a die. -/
def keySlot (s : State) (die slot : Nat) : KeySlot := lookup KeySlot.reset slot (s.die die).keys

end Sys2Proof.Claims

/-- 21 R396, R398, R399, Table 21.4, 17 R355 to R360: the commands on partitions, units, ranges, keys and functions, where no check
refuses them. The statuses of the checks and what a destroyed partition leaves bound are logs 57 and 66, the units of a partition out of
use log 118, the key material of the default slots log 59 and the lines that follow a key log 122. PART_RELEASE and PART_DESTROY run
from one occurrence to a second, so that what is discarded in between (R399) can be seen: the first answers nothing, and that is the
model's own form (logs 67, 71). How many sources a partition can register is the hardware's (Config.fabricSlots, log 66). -/
def Obligations.PartitionCommands : Prop :=
  ∀ (s : State) (c : Cmd), Ready s c →
    let p := c.part
    let q := s.part p
    let done (i : Instr) (P : State → Prop) : Prop := Completes s i fun t => Answered s t c 0 0 ∧ t.mem = s.mem ∧ P t
    let going : State := { s with fw := { s.fw with changing := some c } }
    let changes (i : Instr) (P : State → Prop) : Prop := Completes s i (fun t => t = going) ∧
      Completes going i fun t => Answered s t c 0 0 ∧ t.fw.changing = none ∧ P t
    (∀ a : PartArgs, q.live = false → a.ptroot % 8192 = 0 → a.ptroot < 2 ^ 57 → a.nqbase % 128 = 0 → a.nqbase < 2 ^ 57 →
      4 ≤ a.nql → a.nql ≤ 12 → a.sdport % 128 = 0 → 2 ^ 52 ≤ a.sdport → a.sdport < 2 ^ 57 → a.pdump < 2 ^ 57 →
      done (.partCreate c a) fun t => (t.part p).live = true ∧ (t.part p).ptroot = a.ptroot ∧ (t.part p).nqbase = a.nqbase ∧
        (t.part p).nql = a.nql ∧ (t.part p).sdport = a.sdport ∧ (t.part p).fpol = a.fpol ∧ (t.part p).pdump = a.pdump ∧
        (t.part p).queues = [] ∧ t.hives = s.hives) ∧
    (q.live = true → Completes s (.partCreate c { ptroot := 0, nqbase := 0, nql := 4, sdport := 2 ^ 52, fpol := false, pdump := 0 })
      fun t => Answered s t c 3 0 ∧ t.parts = s.parts) ∧
    (∀ die i, q.live = true → q.outOfUse = false → i < 576 → die < 36 → s.hiveAbsent (hiveOf die i) = false →
      (s.hive (hiveOf die i)).owner = none ∨ (s.hive (hiveOf die i)).owner = some p →
      done (.partAssign c die .hive [i]) fun t => (t.hive (hiveOf die i)).owner = some p ∧ (t.part p).armed = true ∧
        ∀ h, h ≠ hiveOf die i → t.hive h = s.hive h) ∧
    (∀ die i, q.live = true → q.outOfUse = false → i < 576 → die < 36 → (s.hive (hiveOf die i)).owner = some p →
      (∀ k ∈ hiveCores (hiveOf die i), (s.core k).job = none) → Memory.wf s = true →
      changes (.partRelease c die .hive [i]) fun t => t.hive (hiveOf die i) = Hive.reset ∧
        (∀ j < 32, ∀ o < 2 ^ 19, t.byte (localAddr (littleCore (hiveOf die i) j) o) = 0) ∧
        ∀ k ∈ hiveCores (hiveOf die i), ∀ n : Fin 11, ((t.core k).ctxs[n]) = Context.reset) ∧
    (q.live = true → s.ownsSome p = false → changes (.partDestroy c) fun t =>
      t.part p = Partition.reset ∧ (∀ e ∈ t.fw.vf, e.2 ≠ p) ∧ t.mem = s.mem ∧ t.hives = s.hives) ∧
    (q.live = true → s.ownsSome p = true → Completes s (.partDestroy c) fun t => Answered s t c 3 0 ∧ t.parts = s.parts) ∧
    (∀ (sup : BitVec 32) (seed : Word), q.live = true →
      done (.partSet c { imgbase := [], supervisor := some sup, seed := some seed, l2split := [] }) fun t =>
        t.part p = { q with supervisor := some sup, lottery := if seed = 0 then 1 else seed }) ∧
    (∀ vf, q.live = true → 1 ≤ vf → vf ≤ 64 → (∀ e ∈ s.fw.vf, e.1 = vf → e.2 = p) → done (.vfBind c vf true) fun t =>
      lookup 64 vf t.fw.vf = p ∧ ∀ n, n ≠ vf → lookup 64 n t.fw.vf = lookup 64 n s.fw.vf) ∧
    (∀ sources, q.live = true → sources.length ≤ 6 → Completes s (.fabricAllow c sources) fun t =>
      if Config.fabricSlots < ((q.fabric ++ sources).eraseDups).length then Answered s t c 5 0 ∧ t.parts = s.parts
      else Answered s t c 0 0 ∧ ∀ a, a ∈ (t.part p).fabric ↔ a ∈ q.fabric ∨ a ∈ sources) ∧
    (∀ die n v, q.live = true → n < 16 → die < 36 → s.breaksRange p die n v = false → Completes s (.krangeSet c die n v) fun t =>
      Answered s t c 0 0 ∧ t = { s with dies := t.dies, mem := t.mem, poisoned := t.poisoned, fw := t.fw } ∧
        (let r := lookup 0 n (t.die die).krange
         bits r.toNat 127 85 = bits v.toNat 127 85 ∧ bits r.toNat 84 64 = 0 ∧ bits r.toNat 63 58 = bits v.toNat 63 58 ∧
           bits r.toNat 57 57 = 0 ∧ bits r.toNat 56 21 = bits v.toNat 56 21 ∧ bits r.toNat 20 0 = 0) ∧ ∀ m, m ≠ n → lookup 0 m (t.die die).krange = lookup 0 m (s.die die).krange) ∧
    (∀ die slot, slot < 64 → (keySlot s die slot).state = .empty ∨ (keySlot s die slot).part = some p →
      (∀ r ∈ (s.die die).krange, bits r.2.toNat 127 127 = 1 → bits r.2.toNat 126 121 = p → bits r.2.toNat 63 58 ≠ slot) →
      done (.keyZeroise c [die] slot) fun t => keySlot t die slot = KeySlot.reset)

/-- 21 R396 to R399, R402, R403, 20 R388 to R392: the commands on cores, launches, power, records, errors, dumps and the
configuration, where no check refuses them. A query answers with its value; what verifies only by a key or a test of the
hardware is done where it does, and answers its STATUS where not. Settings of power control come in force at the next evaluation. Where
the fields of INFO and PWR_QUERY stand in DATA is log 58, that a hive's repair is one step, taken when its cores can be saved, log 68,
that FENCE_CLEAR is a test the model leaves open log 69, status 2 for a die that is none log 57, how a dump is read log 70, what RESTORE names log 96,
and reserved bits log 100. -/
def Obligations.ManagementCommands : Prop :=
  ∀ (s : State) (c : Cmd), Ready s c →
    let p := c.part
    let w := s.power
    let done (i : Instr) (P : State → Prop) : Prop := Completes s i fun t => Answered s t c 0 0 ∧ P t
    (Completes s (.info c) fun t => t = { s with fw := t.fw } ∧ ∃ data, Answered s t c 0 data ∧ bits data 5 0 = 1 ∧ bits data 11 6 = 36 ∧
      (∀ d < 36, bits data (5 * d + 16) (5 * d + 12) = min 24 (s.die d).spareHives.length) ∧
      bits data 447 192 = (digest Config.identityKey).toNat) ∧
    (∀ k save, s.owner k = some p → done (.preempt c [k] save) fun t => (t.core k).requested = true ∧
      (t.core k).saveWanted = ((s.core k).saveWanted || save) ∧ (∀ m, m ≠ k → t.core m = s.core m) ∧ ∀ i, t.ctx i = s.ctx i) ∧
    (∀ j l, (s.launches.find? fun e => e.2.part == p && e.2.hdr 63 32 == bits l.packet.toNat 63 32) = some (j, l) →
      done (.abort c (BitVec.ofNat 32 (bits l.packet.toNat 63 32))) fun t => t.launch? j = none) ∧
    (∀ k, s.owner k = some p → (s.core k).status = .halted → (s.core k).transfer = none →
      (∀ i ∈ (s.core k).live, s.shed (s.core k).ctxs[i] = false) → done (.restore c [k]) fun t =>
      (t.core k).requested = false ∧ (t.core k).status = if (s.core k).live = [] then .idle else .running) ∧
    (∀ cfg time dvcfg ddctl, bits time.toNat 31 0 ≤ 480000 → bits dvcfg.toNat 15 8 < bits dvcfg.toNat 23 16 →
      done (.pwrSet c cfg time dvcfg ddctl) fun t => t = { s with fw := t.fw, power := { w with next := some { w.written with
        cfg := pwrcfgWrite cfg, time := time, dvcfg := dvcfgWrite dvcfg, ddctl := w.written.ddctl ++ ddctl } } }) ∧
    (∀ curve : Vector Word 8, (∀ i : Fin 8, bits (curve[i]).toNat 59 48 = 0) → done (.curveSet c curve) fun t =>
      t = { s with power := { w with next := some { w.written with curve := curve } }, fw := t.fw }) ∧
    (Completes s (.pwrQuery c) fun t => t = { s with fw := t.fw } ∧ ∃ data, Answered s t c 0 data ∧
      (w.active < 256 → w.target < 256 → bits data 7 0 = w.active ∧ bits data 15 8 = w.target ∧ bits data 16 16 = w.loss.toNat ∧
        bits data 127 64 = w.frames % 2 ^ 64 ∧ bits data 191 128 = w.invalid % 2 ^ 64)) ∧
    (∀ mode base size dest, (s.part p).live = true → mode ≠ 3 → base < 2 ^ 57 → size < 2 ^ 32 → dest < 2 ^ 32 →
      done (.recSet c mode base size dest) fun t => t.part p = { s.part p with recNext := some (mode, base, size, dest) } ∧ t.mem = s.mem) ∧
    (Completes s (.recQuery c) fun t => t = { s with fw := t.fw } ∧ Answered s t c 0 ((s.part p).rhead % 2 ^ 64)) ∧
    (∀ die dst, die < 36 → Completes s (.errlogRead c die dst) fun t => t.mem = s.mem ∧ t.cores = s.cores ∧
      if Config.hostFaults s.free then Answered s t c 7 0 ∧ t.fw.sent = s.fw.sent
      else Answered s t c 0 0 ∧ ∃ bytes, t.fw.sent = s.fw.sent ++ [(some dst, bytes)] ∧
        bytes.length = 16 * (s.die die).errlog.length) ∧
    (∀ h n rest, h.die < 36 → (s.die h.die).spareHives = n :: rest →
      (s.repairReady (hiveCores h) = false → exec (.repairHive c h) s = .next s) ∧
      (s.repairReady (hiveCores h) = true → s.hiveFaulty h = none → (∀ k ∈ hiveCores h, (s.core k).live = [] ∧
        (s.core k).busy = false ∧ (s.core k).status ≠ .fenced) → done (.repairHive c h) fun t =>
        (remapOf (t.die h.die).hremap (hiveIndex h)).phys = n ∧ (remapOf (t.die h.die).hremap (hiveIndex h)).abs = false ∧ t.mem = s.mem) ∧
      (∀ a, s.repairReady (hiveCores h) = true → s.hiveFaulty h = some a → Memory.wf s = true → done (.repairHive c h) fun t =>
        (t.die h.die).hremap = (s.die h.die).hremap ∧ ∀ j < 32, ∀ o < 2 ^ 19, t.byte (localAddr (littleCore h j) o) = 0)) ∧
    (∀ h, 36 ≤ h.die → Completes s (.repairHive c h) fun t => Answered s t c 2 0 ∧ t = { s with fw := t.fw }) ∧
    (∀ k, 36 ≤ k.die → Completes s (.fenceClear c k) fun t => Answered s t c 2 0 ∧ t.cores = s.cores) ∧
    (∀ k, k.die < 36 → (s.core k).status = .fenced → (s.core k).fencing = false → Completes s (.fenceClear c k) fun t =>
      if Config.selfTest s.free then Answered s t c 0 0 ∧ (t.core k).status = .idle
      else Answered s t c 6 0 ∧ (t.core k).status = .fenced) ∧
    (∀ d dst len, (s.fw.dumps.find? fun e => e.part == none) = some d → done (.dumpRead c .module dst len) fun t =>
      t.fw.sent = s.fw.sent ++ [(some dst, d.bytes.take len)] ∧ t.fw.dumps = s.fw.dumps) ∧
    (∀ d, (s.fw.dumps.find? fun e => e.part == some p) = some d → done (.dumpDiscard c (.partition p)) fun t =>
      (∀ e ∈ t.fw.dumps, e.part ≠ some p) ∧ (t.part p).outOfUse = false) ∧
    ∀ block, Completes s (.configStage c block) fun t =>
      if s.fw.validCopy { block := block } then Answered s t c 0 0 ∧ t.fw.staged = true ∧
        (if s.fw.tookB then t.fw.copyA = { block := block } ∧ t.fw.copyB = s.fw.copyB
         else t.fw.copyB = { block := block } ∧ t.fw.copyA = s.fw.copyA)
      else Answered s t c 6 0 ∧ t.fw.copyA = s.fw.copyA ∧ t.fw.copyB = s.fw.copyB

/-- 17 R361, R362, 21 R404, R405: the requests of the SPDM responder. Its first answers change nothing but what is sent; those of
an established session act on it; a key reaches its slots only where it unwraps. How replies are framed and what an error reply
is are log 76, the cryptography the spec leaves to its standards log 7, and the carriage of the shelf's key log 61. -/
def Obligations.SpdmRequests : Prop :=
  ∀ (s : State) (n : Nat) (x : Session),
    let quiet (i : Instr) (P : State → Prop) : Prop := Completes s i fun t =>
      t = { s with fw := { s.fw with sent := t.fw.sent } } ∧ t.fw.sent.length = s.fw.sent.length + 1 ∧ P t
    let session (t : State) : Option Session := t.session? n
    let keeps (t : State) : Prop := t.mem = s.mem ∧ t.cores = s.cores ∧ t.parts = s.parts
    quiet .getVersion (Replied · 1 [0x13]) ∧ quiet .getCapabilities (Replied · 2 []) ∧
    quiet .negotiateAlgorithms (Replied · 3 (["SLH-DSA-SHA2-128s", "SHA-256", "secp384r1 ECDHE", "AES-256-GCM"].flatMap textBytes)) ∧
    quiet .getDigests (Clear · 4 (sha256 Config.certificates)) ∧
    (∀ off len, quiet (.getCertificate off len) (Clear · 5 ((Config.certificates.drop off).take len))) ∧
    (∀ nonce, quiet (.challenge nonce) fun t => ∃ blocks, Replied t 6 (bytesLE 32 nonce.toNat ++ blocks)) ∧
    (∀ i, quiet (.getMeasurements i) fun t => if i ∈ [1, 2, 3, 4, 5, 16, 255] then ∃ blocks, Clear t 7 blocks ∧
        (i = 1 → blocks = sha256 Config.rom) ∧ (i = 16 → blocks.length = 36 * 64 * 6 ∧ ∀ d < 36, ∀ k < 64,
          (blocks.drop (6 * (64 * d + k))).take 6 = bytesLE 1 (keySlot s d k).state.code ++ bytesLE 1 ((keySlot s d k).part.getD 0) ++
            bytesLE 4 (keySlot s d k).keyid.toNat)
      else Replied t 0 []) ∧
    (∀ bytes, Completes s (.keyExchange bytes) fun t => keeps t ∧ t.fw.nextSession = s.fw.nextSession + 1 ∧
      ∃ y, t.session? s.fw.nextSession = some y ∧ y.finished = false ∧ y.opened = none) ∧
    (s.session? n = none → ∀ i ∈ [Instr.heartbeat n, .keyUpdate n, .endSession n, .keyLoad n], quiet i (Replied · 0 [])) ∧
    (s.session? n = some x →
      (∀ verify, x.finished = false → Completes s (.finish n verify) fun t => keeps t ∧
        session t = some { x with finished := Config.finishOk x.transcript verify }) ∧
      (x.finished = true →
        quiet (.heartbeat n) (Replied · 10 []) ∧
        (Completes s (.keyUpdate n) fun t => keeps t ∧ session t = some { x with updates := x.updates + 1 }) ∧
        (Completes s (.endSession n) fun t => keeps t ∧ session t = none) ∧
        (∀ p die slot id, (s.part p).live = true → slot < 64 → keySlot s die slot = KeySlot.reset →
          Completes s (.keyOpen n p [die] slot id) fun t => keeps t ∧ ∃ o, session t = some { x with opened := some o } ∧
            (∃ bytes, t.fw.sent = s.fw.sent ++ [(none, bytes)] ∧ bytes.length = 1568) ∧ o.part = p ∧ o.dies = [die] ∧ o.slot = slot ∧ o.keyid = id) ∧
        (∀ o cipher wrapped, x.opened = some o → cipher.length = 1568 → wrapped.length = 72 →
          Completes s (.keyWrap n cipher wrapped) fun t => keeps t ∧
            session t = some { x with opened := some { o with cipher := cipher, wrapped := wrapped } }) ∧
        (∀ o die, x.opened = some o → o.dies = [die] → keySlot s die o.slot = KeySlot.reset →
          Completes s (.keyLoad n) fun t => keeps t ∧ session t = some { x with opened := none } ∧
            keySlot t die o.slot = match o.key x with
              | some key => { state := .loaded, part := some o.part, keyid := o.keyid, key := key }
              | none => KeySlot.reset) ∧
        (∀ cipher wrapped, Completes s (.shelfKey n cipher wrapped) fun t => keeps t ∧
          match x.shelfKey cipher wrapped with
          | some key => t.power = { s.power with shelfKey := some key, seq := none }
          | none => t.power = s.power ∧ Replied t 0 [])))

namespace Sys2Proof.Claims

/-- The word at virtual address va can be fetched, and is w: its bytes at the resolved address, least significant first, as
the core's instruction cache or memory holds them (02 R28, R32). -/
def HoldsWord (s : State) (va : Word) (w : IWord) : Prop :=
  ∃ a, s.translate .fetch va = .ok a ∧ s.codePoison s.cur.core a = false ∧
    ∀ j : Fin 4, s.codeByte s.cur.core (a + j.val) = w.extractLsb' (8 * j.val) 8

/-- The words ws stand at the acting context's program counter, and are as many as LEN of word 0 gives (02 R29, R30). -/
def HoldsWords (s : State) (ws : List IWord) : Prop :=
  ws ≠ [] ∧ ws.length = lenWords ((ws.headD 0).extractLsb' 0 2) ∧
    ∀ j, j < ws.length → HoldsWord s (s.me.pc + BitVec.ofNat 64 (4 * j)) (ws.getD j 0)

/-- It is the turn of context c, which may issue, is not blocked and has no trap waiting; u is the state it acts in. -/
def Issues (s : State) (c : CtxId) (u : State) : Prop :=
  ∃ rest, s.agenda = .issue c :: rest ∧ u = { s with agenda := rest, cur := c } ∧ coreValid c.core = true ∧
    u.mayIssue = true ∧ u.me.pendingTrap = none

end Sys2Proof.Claims

/-- 01 R17, 02 R28 to R32, R45, 06 R155, 10 R248: where the bytes at the program counter decode to an instruction that has an issue
slot, waits for no landing and no busy line and reads no faulty register, the step is that instruction's effect, in the state in
which the context waits for no credit and no phase start any more (`State.tries`), after which its written registers lose their
fault marks, the caches hold what its accesses leave, its slot is taken and the rest of the core notes that it issued
(`State.issued`). An instruction that waits leaves the machine as it is. One that reads a faulty register raises DATA_ERROR, and bytes
that decode to nothing raise ILLEGAL with TVAL holding word 0, and E1 above it in an extended form: such a trap takes the slot
(`State.trapIssued`; that an illegal encoding takes the scalar one is log 133). A blocked context runs the instruction it is blocked in again
(`State.resumed`). -/
def Obligations.StepRunsDecoded : Prop :=
  ∀ (s u : State) (c : CtxId), Issues s c u →
    (u.me.blocked = none →
      (∀ ws i, HoldsWords u ws → decode ws = .ok i → hazard u.me i = false → u.hasSlot i = true → u.linesBusy i = false →
        u.badRead i = none → step s = onNext (fun t => t.issued u i) (exec i u.tries)) ∧
      (∀ ws i, HoldsWords u ws → decode ws = .ok i → hazard u.me i = true ∨ u.hasSlot i = false ∨ u.linesBusy i = true →
        step s = .next u) ∧
      (∀ ws e, HoldsWords u ws → decode ws = .error e →
        let w := ws.headD 0
        let len : BitVec 2 := w.extractLsb' 0 2
        (u.slotOpen false = true → step s = .next (u.trapIssued
          { cause := .illegal, tval := (if len = 2 ∨ len = 3 then ws.getD 1 0 else 0#32) ++ w } len false u)) ∧
        (u.slotOpen false = false → step s = .next u)) ∧
      (∀ ws i d, HoldsWords u ws → decode ws = .ok i → hazard u.me i = false → u.hasSlot i = true → u.linesBusy i = false →
        u.badRead i = some d → step s = .next (u.trapIssued { cause := .dataError, tval := d.tval }
          (((encode i).headD 0).extractLsb' 0 2) (inVectorSlot i) (u.logError c.core.die 2 2 (u.registerUnit c d))))) ∧
    (∀ b, u.me.blocked = some b →
      (u.linesBusy b.instr = false → step s = onNext (fun t => t.resumed u b.instr) (exec b.instr u)) ∧
      (u.linesBusy b.instr = true → step s = .next u))

/-- 02 R28 to R44, and the worked encodings of 02, 07, 08, 11, 12 and 13: words written out from the tables decode to the
instruction they stand for, and the encodings of the table of 02's worked examples to none. -/
def Obligations.DecodeWords : Prop :=
  decode [0x10084528#32] = .ok (.ld { off := 4, scope := 0, ord := 0, sz := 2, a := 2, d := 5, form := .base }) ∧
  decode [0x0008452A#32, 0#32, 0x12#32] =
    .ok (.ld { off := 0, scope := 0, ord := 0, sz := 2, a := 2, d := 5,
               form := .ext { sat := 0, rm := 0, pn := 0, z := 0, pred := 0, c := 0 } 0x12#32 }) ∧
  decode [0x00800024#32] = .ok .retire ∧
  decode [0x22000524#32] = .ok (.myid { mod := 2, b := 0, a := 0, d := 5, form := .base }) ∧
  decode [0x00148326#32, 6#32, 0#32] = .ok (.start { mod := 0, b := 5, a := 4, d := 3, e1 := 6, e2 := 0 }) ∧
  decode [0x5214806E#32, 0x226#32, 0x40#32] =
    .ok (.tmma { mod := 5, b := 5, a := 4, d := 0, e1 := 0x226, e2 := 0x40 }) ∧
  decode [0x0000C372#32, 0#32, 0#32] = .ok (.copy { mod := 0, b := 0, a := 6, d := 3, e1 := 0, e2 := 0 }) ∧
  decode [0x21014976#32, 0#32, 0#32] = .ok (.bwait { mod := 2, b := 0, a := 10, d := 9, e1 := 0, e2 := 0 }) ∧
  decode [0x0101487A#32, 0xB#32, 0#32] = .ok (.taskget { mod := 0, b := 0, a := 10, d := 8, e1 := 0xB, e2 := 0 }) ∧
  decode [0x0010607E#32, 0#32, 7#32] = .ok (.send { mod := 0, b := 4, a := 3, d := 0, e1 := 0, e2 := 7 }) ∧
  decode [0x408C415C#32] = .ok (.fpvFadd { ty := 2, pg := 1, b := 3, a := 2, d := 1, form := .base }) ∧
  (∀ w ∈ [0x12884528#32, 0x000845A8#32, 0#32], ∃ e, decode [w] = .error e) ∧
  (∀ lo hi, ∃ e, decode [0x10084529#32, lo, hi] = .error e)

/-- 02 R28 to R44 and the minor maps: for every legal instruction, with every operand at every value its encoding admits,
the decoder reads from the encoder's words that instruction. -/
def Obligations.DecodeEncodeAgree : Prop :=
  ∀ i : Instr, i.payload.isSome = true → i.legal = true → decode (encode i) = .ok i

/-- The state after module reset: 01 R22 and R23 (counts 0), 03 R77 (FCTL 0x10000), 06 R152 (each core its own credit, 32
pooled), 06 Table 6.3 (GSHARE), 17 R355 (nothing owned), 18 (PWRCFG.EN 0, so 8 active hives), 21 R403 (memory cleared,
STAGE 6, READY). The zeros of the general registers are the model's own (log 1), and no statement elsewhere rests on them. -/
def Obligations.ResetState : Prop :=
  let s := State.reset
  Memory.wf s = true ∧ (∀ a, s.byte a = 0) ∧ s.refCount = 0 ∧ (∀ k, (s.core k).cycles = 0) ∧
  (∀ c, (s.ctx c).live = false ∧ (s.ctx c).fctl = 0x10000#64 ∧ (s.ctx c).tcode = 0 ∧ (s.ctx c).tinh = false) ∧
  (∀ h, (s.hive h).owner = none ∧ (s.hive h).pooled = 32 ∧ (s.hive h).gshareM = 2 ∧ (s.hive h).gshareK = 1) ∧
  (∀ k, (s.core k).status = .idle ∧ (s.core k).creditsPooled = 0 ∧ (s.core k).creditReserved = false) ∧
  (∀ p, (s.part p).live = false) ∧ s.launches = [] ∧ s.power.active = 8 ∧ s.fw.ready = true ∧ s.fw.stage = 6

/-- The memory of every state that a step reaches from a state whose memory has its canonical form (addresses strictly
rising, no byte 0 listed) has that form: equal memories are equal data (00 R2; the form is the model's, log 5). -/
def Obligations.StepKeepsMemoryCanonical : Prop :=
  ∀ s t : State, s.Inv → step s = .next t → t.Inv
end

