-- ==== Sys2Proof/Laws/Memory.lean ====
section
/-! SUPPORT. The laws of memory: every operation keeps the canonical form, and a byte read after a write. -/

namespace Sys2Proof.Machine

/-- Every address of the list is above a. -/
def cellsAbove (a : Nat) : List Host.Cell → Prop
  | [] => True
  | c :: m => a < c.1 ∧ cellsAbove a m

theorem cellsAbove_mono {a b : Nat} (h : b ≤ a) : ∀ {m : List Host.Cell}, cellsAbove a m → cellsAbove b m
  | [], _ => trivial
  | _ :: _, ⟨h1, h2⟩ => ⟨by omega, cellsAbove_mono h h2⟩

theorem cellsWf_cons {c : Host.Cell} {m : List Host.Cell} :
    cellsWf (c :: m) = true ↔ c.2 ≠ unlisted ∧ cellsAbove c.1 m ∧ cellsWf m = true := by
  induction m generalizing c with
  | nil => simp [cellsWf, cellsAbove]
  | cons d m ih =>
    constructor
    · intro h
      simp only [cellsWf, Bool.and_eq_true, bne_iff_ne, decide_eq_true_eq] at h
      have := (ih (c := d)).1 h.2
      exact ⟨h.1.1, ⟨h.1.2, cellsAbove_mono (Nat.le_of_lt h.1.2) this.2.1⟩, h.2⟩
    · rintro ⟨h1, ⟨h2, -⟩, h3⟩
      simp [cellsWf, h1, h2, h3]

theorem cellGet_above {a x : Nat} (h : x ≤ a) : ∀ {m : List Host.Cell}, cellsAbove a m → cellGet m x = unlisted
  | [], _ => rfl
  | c :: m, ⟨h1, h2⟩ => by
    have : c.1 ≠ x := by omega
    simp [cellGet, this, cellGet_above h h2]

theorem cellsAbove_cons {a b : Nat} {v : Byte} {m : List Host.Cell} (h : a < b) (hm : cellsAbove a m) :
    cellsAbove a (cellCons b v m) := by
  unfold cellCons; split
  · exact hm
  · exact ⟨h, hm⟩

theorem cellsAbove_put {a b : Nat} {v : Byte} (h : a < b) :
    ∀ {m : List Host.Cell}, cellsAbove a m → cellsAbove a (cellPut m b v)
  | [], _ => cellsAbove_cons h trivial
  | c :: m, ⟨h1, h2⟩ => by
    simp only [cellPut]; split
    · exact ⟨h1, cellsAbove_put h h2⟩
    · split
      · exact cellsAbove_cons h h2
      · exact cellsAbove_cons h ⟨h1, h2⟩

theorem cellsWf_cellCons {a : Nat} {v : Byte} {m : List Host.Cell} (ha : cellsAbove a m) (h : cellsWf m = true) :
    cellsWf (cellCons a v m) = true := by
  unfold cellCons; split
  · exact h
  · exact cellsWf_cons.2 ⟨‹_›, ha, h⟩

/-- Writing a byte keeps the canonical form. -/
theorem cellsWf_put {a : Nat} {v : Byte} : ∀ {m : List Host.Cell}, cellsWf m = true → cellsWf (cellPut m a v) = true
  | [], h => cellsWf_cellCons trivial h
  | c :: m, h => by
    have ⟨h1, h2, h3⟩ := cellsWf_cons.1 h
    simp only [cellPut]; split
    · exact cellsWf_cons.2 ⟨h1, cellsAbove_put ‹_› h2, cellsWf_put h3⟩
    · split
      · subst a; exact cellsWf_cellCons h2 h3
      · have hlt : a < c.1 := by omega
        exact cellsWf_cellCons ⟨hlt, cellsAbove_mono (Nat.le_of_lt hlt) h2⟩ h

theorem cellGet_cellCons {a x : Nat} {v : Byte} {m : List Host.Cell} (h : cellsAbove a m) :
    cellGet (cellCons a v m) x = if x = a then v else cellGet m x := by
  unfold cellCons; split
  · rename_i hv
    split
    · subst x; rw [cellGet_above (Nat.le_refl a) h, hv]
    · rfl
  · simp [cellGet, eq_comm]

/-- A byte read after a byte written. -/
theorem cellGet_put {a x : Nat} {v : Byte} :
    ∀ {m : List Host.Cell}, cellsWf m = true → cellGet (cellPut m a v) x = if x = a then v else cellGet m x
  | [], _ => by simpa [cellPut] using cellGet_cellCons (a := a) (x := x) (v := v) (m := []) trivial
  | c :: m, h => by
    have ⟨h1, h2, h3⟩ := cellsWf_cons.1 h
    simp only [cellPut]; split
    · rename_i hc
      simp only [cellGet, cellGet_put h3]
      by_cases hx : c.1 = x
      · subst x; simp [Nat.ne_of_lt hc]
      · simp [hx]
    · split
      · subst a
        rw [cellGet_cellCons h2]
        by_cases hx : x = c.1
        · simp [hx]
        · simp [cellGet, hx, Ne.symm hx]
      · have hlt : a < c.1 := by omega
        have hm : cellsAbove a (c :: m) := ⟨hlt, cellsAbove_mono (Nat.le_of_lt hlt) h2⟩
        rw [cellGet_cellCons hm]

theorem cellsWf_puts {n : Nat} : ∀ {a v : Nat} {m : List Host.Cell}, cellsWf m = true → cellsWf (cellsPut m a n v) = true := by
  induction n with
  | zero => exact fun h => h
  | succ n ih => exact fun h => ih (cellsWf_put h)

/-- A byte read after a number written. -/
theorem cellGet_puts {n : Nat} : ∀ {a v x : Nat} {m : List Host.Cell}, cellsWf m = true →
    cellGet (cellsPut m a n v) x = if a ≤ x ∧ x < a + n then BitVec.ofNat 8 (v / 256 ^ (x - a)) else cellGet m x := by
  induction n with
  | zero => intro a v x m _; rw [if_neg (by omega)]; rfl
  | succ n ih =>
    intro a v x m h
    simp only [cellsPut]
    rw [ih (cellsWf_put h), cellGet_put h]
    by_cases hx : x = a
    · subst hx
      rw [if_neg (by omega), if_pos rfl, if_pos (by omega)]; simp
    · by_cases hr : a + 1 ≤ x ∧ x < a + 1 + n
      · have h2 : a ≤ x ∧ x < a + (n + 1) := by omega
        have h3 : x - a = (x - (a + 1)) + 1 := by omega
        rw [if_pos hr, if_pos h2, h3, Nat.pow_succ, Nat.mul_comm, Nat.div_div_eq_div_mul]
      · have h2 : ¬(a ≤ x ∧ x < a + (n + 1)) := by omega
        rw [if_neg hr, if_neg hx, if_neg h2]

theorem cellsAbove_filter {a : Nat} (f : Host.Cell → Bool) :
    ∀ {m : List Host.Cell}, cellsAbove a m → cellsAbove a (m.filter f)
  | [], _ => trivial
  | c :: m, ⟨h1, h2⟩ => by
    simp only [List.filter]; split
    · exact ⟨h1, cellsAbove_filter f h2⟩
    · exact cellsAbove_filter f h2

theorem cellsWf_filter (f : Host.Cell → Bool) : ∀ {m : List Host.Cell}, cellsWf m = true → cellsWf (m.filter f) = true
  | [], h => h
  | c :: m, h => by
    have ⟨h1, h2, h3⟩ := cellsWf_cons.1 h
    simp only [List.filter]; split
    · exact cellsWf_cons.2 ⟨h1, cellsAbove_filter f h2, cellsWf_filter f h3⟩
    · exact cellsWf_filter f h3

/-! ## The operations on a state -/

theorem State.wf_write {s : State} (h : Memory.wf s = true) (a n v : Nat) : Memory.wf (s.write a n v) = true :=
  cellsWf_puts h

theorem State.wf_clear {s : State} (h : Memory.wf s = true) (a n : Nat) : Memory.wf (s.clear a n) = true :=
  cellsWf_filter _ h

theorem State.wf_writeBytes : ∀ {b : List Byte} {s : State} (_ : Memory.wf s = true) (a : Nat),
    Memory.wf (s.writeBytes a b) = true
  | [], _, h, _ => h
  | _ :: _, _, h, a => State.wf_writeBytes (State.wf_write h a 1 _) (a + 1)

theorem State.wf_copyBytes {s : State} (h : Memory.wf s = true) (a b n : Nat) : Memory.wf (s.copyBytes a b n) = true :=
  State.wf_writeBytes h b

/-- A byte after a write: inside, the byte of the number; outside, as before. -/
theorem State.byte_write {s : State} (h : Memory.wf s = true) (a n v x : Nat) :
    (s.write a n v).byte x = if a ≤ x ∧ x < a + n then BitVec.ofNat 8 (v / 256 ^ (x - a)) else s.byte x :=
  cellGet_puts h

/-- Reading back the bytes written. -/
theorem State.read_write_self {s : State} (h : Memory.wf s = true) (a n v : Nat) :
    (s.write a n v).read a n = v % 256 ^ n := by
  have key : ∀ k j, j + k = n → cellsNat (s.write a n v).mem (a + j) k = v / 256 ^ j % 256 ^ k := by
    intro k
    induction k with
    | zero => intro j _; simp [cellsNat, Nat.mod_one]
    | succ k ih =>
      intro j hj
      have hb := State.byte_write h a n v (a + j)
      rw [if_pos (by omega), Nat.add_sub_cancel_left] at hb
      have hb : cellGet (s.write a n v).mem (a + j) = BitVec.ofNat 8 (v / 256 ^ j) := hb
      simp only [cellsNat]
      rw [hb, show a + j + 1 = a + (j + 1) by omega, ih (j + 1) (by omega), Nat.pow_succ 256 j, ← Nat.div_div_eq_div_mul,
        Nat.pow_succ 256 k, Nat.mul_comm (256 ^ k), Nat.mod_mul, BitVec.toNat_ofNat]
  have h0 := key n 0 (by omega)
  simp only [Nat.add_zero, Nat.pow_zero, Nat.div_one] at h0
  exact h0

end Sys2Proof.Machine
end

