-- ==== Sys2Proof/Laws/State.lean ====
section
/-! SUPPORT. What each update of the state leaves of each field, and the laws of the maps the state is made of. -/

namespace Sys2Proof.Machine

/-! ## Maps -/

section
variable {κ α : Type} [DecidableEq κ]

@[simp] theorem lookup_store_self (d : α) (k : κ) (v : α) (m : Assoc κ α) : lookup d k (store k v m) = v := by
  induction m with
  | nil => simp [store, lookup]
  | cons e m ih =>
    obtain ⟨k', v'⟩ := e
    by_cases h : k' = k
    · simp [store, lookup, h]
    · simp [store, lookup, h, ih]

@[simp] theorem lookup_store_ne (d : α) {k j : κ} (h : j ≠ k) (v : α) (m : Assoc κ α) :
    lookup d j (store k v m) = lookup d j m := by
  induction m with
  | nil => simp [store, lookup, Ne.symm h]
  | cons e m ih =>
    obtain ⟨k', v'⟩ := e
    by_cases hk : k' = k
    · subst hk; simp [store, lookup, Ne.symm h]
    · by_cases hj : k' = j
      · simp [store, lookup, hj, h]
      · simp [store, lookup, hk, hj, ih]

theorem lookup_store (d : α) (k j : κ) (v : α) (m : Assoc κ α) :
    lookup d j (store k v m) = if j = k then v else lookup d j m := by
  by_cases h : j = k
  · simp [h]
  · simp [h]

end

/-! ## Fields of the state -/

@[simp] theorem State.setCore_hives (s : State) (k : CoreId) (c : Core) : (s.setCore k c).hives = s.hives := rfl
@[simp] theorem State.setCore_dies (s : State) (k : CoreId) (c : Core) : (s.setCore k c).dies = s.dies := rfl
@[simp] theorem State.setCore_parts (s : State) (k : CoreId) (c : Core) : (s.setCore k c).parts = s.parts := rfl
@[simp] theorem State.setCore_launches (s : State) (k : CoreId) (c : Core) : (s.setCore k c).launches = s.launches := rfl
@[simp] theorem State.setCore_nextLaunch (s : State) (k : CoreId) (c : Core) : (s.setCore k c).nextLaunch = s.nextLaunch := rfl
@[simp] theorem State.setCore_spawns (s : State) (k : CoreId) (c : Core) : (s.setCore k c).spawns = s.spawns := rfl
@[simp] theorem State.setCore_power (s : State) (k : CoreId) (c : Core) : (s.setCore k c).power = s.power := rfl
@[simp] theorem State.setCore_fw (s : State) (k : CoreId) (c : Core) : (s.setCore k c).fw = s.fw := rfl
@[simp] theorem State.setCore_fence (s : State) (k : CoreId) (c : Core) : (s.setCore k c).fence = s.fence := rfl
@[simp] theorem State.setCore_refCount (s : State) (k : CoreId) (c : Core) : (s.setCore k c).refCount = s.refCount := rfl
@[simp] theorem State.setCore_dieCycle (s : State) (k : CoreId) (c : Core) : (s.setCore k c).dieCycle = s.dieCycle := rfl
@[simp] theorem State.setCore_mem (s : State) (k : CoreId) (c : Core) : (s.setCore k c).mem = s.mem := rfl
@[simp] theorem State.setCore_poisoned (s : State) (k : CoreId) (c : Core) : (s.setCore k c).poisoned = s.poisoned := rfl
@[simp] theorem State.setCore_badRegs (s : State) (k : CoreId) (c : Core) : (s.setCore k c).badRegs = s.badRegs := rfl
@[simp] theorem State.setCore_cur (s : State) (k : CoreId) (c : Core) : (s.setCore k c).cur = s.cur := rfl
@[simp] theorem State.setCore_agenda (s : State) (k : CoreId) (c : Core) : (s.setCore k c).agenda = s.agenda := rfl
@[simp] theorem State.setCore_free (s : State) (k : CoreId) (c : Core) : (s.setCore k c).free = s.free := rfl
@[simp] theorem State.setHive_cores (s : State) (h : HiveId) (x : Hive) : (s.setHive h x).cores = s.cores := rfl
@[simp] theorem State.setHive_dies (s : State) (h : HiveId) (x : Hive) : (s.setHive h x).dies = s.dies := rfl
@[simp] theorem State.setHive_parts (s : State) (h : HiveId) (x : Hive) : (s.setHive h x).parts = s.parts := rfl
@[simp] theorem State.setHive_launches (s : State) (h : HiveId) (x : Hive) : (s.setHive h x).launches = s.launches := rfl
@[simp] theorem State.setHive_nextLaunch (s : State) (h : HiveId) (x : Hive) : (s.setHive h x).nextLaunch = s.nextLaunch := rfl
@[simp] theorem State.setHive_spawns (s : State) (h : HiveId) (x : Hive) : (s.setHive h x).spawns = s.spawns := rfl
@[simp] theorem State.setHive_power (s : State) (h : HiveId) (x : Hive) : (s.setHive h x).power = s.power := rfl
@[simp] theorem State.setHive_fw (s : State) (h : HiveId) (x : Hive) : (s.setHive h x).fw = s.fw := rfl
@[simp] theorem State.setHive_fence (s : State) (h : HiveId) (x : Hive) : (s.setHive h x).fence = s.fence := rfl
@[simp] theorem State.setHive_refCount (s : State) (h : HiveId) (x : Hive) : (s.setHive h x).refCount = s.refCount := rfl
@[simp] theorem State.setHive_dieCycle (s : State) (h : HiveId) (x : Hive) : (s.setHive h x).dieCycle = s.dieCycle := rfl
@[simp] theorem State.setHive_mem (s : State) (h : HiveId) (x : Hive) : (s.setHive h x).mem = s.mem := rfl
@[simp] theorem State.setHive_poisoned (s : State) (h : HiveId) (x : Hive) : (s.setHive h x).poisoned = s.poisoned := rfl
@[simp] theorem State.setHive_badRegs (s : State) (h : HiveId) (x : Hive) : (s.setHive h x).badRegs = s.badRegs := rfl
@[simp] theorem State.setHive_cur (s : State) (h : HiveId) (x : Hive) : (s.setHive h x).cur = s.cur := rfl
@[simp] theorem State.setHive_agenda (s : State) (h : HiveId) (x : Hive) : (s.setHive h x).agenda = s.agenda := rfl
@[simp] theorem State.setHive_free (s : State) (h : HiveId) (x : Hive) : (s.setHive h x).free = s.free := rfl
@[simp] theorem State.setDie_cores (s : State) (d : Nat) (x : Die) : (s.setDie d x).cores = s.cores := rfl
@[simp] theorem State.setDie_hives (s : State) (d : Nat) (x : Die) : (s.setDie d x).hives = s.hives := rfl
@[simp] theorem State.setDie_parts (s : State) (d : Nat) (x : Die) : (s.setDie d x).parts = s.parts := rfl
@[simp] theorem State.setDie_launches (s : State) (d : Nat) (x : Die) : (s.setDie d x).launches = s.launches := rfl
@[simp] theorem State.setDie_nextLaunch (s : State) (d : Nat) (x : Die) : (s.setDie d x).nextLaunch = s.nextLaunch := rfl
@[simp] theorem State.setDie_spawns (s : State) (d : Nat) (x : Die) : (s.setDie d x).spawns = s.spawns := rfl
@[simp] theorem State.setDie_power (s : State) (d : Nat) (x : Die) : (s.setDie d x).power = s.power := rfl
@[simp] theorem State.setDie_fw (s : State) (d : Nat) (x : Die) : (s.setDie d x).fw = s.fw := rfl
@[simp] theorem State.setDie_fence (s : State) (d : Nat) (x : Die) : (s.setDie d x).fence = s.fence := rfl
@[simp] theorem State.setDie_refCount (s : State) (d : Nat) (x : Die) : (s.setDie d x).refCount = s.refCount := rfl
@[simp] theorem State.setDie_dieCycle (s : State) (d : Nat) (x : Die) : (s.setDie d x).dieCycle = s.dieCycle := rfl
@[simp] theorem State.setDie_mem (s : State) (d : Nat) (x : Die) : (s.setDie d x).mem = s.mem := rfl
@[simp] theorem State.setDie_poisoned (s : State) (d : Nat) (x : Die) : (s.setDie d x).poisoned = s.poisoned := rfl
@[simp] theorem State.setDie_badRegs (s : State) (d : Nat) (x : Die) : (s.setDie d x).badRegs = s.badRegs := rfl
@[simp] theorem State.setDie_cur (s : State) (d : Nat) (x : Die) : (s.setDie d x).cur = s.cur := rfl
@[simp] theorem State.setDie_agenda (s : State) (d : Nat) (x : Die) : (s.setDie d x).agenda = s.agenda := rfl
@[simp] theorem State.setDie_free (s : State) (d : Nat) (x : Die) : (s.setDie d x).free = s.free := rfl
@[simp] theorem State.setPart_cores (s : State) (p : Nat) (x : Partition) : (s.setPart p x).cores = s.cores := rfl
@[simp] theorem State.setPart_hives (s : State) (p : Nat) (x : Partition) : (s.setPart p x).hives = s.hives := rfl
@[simp] theorem State.setPart_dies (s : State) (p : Nat) (x : Partition) : (s.setPart p x).dies = s.dies := rfl
@[simp] theorem State.setPart_launches (s : State) (p : Nat) (x : Partition) : (s.setPart p x).launches = s.launches := rfl
@[simp] theorem State.setPart_nextLaunch (s : State) (p : Nat) (x : Partition) : (s.setPart p x).nextLaunch = s.nextLaunch := rfl
@[simp] theorem State.setPart_spawns (s : State) (p : Nat) (x : Partition) : (s.setPart p x).spawns = s.spawns := rfl
@[simp] theorem State.setPart_power (s : State) (p : Nat) (x : Partition) : (s.setPart p x).power = s.power := rfl
@[simp] theorem State.setPart_fw (s : State) (p : Nat) (x : Partition) : (s.setPart p x).fw = s.fw := rfl
@[simp] theorem State.setPart_fence (s : State) (p : Nat) (x : Partition) : (s.setPart p x).fence = s.fence := rfl
@[simp] theorem State.setPart_refCount (s : State) (p : Nat) (x : Partition) : (s.setPart p x).refCount = s.refCount := rfl
@[simp] theorem State.setPart_dieCycle (s : State) (p : Nat) (x : Partition) : (s.setPart p x).dieCycle = s.dieCycle := rfl
@[simp] theorem State.setPart_mem (s : State) (p : Nat) (x : Partition) : (s.setPart p x).mem = s.mem := rfl
@[simp] theorem State.setPart_poisoned (s : State) (p : Nat) (x : Partition) : (s.setPart p x).poisoned = s.poisoned := rfl
@[simp] theorem State.setPart_badRegs (s : State) (p : Nat) (x : Partition) : (s.setPart p x).badRegs = s.badRegs := rfl
@[simp] theorem State.setPart_cur (s : State) (p : Nat) (x : Partition) : (s.setPart p x).cur = s.cur := rfl
@[simp] theorem State.setPart_agenda (s : State) (p : Nat) (x : Partition) : (s.setPart p x).agenda = s.agenda := rfl
@[simp] theorem State.setPart_free (s : State) (p : Nat) (x : Partition) : (s.setPart p x).free = s.free := rfl
@[simp] theorem State.setLaunch_cores (s : State) (l : Nat) (x : Launch) : (s.setLaunch l x).cores = s.cores := rfl
@[simp] theorem State.setLaunch_hives (s : State) (l : Nat) (x : Launch) : (s.setLaunch l x).hives = s.hives := rfl
@[simp] theorem State.setLaunch_dies (s : State) (l : Nat) (x : Launch) : (s.setLaunch l x).dies = s.dies := rfl
@[simp] theorem State.setLaunch_parts (s : State) (l : Nat) (x : Launch) : (s.setLaunch l x).parts = s.parts := rfl
@[simp] theorem State.setLaunch_nextLaunch (s : State) (l : Nat) (x : Launch) : (s.setLaunch l x).nextLaunch = s.nextLaunch := rfl
@[simp] theorem State.setLaunch_spawns (s : State) (l : Nat) (x : Launch) : (s.setLaunch l x).spawns = s.spawns := rfl
@[simp] theorem State.setLaunch_power (s : State) (l : Nat) (x : Launch) : (s.setLaunch l x).power = s.power := rfl
@[simp] theorem State.setLaunch_fw (s : State) (l : Nat) (x : Launch) : (s.setLaunch l x).fw = s.fw := rfl
@[simp] theorem State.setLaunch_fence (s : State) (l : Nat) (x : Launch) : (s.setLaunch l x).fence = s.fence := rfl
@[simp] theorem State.setLaunch_refCount (s : State) (l : Nat) (x : Launch) : (s.setLaunch l x).refCount = s.refCount := rfl
@[simp] theorem State.setLaunch_dieCycle (s : State) (l : Nat) (x : Launch) : (s.setLaunch l x).dieCycle = s.dieCycle := rfl
@[simp] theorem State.setLaunch_mem (s : State) (l : Nat) (x : Launch) : (s.setLaunch l x).mem = s.mem := rfl
@[simp] theorem State.setLaunch_poisoned (s : State) (l : Nat) (x : Launch) : (s.setLaunch l x).poisoned = s.poisoned := rfl
@[simp] theorem State.setLaunch_badRegs (s : State) (l : Nat) (x : Launch) : (s.setLaunch l x).badRegs = s.badRegs := rfl
@[simp] theorem State.setLaunch_cur (s : State) (l : Nat) (x : Launch) : (s.setLaunch l x).cur = s.cur := rfl
@[simp] theorem State.setLaunch_agenda (s : State) (l : Nat) (x : Launch) : (s.setLaunch l x).agenda = s.agenda := rfl
@[simp] theorem State.setLaunch_free (s : State) (l : Nat) (x : Launch) : (s.setLaunch l x).free = s.free := rfl
@[simp] theorem State.setCtx_hives (s : State) (c : CtxId) (x : Context) : (s.setCtx c x).hives = s.hives := rfl
@[simp] theorem State.setCtx_dies (s : State) (c : CtxId) (x : Context) : (s.setCtx c x).dies = s.dies := rfl
@[simp] theorem State.setCtx_parts (s : State) (c : CtxId) (x : Context) : (s.setCtx c x).parts = s.parts := rfl
@[simp] theorem State.setCtx_launches (s : State) (c : CtxId) (x : Context) : (s.setCtx c x).launches = s.launches := rfl
@[simp] theorem State.setCtx_nextLaunch (s : State) (c : CtxId) (x : Context) : (s.setCtx c x).nextLaunch = s.nextLaunch := rfl
@[simp] theorem State.setCtx_spawns (s : State) (c : CtxId) (x : Context) : (s.setCtx c x).spawns = s.spawns := rfl
@[simp] theorem State.setCtx_power (s : State) (c : CtxId) (x : Context) : (s.setCtx c x).power = s.power := rfl
@[simp] theorem State.setCtx_fw (s : State) (c : CtxId) (x : Context) : (s.setCtx c x).fw = s.fw := rfl
@[simp] theorem State.setCtx_fence (s : State) (c : CtxId) (x : Context) : (s.setCtx c x).fence = s.fence := rfl
@[simp] theorem State.setCtx_refCount (s : State) (c : CtxId) (x : Context) : (s.setCtx c x).refCount = s.refCount := rfl
@[simp] theorem State.setCtx_dieCycle (s : State) (c : CtxId) (x : Context) : (s.setCtx c x).dieCycle = s.dieCycle := rfl
@[simp] theorem State.setCtx_mem (s : State) (c : CtxId) (x : Context) : (s.setCtx c x).mem = s.mem := rfl
@[simp] theorem State.setCtx_poisoned (s : State) (c : CtxId) (x : Context) : (s.setCtx c x).poisoned = s.poisoned := rfl
@[simp] theorem State.setCtx_badRegs (s : State) (c : CtxId) (x : Context) : (s.setCtx c x).badRegs = s.badRegs := rfl
@[simp] theorem State.setCtx_cur (s : State) (c : CtxId) (x : Context) : (s.setCtx c x).cur = s.cur := rfl
@[simp] theorem State.setCtx_agenda (s : State) (c : CtxId) (x : Context) : (s.setCtx c x).agenda = s.agenda := rfl
@[simp] theorem State.setCtx_free (s : State) (c : CtxId) (x : Context) : (s.setCtx c x).free = s.free := rfl
@[simp] theorem State.setMe_hives (s : State) (x : Context) : (s.setMe x).hives = s.hives := rfl
@[simp] theorem State.setMe_dies (s : State) (x : Context) : (s.setMe x).dies = s.dies := rfl
@[simp] theorem State.setMe_parts (s : State) (x : Context) : (s.setMe x).parts = s.parts := rfl
@[simp] theorem State.setMe_launches (s : State) (x : Context) : (s.setMe x).launches = s.launches := rfl
@[simp] theorem State.setMe_nextLaunch (s : State) (x : Context) : (s.setMe x).nextLaunch = s.nextLaunch := rfl
@[simp] theorem State.setMe_spawns (s : State) (x : Context) : (s.setMe x).spawns = s.spawns := rfl
@[simp] theorem State.setMe_power (s : State) (x : Context) : (s.setMe x).power = s.power := rfl
@[simp] theorem State.setMe_fw (s : State) (x : Context) : (s.setMe x).fw = s.fw := rfl
@[simp] theorem State.setMe_fence (s : State) (x : Context) : (s.setMe x).fence = s.fence := rfl
@[simp] theorem State.setMe_refCount (s : State) (x : Context) : (s.setMe x).refCount = s.refCount := rfl
@[simp] theorem State.setMe_dieCycle (s : State) (x : Context) : (s.setMe x).dieCycle = s.dieCycle := rfl
@[simp] theorem State.setMe_mem (s : State) (x : Context) : (s.setMe x).mem = s.mem := rfl
@[simp] theorem State.setMe_poisoned (s : State) (x : Context) : (s.setMe x).poisoned = s.poisoned := rfl
@[simp] theorem State.setMe_badRegs (s : State) (x : Context) : (s.setMe x).badRegs = s.badRegs := rfl
@[simp] theorem State.setMe_cur (s : State) (x : Context) : (s.setMe x).cur = s.cur := rfl
@[simp] theorem State.setMe_agenda (s : State) (x : Context) : (s.setMe x).agenda = s.agenda := rfl
@[simp] theorem State.setMe_free (s : State) (x : Context) : (s.setMe x).free = s.free := rfl
@[simp] theorem State.setMyCore_hives (s : State) (x : Core) : (s.setMyCore x).hives = s.hives := rfl
@[simp] theorem State.setMyCore_dies (s : State) (x : Core) : (s.setMyCore x).dies = s.dies := rfl
@[simp] theorem State.setMyCore_parts (s : State) (x : Core) : (s.setMyCore x).parts = s.parts := rfl
@[simp] theorem State.setMyCore_launches (s : State) (x : Core) : (s.setMyCore x).launches = s.launches := rfl
@[simp] theorem State.setMyCore_nextLaunch (s : State) (x : Core) : (s.setMyCore x).nextLaunch = s.nextLaunch := rfl
@[simp] theorem State.setMyCore_spawns (s : State) (x : Core) : (s.setMyCore x).spawns = s.spawns := rfl
@[simp] theorem State.setMyCore_power (s : State) (x : Core) : (s.setMyCore x).power = s.power := rfl
@[simp] theorem State.setMyCore_fw (s : State) (x : Core) : (s.setMyCore x).fw = s.fw := rfl
@[simp] theorem State.setMyCore_fence (s : State) (x : Core) : (s.setMyCore x).fence = s.fence := rfl
@[simp] theorem State.setMyCore_refCount (s : State) (x : Core) : (s.setMyCore x).refCount = s.refCount := rfl
@[simp] theorem State.setMyCore_dieCycle (s : State) (x : Core) : (s.setMyCore x).dieCycle = s.dieCycle := rfl
@[simp] theorem State.setMyCore_mem (s : State) (x : Core) : (s.setMyCore x).mem = s.mem := rfl
@[simp] theorem State.setMyCore_poisoned (s : State) (x : Core) : (s.setMyCore x).poisoned = s.poisoned := rfl
@[simp] theorem State.setMyCore_badRegs (s : State) (x : Core) : (s.setMyCore x).badRegs = s.badRegs := rfl
@[simp] theorem State.setMyCore_cur (s : State) (x : Core) : (s.setMyCore x).cur = s.cur := rfl
@[simp] theorem State.setMyCore_agenda (s : State) (x : Core) : (s.setMyCore x).agenda = s.agenda := rfl
@[simp] theorem State.setMyCore_free (s : State) (x : Core) : (s.setMyCore x).free = s.free := rfl
@[simp] theorem State.advance_hives (s : State) (len : BitVec 2) : (s.advance len).hives = s.hives := rfl
@[simp] theorem State.advance_dies (s : State) (len : BitVec 2) : (s.advance len).dies = s.dies := rfl
@[simp] theorem State.advance_parts (s : State) (len : BitVec 2) : (s.advance len).parts = s.parts := rfl
@[simp] theorem State.advance_launches (s : State) (len : BitVec 2) : (s.advance len).launches = s.launches := rfl
@[simp] theorem State.advance_nextLaunch (s : State) (len : BitVec 2) : (s.advance len).nextLaunch = s.nextLaunch := rfl
@[simp] theorem State.advance_spawns (s : State) (len : BitVec 2) : (s.advance len).spawns = s.spawns := rfl
@[simp] theorem State.advance_power (s : State) (len : BitVec 2) : (s.advance len).power = s.power := rfl
@[simp] theorem State.advance_fw (s : State) (len : BitVec 2) : (s.advance len).fw = s.fw := rfl
@[simp] theorem State.advance_fence (s : State) (len : BitVec 2) : (s.advance len).fence = s.fence := rfl
@[simp] theorem State.advance_refCount (s : State) (len : BitVec 2) : (s.advance len).refCount = s.refCount := rfl
@[simp] theorem State.advance_dieCycle (s : State) (len : BitVec 2) : (s.advance len).dieCycle = s.dieCycle := rfl
@[simp] theorem State.advance_mem (s : State) (len : BitVec 2) : (s.advance len).mem = s.mem := rfl
@[simp] theorem State.advance_poisoned (s : State) (len : BitVec 2) : (s.advance len).poisoned = s.poisoned := rfl
@[simp] theorem State.advance_badRegs (s : State) (len : BitVec 2) : (s.advance len).badRegs = s.badRegs := rfl
@[simp] theorem State.advance_cur (s : State) (len : BitVec 2) : (s.advance len).cur = s.cur := rfl
@[simp] theorem State.advance_agenda (s : State) (len : BitVec 2) : (s.advance len).agenda = s.agenda := rfl
@[simp] theorem State.advance_free (s : State) (len : BitVec 2) : (s.advance len).free = s.free := rfl
@[simp] theorem State.write_cores (s : State) (a n v : Nat) : (s.write a n v).cores = s.cores := rfl
@[simp] theorem State.write_hives (s : State) (a n v : Nat) : (s.write a n v).hives = s.hives := rfl
@[simp] theorem State.write_dies (s : State) (a n v : Nat) : (s.write a n v).dies = s.dies := rfl
@[simp] theorem State.write_parts (s : State) (a n v : Nat) : (s.write a n v).parts = s.parts := rfl
@[simp] theorem State.write_launches (s : State) (a n v : Nat) : (s.write a n v).launches = s.launches := rfl
@[simp] theorem State.write_nextLaunch (s : State) (a n v : Nat) : (s.write a n v).nextLaunch = s.nextLaunch := rfl
@[simp] theorem State.write_spawns (s : State) (a n v : Nat) : (s.write a n v).spawns = s.spawns := rfl
@[simp] theorem State.write_power (s : State) (a n v : Nat) : (s.write a n v).power = s.power := rfl
@[simp] theorem State.write_fw (s : State) (a n v : Nat) : (s.write a n v).fw = s.fw := rfl
@[simp] theorem State.write_fence (s : State) (a n v : Nat) : (s.write a n v).fence = s.fence := rfl
@[simp] theorem State.write_refCount (s : State) (a n v : Nat) : (s.write a n v).refCount = s.refCount := rfl
@[simp] theorem State.write_dieCycle (s : State) (a n v : Nat) : (s.write a n v).dieCycle = s.dieCycle := rfl
@[simp] theorem State.write_badRegs (s : State) (a n v : Nat) : (s.write a n v).badRegs = s.badRegs := rfl
@[simp] theorem State.write_cur (s : State) (a n v : Nat) : (s.write a n v).cur = s.cur := rfl
@[simp] theorem State.write_agenda (s : State) (a n v : Nat) : (s.write a n v).agenda = s.agenda := rfl
@[simp] theorem State.write_free (s : State) (a n v : Nat) : (s.write a n v).free = s.free := rfl
@[simp] theorem State.clear_cores (s : State) (a n : Nat) : (s.clear a n).cores = s.cores := rfl
@[simp] theorem State.clear_hives (s : State) (a n : Nat) : (s.clear a n).hives = s.hives := rfl
@[simp] theorem State.clear_dies (s : State) (a n : Nat) : (s.clear a n).dies = s.dies := rfl
@[simp] theorem State.clear_parts (s : State) (a n : Nat) : (s.clear a n).parts = s.parts := rfl
@[simp] theorem State.clear_launches (s : State) (a n : Nat) : (s.clear a n).launches = s.launches := rfl
@[simp] theorem State.clear_nextLaunch (s : State) (a n : Nat) : (s.clear a n).nextLaunch = s.nextLaunch := rfl
@[simp] theorem State.clear_spawns (s : State) (a n : Nat) : (s.clear a n).spawns = s.spawns := rfl
@[simp] theorem State.clear_power (s : State) (a n : Nat) : (s.clear a n).power = s.power := rfl
@[simp] theorem State.clear_fw (s : State) (a n : Nat) : (s.clear a n).fw = s.fw := rfl
@[simp] theorem State.clear_fence (s : State) (a n : Nat) : (s.clear a n).fence = s.fence := rfl
@[simp] theorem State.clear_refCount (s : State) (a n : Nat) : (s.clear a n).refCount = s.refCount := rfl
@[simp] theorem State.clear_dieCycle (s : State) (a n : Nat) : (s.clear a n).dieCycle = s.dieCycle := rfl
@[simp] theorem State.clear_badRegs (s : State) (a n : Nat) : (s.clear a n).badRegs = s.badRegs := rfl
@[simp] theorem State.clear_cur (s : State) (a n : Nat) : (s.clear a n).cur = s.cur := rfl
@[simp] theorem State.clear_agenda (s : State) (a n : Nat) : (s.clear a n).agenda = s.agenda := rfl
@[simp] theorem State.clear_free (s : State) (a n : Nat) : (s.clear a n).free = s.free := rfl
@[simp] theorem State.fresh_cores (s : State) : (s.fresh.2).cores = s.cores := rfl
@[simp] theorem State.fresh_hives (s : State) : (s.fresh.2).hives = s.hives := rfl
@[simp] theorem State.fresh_dies (s : State) : (s.fresh.2).dies = s.dies := rfl
@[simp] theorem State.fresh_parts (s : State) : (s.fresh.2).parts = s.parts := rfl
@[simp] theorem State.fresh_launches (s : State) : (s.fresh.2).launches = s.launches := rfl
@[simp] theorem State.fresh_nextLaunch (s : State) : (s.fresh.2).nextLaunch = s.nextLaunch := rfl
@[simp] theorem State.fresh_spawns (s : State) : (s.fresh.2).spawns = s.spawns := rfl
@[simp] theorem State.fresh_power (s : State) : (s.fresh.2).power = s.power := rfl
@[simp] theorem State.fresh_fw (s : State) : (s.fresh.2).fw = s.fw := rfl
@[simp] theorem State.fresh_fence (s : State) : (s.fresh.2).fence = s.fence := rfl
@[simp] theorem State.fresh_refCount (s : State) : (s.fresh.2).refCount = s.refCount := rfl
@[simp] theorem State.fresh_dieCycle (s : State) : (s.fresh.2).dieCycle = s.dieCycle := rfl
@[simp] theorem State.fresh_mem (s : State) : (s.fresh.2).mem = s.mem := rfl
@[simp] theorem State.fresh_poisoned (s : State) : (s.fresh.2).poisoned = s.poisoned := rfl
@[simp] theorem State.fresh_badRegs (s : State) : (s.fresh.2).badRegs = s.badRegs := rfl
@[simp] theorem State.fresh_cur (s : State) : (s.fresh.2).cur = s.cur := rfl
@[simp] theorem State.fresh_agenda (s : State) : (s.fresh.2).agenda = s.agenda := rfl

/-! ## Parts of the state -/

@[simp] theorem State.core_setCore_self (s : State) (k : CoreId) (c : Core) : (s.setCore k c).core k = c := by
  simp [State.core, State.setCore]

@[simp] theorem State.core_setCore_ne (s : State) {k j : CoreId} (h : j ≠ k) (c : Core) :
    (s.setCore k c).core j = s.core j := by
  simp [State.core, State.setCore, h]

@[simp] theorem State.hive_setHive_self (s : State) (h : HiveId) (x : Hive) : (s.setHive h x).hive h = x := by
  simp [State.hive, State.setHive]

@[simp] theorem State.hive_setHive_ne (s : State) {h g : HiveId} (n : g ≠ h) (x : Hive) :
    (s.setHive h x).hive g = s.hive g := by
  simp [State.hive, State.setHive, n]

@[simp] theorem State.die_setDie_self (s : State) (d : Nat) (x : Die) : (s.setDie d x).die d = x := by
  simp [State.die, State.setDie]

@[simp] theorem State.die_setDie_ne (s : State) {d e : Nat} (n : e ≠ d) (x : Die) : (s.setDie d x).die e = s.die e := by
  simp [State.die, State.setDie, n]

@[simp] theorem State.part_setPart_self (s : State) (p : Nat) (x : Partition) : (s.setPart p x).part p = x := by
  simp [State.part, State.setPart]

@[simp] theorem State.part_setPart_ne (s : State) {p q : Nat} (n : q ≠ p) (x : Partition) :
    (s.setPart p x).part q = s.part q := by
  simp [State.part, State.setPart, n]

@[simp] theorem State.ctx_setCtx_self (s : State) (c : CtxId) (x : Context) : (s.setCtx c x).ctx c = x := by
  simp [State.ctx, State.setCtx]

theorem State.ctx_setCtx_ne (s : State) {c d : CtxId} (n : d ≠ c) (x : Context) : (s.setCtx c x).ctx d = s.ctx d := by
  by_cases h : d.core = c.core
  · have hn : c.num ≠ d.num := fun e => n (by cases c; cases d; simp_all)
    have hv : c.num.val ≠ d.num.val := fun e => hn (Fin.ext e)
    simp [State.ctx, State.setCtx, h, hv]
  · simp [State.ctx, State.setCtx, h]

@[simp] theorem State.me_setMe (s : State) (x : Context) : (s.setMe x).me = x := by
  simp [State.me, State.setMe, State.setCtx, State.ctx]

@[simp] theorem State.myCore_setMyCore (s : State) (x : Core) : (s.setMyCore x).myCore = x := by
  simp [State.myCore, State.setMyCore]

theorem State.ctx_setMe_ne (s : State) {d : CtxId} (n : d ≠ s.cur) (x : Context) : (s.setMe x).ctx d = s.ctx d :=
  s.ctx_setCtx_ne n x

@[simp] theorem State.core_setMe_ne (s : State) {k : CoreId} (n : k ≠ s.cur.core) (x : Context) :
    (s.setMe x).core k = s.core k := by
  simp [State.setMe, State.setCtx, n]

@[simp] theorem State.me_advance (s : State) (len : BitVec 2) : (s.advance len).me = s.me.advance len := by
  simp [State.advance]


@[simp] theorem State.hive_setCore (s : State) (k : CoreId) (c : Core) (h : HiveId) : (s.setCore k c).hive h = s.hive h := rfl
@[simp] theorem State.hive_setDie (s : State) (k : Nat) (x : Die) (h : HiveId) : (s.setDie k x).hive h = s.hive h := rfl
@[simp] theorem State.hive_setPart (s : State) (k : Nat) (x : Partition) (h : HiveId) : (s.setPart k x).hive h = s.hive h := rfl
@[simp] theorem State.hive_setLaunch (s : State) (k : Nat) (x : Launch) (h : HiveId) : (s.setLaunch k x).hive h = s.hive h := rfl
@[simp] theorem State.hive_setCtx (s : State) (c : CtxId) (x : Context) (h : HiveId) : (s.setCtx c x).hive h = s.hive h := rfl
@[simp] theorem State.hive_setMe (s : State) (x : Context) (h : HiveId) : (s.setMe x).hive h = s.hive h := rfl
@[simp] theorem State.hive_setMyCore (s : State) (x : Core) (h : HiveId) : (s.setMyCore x).hive h = s.hive h := rfl
@[simp] theorem State.hive_advance (s : State) (len : BitVec 2) (h : HiveId) : (s.advance len).hive h = s.hive h := rfl
@[simp] theorem State.hive_write (s : State) (b n v : Nat) (h : HiveId) : (s.write b n v).hive h = s.hive h := rfl
@[simp] theorem State.die_setCore (s : State) (k : CoreId) (c : Core) (d : Nat) : (s.setCore k c).die d = s.die d := rfl
@[simp] theorem State.die_setHive (s : State) (k : HiveId) (x : Hive) (d : Nat) : (s.setHive k x).die d = s.die d := rfl
@[simp] theorem State.die_setPart (s : State) (k : Nat) (x : Partition) (d : Nat) : (s.setPart k x).die d = s.die d := rfl
@[simp] theorem State.die_setLaunch (s : State) (k : Nat) (x : Launch) (d : Nat) : (s.setLaunch k x).die d = s.die d := rfl
@[simp] theorem State.die_setCtx (s : State) (c : CtxId) (x : Context) (d : Nat) : (s.setCtx c x).die d = s.die d := rfl
@[simp] theorem State.die_setMe (s : State) (x : Context) (d : Nat) : (s.setMe x).die d = s.die d := rfl
@[simp] theorem State.die_setMyCore (s : State) (x : Core) (d : Nat) : (s.setMyCore x).die d = s.die d := rfl
@[simp] theorem State.die_advance (s : State) (len : BitVec 2) (d : Nat) : (s.advance len).die d = s.die d := rfl
@[simp] theorem State.die_write (s : State) (b n v : Nat) (d : Nat) : (s.write b n v).die d = s.die d := rfl
@[simp] theorem State.part_setCore (s : State) (k : CoreId) (c : Core) (p : Nat) : (s.setCore k c).part p = s.part p := rfl
@[simp] theorem State.part_setHive (s : State) (k : HiveId) (x : Hive) (p : Nat) : (s.setHive k x).part p = s.part p := rfl
@[simp] theorem State.part_setDie (s : State) (k : Nat) (x : Die) (p : Nat) : (s.setDie k x).part p = s.part p := rfl
@[simp] theorem State.part_setLaunch (s : State) (k : Nat) (x : Launch) (p : Nat) : (s.setLaunch k x).part p = s.part p := rfl
@[simp] theorem State.part_setCtx (s : State) (c : CtxId) (x : Context) (p : Nat) : (s.setCtx c x).part p = s.part p := rfl
@[simp] theorem State.part_setMe (s : State) (x : Context) (p : Nat) : (s.setMe x).part p = s.part p := rfl
@[simp] theorem State.part_setMyCore (s : State) (x : Core) (p : Nat) : (s.setMyCore x).part p = s.part p := rfl
@[simp] theorem State.part_advance (s : State) (len : BitVec 2) (p : Nat) : (s.advance len).part p = s.part p := rfl
@[simp] theorem State.part_write (s : State) (b n v : Nat) (p : Nat) : (s.write b n v).part p = s.part p := rfl
@[simp] theorem State.launch_setCore (s : State) (k : CoreId) (c : Core) (l : Nat) : (s.setCore k c).launch? l = s.launch? l := rfl
@[simp] theorem State.launch_setHive (s : State) (k : HiveId) (x : Hive) (l : Nat) : (s.setHive k x).launch? l = s.launch? l := rfl
@[simp] theorem State.launch_setDie (s : State) (k : Nat) (x : Die) (l : Nat) : (s.setDie k x).launch? l = s.launch? l := rfl
@[simp] theorem State.launch_setPart (s : State) (k : Nat) (x : Partition) (l : Nat) : (s.setPart k x).launch? l = s.launch? l := rfl
@[simp] theorem State.launch_setCtx (s : State) (c : CtxId) (x : Context) (l : Nat) : (s.setCtx c x).launch? l = s.launch? l := rfl
@[simp] theorem State.launch_setMe (s : State) (x : Context) (l : Nat) : (s.setMe x).launch? l = s.launch? l := rfl
@[simp] theorem State.launch_setMyCore (s : State) (x : Core) (l : Nat) : (s.setMyCore x).launch? l = s.launch? l := rfl
@[simp] theorem State.launch_advance (s : State) (len : BitVec 2) (l : Nat) : (s.advance len).launch? l = s.launch? l := rfl
@[simp] theorem State.launch_write (s : State) (b n v : Nat) (l : Nat) : (s.write b n v).launch? l = s.launch? l := rfl

@[simp] theorem State.core_write (s : State) (a n v : Nat) (k : CoreId) : (s.write a n v).core k = s.core k := rfl
@[simp] theorem State.ctx_write (s : State) (a n v : Nat) (c : CtxId) : (s.write a n v).ctx c = s.ctx c := rfl
@[simp] theorem State.me_write (s : State) (a n v : Nat) : (s.write a n v).me = s.me := rfl
@[simp] theorem State.byte_setMe (s : State) (x : Context) (a : Nat) : (s.setMe x).byte a = s.byte a := rfl
@[simp] theorem State.byte_setCore (s : State) (k : CoreId) (c : Core) (a : Nat) : (s.setCore k c).byte a = s.byte a := rfl
@[simp] theorem State.byte_setHive (s : State) (h : HiveId) (x : Hive) (a : Nat) : (s.setHive h x).byte a = s.byte a := rfl
@[simp] theorem State.byte_advance (s : State) (len : BitVec 2) (a : Nat) : (s.advance len).byte a = s.byte a := rfl

/-! ## Registers -/

@[simp] theorem Context.getS_zero (m : Context) : m.getS 0 = 0 := by simp [Context.getS]

@[simp] theorem Context.getP_zero (m : Context) : m.getP 0 = BitVec.allOnes 64 := by simp [Context.getP]

theorem Context.getS_setS (m : Context) (r q : Reg) (v : Word) :
    (m.setS r v).getS q = if q = 0 then 0 else if q = r then v else m.getS q := by
  unfold Context.setS Context.getS
  split
  · rfl
  · rename_i hq
    by_cases hr : r = 0
    · have h : q ≠ r := fun e => hq (e.trans hr)
      rw [if_pos hr, if_neg h]
    · rw [if_neg hr]
      by_cases h : q = r
      · subst h; rw [if_pos rfl]; simp
      · have hn : r.toNat ≠ q.toNat := fun e => h (BitVec.eq_of_toNat_eq e.symm)
        rw [if_neg h]; simp [hn]

theorem Context.getV_setV (m : Context) (r q : Reg) (v : VWord) :
    (m.setV r v).getV q = if q = r then v else m.getV q := by
  by_cases h : q = r
  · subst h; simp [Context.getV, Context.setV]
  · have hn : r.toNat ≠ q.toNat := fun e => h (BitVec.eq_of_toNat_eq e.symm)
    simp [Context.getV, Context.setV, h, hn]

theorem Context.getP_setP (m : Context) (r q : BitVec 3) (v : Word) :
    (m.setP r v).getP q = if q = 0 then BitVec.allOnes 64 else if q = r then v else m.getP q := by
  unfold Context.setP Context.getP
  split
  · rfl
  · rename_i hq
    by_cases hr : r = 0
    · have h : q ≠ r := fun e => hq (e.trans hr)
      rw [if_pos hr, if_neg h]
    · rw [if_neg hr]
      by_cases h : q = r
      · subst h; rw [if_pos rfl]; simp
      · have hn : r.toNat ≠ q.toNat := fun e => h (BitVec.eq_of_toNat_eq e.symm)
        rw [if_neg h]; simp [hn]

@[simp] theorem Context.setS_zero (m : Context) (v : Word) : m.setS 0 v = m := by simp [Context.setS]

@[simp] theorem Context.setP_zero (m : Context) (v : Word) : m.setP 0 v = m := by simp [Context.setP]

/-! ## Fields of a context -/

@[simp] theorem Context.setS_v (m : Context) (r : Reg) (v : Word) : (m.setS r v).v = m.v := by
  unfold Context.setS; split <;> rfl
@[simp] theorem Context.setS_p (m : Context) (r : Reg) (v : Word) : (m.setS r v).p = m.p := by
  unfold Context.setS; split <;> rfl
@[simp] theorem Context.setS_pc (m : Context) (r : Reg) (v : Word) : (m.setS r v).pc = m.pc := by
  unfold Context.setS; split <;> rfl
@[simp] theorem Context.setS_sup (m : Context) (r : Reg) (v : Word) : (m.setS r v).sup = m.sup := by
  unfold Context.setS; split <;> rfl
@[simp] theorem Context.setS_fctl (m : Context) (r : Reg) (v : Word) : (m.setS r v).fctl = m.fctl := by
  unfold Context.setS; split <;> rfl
@[simp] theorem Context.setS_tvec (m : Context) (r : Reg) (v : Word) : (m.setS r v).tvec = m.tvec := by
  unfold Context.setS; split <;> rfl
@[simp] theorem Context.setS_tinh (m : Context) (r : Reg) (v : Word) : (m.setS r v).tinh = m.tinh := by
  unfold Context.setS; split <;> rfl
@[simp] theorem Context.setS_tpm (m : Context) (r : Reg) (v : Word) : (m.setS r v).tpm = m.tpm := by
  unfold Context.setS; split <;> rfl
@[simp] theorem Context.setS_tlen (m : Context) (r : Reg) (v : Word) : (m.setS r v).tlen = m.tlen := by
  unfold Context.setS; split <;> rfl
@[simp] theorem Context.setS_tcode (m : Context) (r : Reg) (v : Word) : (m.setS r v).tcode = m.tcode := by
  unfold Context.setS; split <;> rfl
@[simp] theorem Context.setS_tpc (m : Context) (r : Reg) (v : Word) : (m.setS r v).tpc = m.tpc := by
  unfold Context.setS; split <;> rfl
@[simp] theorem Context.setS_tval (m : Context) (r : Reg) (v : Word) : (m.setS r v).tval = m.tval := by
  unfold Context.setS; split <;> rfl
@[simp] theorem Context.setS_tscr (m : Context) (r : Reg) (v : Word) : (m.setS r v).tscr = m.tscr := by
  unfold Context.setS; split <;> rfl
@[simp] theorem Context.setS_rasp (m : Context) (r : Reg) (v : Word) : (m.setS r v).rasp = m.rasp := by
  unfold Context.setS; split <;> rfl
@[simp] theorem Context.setS_rasl (m : Context) (r : Reg) (v : Word) : (m.setS r v).rasl = m.rasl := by
  unfold Context.setS; split <;> rfl
@[simp] theorem Context.setS_rasn (m : Context) (r : Reg) (v : Word) : (m.setS r v).rasn = m.rasn := by
  unfold Context.setS; split <;> rfl
@[simp] theorem Context.setS_ras (m : Context) (r : Reg) (v : Word) : (m.setS r v).ras = m.ras := by
  unfold Context.setS; split <;> rfl
@[simp] theorem Context.setS_spillBase (m : Context) (r : Reg) (v : Word) : (m.setS r v).spillBase = m.spillBase := by
  unfold Context.setS; split <;> rfl
@[simp] theorem Context.setS_spillLimit (m : Context) (r : Reg) (v : Word) : (m.setS r v).spillLimit = m.spillLimit := by
  unfold Context.setS; split <;> rfl
@[simp] theorem Context.setS_tags (m : Context) (r : Reg) (v : Word) : (m.setS r v).tags = m.tags := by
  unfold Context.setS; split <;> rfl
@[simp] theorem Context.setS_dist (m : Context) (r : Reg) (v : Word) : (m.setS r v).dist = m.dist := by
  unfold Context.setS; split <;> rfl
@[simp] theorem Context.setS_work (m : Context) (r : Reg) (v : Word) : (m.setS r v).work = m.work := by
  unfold Context.setS; split <;> rfl
@[simp] theorem Context.setS_lampcls (m : Context) (r : Reg) (v : Word) : (m.setS r v).lampcls = m.lampcls := by
  unfold Context.setS; split <;> rfl
@[simp] theorem Context.setS_live (m : Context) (r : Reg) (v : Word) : (m.setS r v).live = m.live := by
  unfold Context.setS; split <;> rfl
@[simp] theorem Context.setS_blocked (m : Context) (r : Reg) (v : Word) : (m.setS r v).blocked = m.blocked := by
  unfold Context.setS; split <;> rfl
@[simp] theorem Context.setS_stopped (m : Context) (r : Reg) (v : Word) : (m.setS r v).stopped = m.stopped := by
  unfold Context.setS; split <;> rfl
@[simp] theorem Context.setS_parked (m : Context) (r : Reg) (v : Word) : (m.setS r v).parked = m.parked := by
  unfold Context.setS; split <;> rfl
@[simp] theorem Context.setS_yielding (m : Context) (r : Reg) (v : Word) : (m.setS r v).yielding = m.yielding := by
  unfold Context.setS; split <;> rfl
@[simp] theorem Context.setS_copyTl (m : Context) (r : Reg) (v : Word) : (m.setS r v).copyTl = m.copyTl := by
  unfold Context.setS; split <;> rfl
@[simp] theorem Context.setS_matTl (m : Context) (r : Reg) (v : Word) : (m.setS r v).matTl = m.matTl := by
  unfold Context.setS; split <;> rfl
@[simp] theorem Context.setS_collTl (m : Context) (r : Reg) (v : Word) : (m.setS r v).collTl = m.collTl := by
  unfold Context.setS; split <;> rfl
@[simp] theorem Context.setS_batches (m : Context) (r : Reg) (v : Word) : (m.setS r v).batches = m.batches := by
  unfold Context.setS; split <;> rfl
@[simp] theorem Context.setS_mailbox (m : Context) (r : Reg) (v : Word) : (m.setS r v).mailbox = m.mailbox := by
  unfold Context.setS; split <;> rfl
@[simp] theorem Context.setS_groups (m : Context) (r : Reg) (v : Word) : (m.setS r v).groups = m.groups := by
  unfold Context.setS; split <;> rfl
@[simp] theorem Context.setS_takes (m : Context) (r : Reg) (v : Word) : (m.setS r v).takes = m.takes := by
  unfold Context.setS; split <;> rfl
@[simp] theorem Context.setS_pendS (m : Context) (r : Reg) (v : Word) : (m.setS r v).pendS = m.pendS := by
  unfold Context.setS; split <;> rfl
@[simp] theorem Context.setS_pendV (m : Context) (r : Reg) (v : Word) : (m.setS r v).pendV = m.pendV := by
  unfold Context.setS; split <;> rfl
@[simp] theorem Context.setS_pendP (m : Context) (r : Reg) (v : Word) : (m.setS r v).pendP = m.pendP := by
  unfold Context.setS; split <;> rfl
@[simp] theorem Context.setS_flagQueue (m : Context) (r : Reg) (v : Word) : (m.setS r v).flagQueue = m.flagQueue := by
  unfold Context.setS; split <;> rfl
@[simp] theorem Context.setS_nextTag (m : Context) (r : Reg) (v : Word) : (m.setS r v).nextTag = m.nextTag := by
  unfold Context.setS; split <;> rfl
@[simp] theorem Context.setS_pendingTrap (m : Context) (r : Reg) (v : Word) : (m.setS r v).pendingTrap = m.pendingTrap := by
  unfold Context.setS; split <;> rfl
@[simp] theorem Context.setS_creditWait (m : Context) (r : Reg) (v : Word) : (m.setS r v).creditWait = m.creditWait := by
  unfold Context.setS; split <;> rfl
@[simp] theorem Context.setS_nextIssue (m : Context) (r : Reg) (v : Word) : (m.setS r v).nextIssue = m.nextIssue := by
  unfold Context.setS; split <;> rfl
@[simp] theorem Context.setS_wakeAt (m : Context) (r : Reg) (v : Word) : (m.setS r v).wakeAt = m.wakeAt := by
  unfold Context.setS; split <;> rfl
@[simp] theorem Context.setS_throttle (m : Context) (r : Reg) (v : Word) : (m.setS r v).throttle = m.throttle := by
  unfold Context.setS; split <;> rfl
@[simp] theorem Context.setS_getV (m : Context) (r : Reg) (v : Word) (q : Reg) : (m.setS r v).getV q = m.getV q := by
  unfold Context.setS; split <;> rfl
@[simp] theorem Context.setS_getP (m : Context) (r : Reg) (v : Word) (q : BitVec 3) : (m.setS r v).getP q = m.getP q := by
  unfold Context.setS; split <;> rfl
@[simp] theorem Context.setV_s (m : Context) (r : Reg) (v : VWord) : (m.setV r v).s = m.s := rfl
@[simp] theorem Context.setV_p (m : Context) (r : Reg) (v : VWord) : (m.setV r v).p = m.p := rfl
@[simp] theorem Context.setV_pc (m : Context) (r : Reg) (v : VWord) : (m.setV r v).pc = m.pc := rfl
@[simp] theorem Context.setV_sup (m : Context) (r : Reg) (v : VWord) : (m.setV r v).sup = m.sup := rfl
@[simp] theorem Context.setV_fctl (m : Context) (r : Reg) (v : VWord) : (m.setV r v).fctl = m.fctl := rfl
@[simp] theorem Context.setV_tvec (m : Context) (r : Reg) (v : VWord) : (m.setV r v).tvec = m.tvec := rfl
@[simp] theorem Context.setV_tinh (m : Context) (r : Reg) (v : VWord) : (m.setV r v).tinh = m.tinh := rfl
@[simp] theorem Context.setV_tpm (m : Context) (r : Reg) (v : VWord) : (m.setV r v).tpm = m.tpm := rfl
@[simp] theorem Context.setV_tlen (m : Context) (r : Reg) (v : VWord) : (m.setV r v).tlen = m.tlen := rfl
@[simp] theorem Context.setV_tcode (m : Context) (r : Reg) (v : VWord) : (m.setV r v).tcode = m.tcode := rfl
@[simp] theorem Context.setV_tpc (m : Context) (r : Reg) (v : VWord) : (m.setV r v).tpc = m.tpc := rfl
@[simp] theorem Context.setV_tval (m : Context) (r : Reg) (v : VWord) : (m.setV r v).tval = m.tval := rfl
@[simp] theorem Context.setV_tscr (m : Context) (r : Reg) (v : VWord) : (m.setV r v).tscr = m.tscr := rfl
@[simp] theorem Context.setV_rasp (m : Context) (r : Reg) (v : VWord) : (m.setV r v).rasp = m.rasp := rfl
@[simp] theorem Context.setV_rasl (m : Context) (r : Reg) (v : VWord) : (m.setV r v).rasl = m.rasl := rfl
@[simp] theorem Context.setV_rasn (m : Context) (r : Reg) (v : VWord) : (m.setV r v).rasn = m.rasn := rfl
@[simp] theorem Context.setV_ras (m : Context) (r : Reg) (v : VWord) : (m.setV r v).ras = m.ras := rfl
@[simp] theorem Context.setV_spillBase (m : Context) (r : Reg) (v : VWord) : (m.setV r v).spillBase = m.spillBase := rfl
@[simp] theorem Context.setV_spillLimit (m : Context) (r : Reg) (v : VWord) : (m.setV r v).spillLimit = m.spillLimit := rfl
@[simp] theorem Context.setV_spec (m : Context) (r : Reg) (v : VWord) : (m.setV r v).spec = m.spec := rfl
@[simp] theorem Context.setV_tags (m : Context) (r : Reg) (v : VWord) : (m.setV r v).tags = m.tags := rfl
@[simp] theorem Context.setV_dist (m : Context) (r : Reg) (v : VWord) : (m.setV r v).dist = m.dist := rfl
@[simp] theorem Context.setV_work (m : Context) (r : Reg) (v : VWord) : (m.setV r v).work = m.work := rfl
@[simp] theorem Context.setV_lampcls (m : Context) (r : Reg) (v : VWord) : (m.setV r v).lampcls = m.lampcls := rfl
@[simp] theorem Context.setV_live (m : Context) (r : Reg) (v : VWord) : (m.setV r v).live = m.live := rfl
@[simp] theorem Context.setV_blocked (m : Context) (r : Reg) (v : VWord) : (m.setV r v).blocked = m.blocked := rfl
@[simp] theorem Context.setV_stopped (m : Context) (r : Reg) (v : VWord) : (m.setV r v).stopped = m.stopped := rfl
@[simp] theorem Context.setV_parked (m : Context) (r : Reg) (v : VWord) : (m.setV r v).parked = m.parked := rfl
@[simp] theorem Context.setV_yielding (m : Context) (r : Reg) (v : VWord) : (m.setV r v).yielding = m.yielding := rfl
@[simp] theorem Context.setV_copyTl (m : Context) (r : Reg) (v : VWord) : (m.setV r v).copyTl = m.copyTl := rfl
@[simp] theorem Context.setV_matTl (m : Context) (r : Reg) (v : VWord) : (m.setV r v).matTl = m.matTl := rfl
@[simp] theorem Context.setV_collTl (m : Context) (r : Reg) (v : VWord) : (m.setV r v).collTl = m.collTl := rfl
@[simp] theorem Context.setV_batches (m : Context) (r : Reg) (v : VWord) : (m.setV r v).batches = m.batches := rfl
@[simp] theorem Context.setV_mailbox (m : Context) (r : Reg) (v : VWord) : (m.setV r v).mailbox = m.mailbox := rfl
@[simp] theorem Context.setV_groups (m : Context) (r : Reg) (v : VWord) : (m.setV r v).groups = m.groups := rfl
@[simp] theorem Context.setV_takes (m : Context) (r : Reg) (v : VWord) : (m.setV r v).takes = m.takes := rfl
@[simp] theorem Context.setV_pendS (m : Context) (r : Reg) (v : VWord) : (m.setV r v).pendS = m.pendS := rfl
@[simp] theorem Context.setV_pendV (m : Context) (r : Reg) (v : VWord) : (m.setV r v).pendV = m.pendV := rfl
@[simp] theorem Context.setV_pendP (m : Context) (r : Reg) (v : VWord) : (m.setV r v).pendP = m.pendP := rfl
@[simp] theorem Context.setV_flagQueue (m : Context) (r : Reg) (v : VWord) : (m.setV r v).flagQueue = m.flagQueue := rfl
@[simp] theorem Context.setV_nextTag (m : Context) (r : Reg) (v : VWord) : (m.setV r v).nextTag = m.nextTag := rfl
@[simp] theorem Context.setV_pendingTrap (m : Context) (r : Reg) (v : VWord) : (m.setV r v).pendingTrap = m.pendingTrap := rfl
@[simp] theorem Context.setV_creditWait (m : Context) (r : Reg) (v : VWord) : (m.setV r v).creditWait = m.creditWait := rfl
@[simp] theorem Context.setV_nextIssue (m : Context) (r : Reg) (v : VWord) : (m.setV r v).nextIssue = m.nextIssue := rfl
@[simp] theorem Context.setV_wakeAt (m : Context) (r : Reg) (v : VWord) : (m.setV r v).wakeAt = m.wakeAt := rfl
@[simp] theorem Context.setV_throttle (m : Context) (r : Reg) (v : VWord) : (m.setV r v).throttle = m.throttle := rfl
@[simp] theorem Context.setV_getS (m : Context) (r : Reg) (v : VWord) (q : Reg) : (m.setV r v).getS q = m.getS q := rfl
@[simp] theorem Context.setV_getP (m : Context) (r : Reg) (v : VWord) (q : BitVec 3) : (m.setV r v).getP q = m.getP q := rfl
@[simp] theorem Context.setP_s (m : Context) (r : BitVec 3) (v : Word) : (m.setP r v).s = m.s := by
  unfold Context.setP; split <;> rfl
@[simp] theorem Context.setP_v (m : Context) (r : BitVec 3) (v : Word) : (m.setP r v).v = m.v := by
  unfold Context.setP; split <;> rfl
@[simp] theorem Context.setP_pc (m : Context) (r : BitVec 3) (v : Word) : (m.setP r v).pc = m.pc := by
  unfold Context.setP; split <;> rfl
@[simp] theorem Context.setP_sup (m : Context) (r : BitVec 3) (v : Word) : (m.setP r v).sup = m.sup := by
  unfold Context.setP; split <;> rfl
@[simp] theorem Context.setP_fctl (m : Context) (r : BitVec 3) (v : Word) : (m.setP r v).fctl = m.fctl := by
  unfold Context.setP; split <;> rfl
@[simp] theorem Context.setP_tvec (m : Context) (r : BitVec 3) (v : Word) : (m.setP r v).tvec = m.tvec := by
  unfold Context.setP; split <;> rfl
@[simp] theorem Context.setP_tinh (m : Context) (r : BitVec 3) (v : Word) : (m.setP r v).tinh = m.tinh := by
  unfold Context.setP; split <;> rfl
@[simp] theorem Context.setP_tpm (m : Context) (r : BitVec 3) (v : Word) : (m.setP r v).tpm = m.tpm := by
  unfold Context.setP; split <;> rfl
@[simp] theorem Context.setP_tlen (m : Context) (r : BitVec 3) (v : Word) : (m.setP r v).tlen = m.tlen := by
  unfold Context.setP; split <;> rfl
@[simp] theorem Context.setP_tcode (m : Context) (r : BitVec 3) (v : Word) : (m.setP r v).tcode = m.tcode := by
  unfold Context.setP; split <;> rfl
@[simp] theorem Context.setP_tpc (m : Context) (r : BitVec 3) (v : Word) : (m.setP r v).tpc = m.tpc := by
  unfold Context.setP; split <;> rfl
@[simp] theorem Context.setP_tval (m : Context) (r : BitVec 3) (v : Word) : (m.setP r v).tval = m.tval := by
  unfold Context.setP; split <;> rfl
@[simp] theorem Context.setP_tscr (m : Context) (r : BitVec 3) (v : Word) : (m.setP r v).tscr = m.tscr := by
  unfold Context.setP; split <;> rfl
@[simp] theorem Context.setP_rasp (m : Context) (r : BitVec 3) (v : Word) : (m.setP r v).rasp = m.rasp := by
  unfold Context.setP; split <;> rfl
@[simp] theorem Context.setP_rasl (m : Context) (r : BitVec 3) (v : Word) : (m.setP r v).rasl = m.rasl := by
  unfold Context.setP; split <;> rfl
@[simp] theorem Context.setP_rasn (m : Context) (r : BitVec 3) (v : Word) : (m.setP r v).rasn = m.rasn := by
  unfold Context.setP; split <;> rfl
@[simp] theorem Context.setP_ras (m : Context) (r : BitVec 3) (v : Word) : (m.setP r v).ras = m.ras := by
  unfold Context.setP; split <;> rfl
@[simp] theorem Context.setP_spillBase (m : Context) (r : BitVec 3) (v : Word) : (m.setP r v).spillBase = m.spillBase := by
  unfold Context.setP; split <;> rfl
@[simp] theorem Context.setP_spillLimit (m : Context) (r : BitVec 3) (v : Word) : (m.setP r v).spillLimit = m.spillLimit := by
  unfold Context.setP; split <;> rfl
@[simp] theorem Context.setP_spec (m : Context) (r : BitVec 3) (v : Word) : (m.setP r v).spec = m.spec := by
  unfold Context.setP; split <;> rfl
@[simp] theorem Context.setP_tags (m : Context) (r : BitVec 3) (v : Word) : (m.setP r v).tags = m.tags := by
  unfold Context.setP; split <;> rfl
@[simp] theorem Context.setP_dist (m : Context) (r : BitVec 3) (v : Word) : (m.setP r v).dist = m.dist := by
  unfold Context.setP; split <;> rfl
@[simp] theorem Context.setP_work (m : Context) (r : BitVec 3) (v : Word) : (m.setP r v).work = m.work := by
  unfold Context.setP; split <;> rfl
@[simp] theorem Context.setP_lampcls (m : Context) (r : BitVec 3) (v : Word) : (m.setP r v).lampcls = m.lampcls := by
  unfold Context.setP; split <;> rfl
@[simp] theorem Context.setP_live (m : Context) (r : BitVec 3) (v : Word) : (m.setP r v).live = m.live := by
  unfold Context.setP; split <;> rfl
@[simp] theorem Context.setP_blocked (m : Context) (r : BitVec 3) (v : Word) : (m.setP r v).blocked = m.blocked := by
  unfold Context.setP; split <;> rfl
@[simp] theorem Context.setP_stopped (m : Context) (r : BitVec 3) (v : Word) : (m.setP r v).stopped = m.stopped := by
  unfold Context.setP; split <;> rfl
@[simp] theorem Context.setP_parked (m : Context) (r : BitVec 3) (v : Word) : (m.setP r v).parked = m.parked := by
  unfold Context.setP; split <;> rfl
@[simp] theorem Context.setP_yielding (m : Context) (r : BitVec 3) (v : Word) : (m.setP r v).yielding = m.yielding := by
  unfold Context.setP; split <;> rfl
@[simp] theorem Context.setP_copyTl (m : Context) (r : BitVec 3) (v : Word) : (m.setP r v).copyTl = m.copyTl := by
  unfold Context.setP; split <;> rfl
@[simp] theorem Context.setP_matTl (m : Context) (r : BitVec 3) (v : Word) : (m.setP r v).matTl = m.matTl := by
  unfold Context.setP; split <;> rfl
@[simp] theorem Context.setP_collTl (m : Context) (r : BitVec 3) (v : Word) : (m.setP r v).collTl = m.collTl := by
  unfold Context.setP; split <;> rfl
@[simp] theorem Context.setP_batches (m : Context) (r : BitVec 3) (v : Word) : (m.setP r v).batches = m.batches := by
  unfold Context.setP; split <;> rfl
@[simp] theorem Context.setP_mailbox (m : Context) (r : BitVec 3) (v : Word) : (m.setP r v).mailbox = m.mailbox := by
  unfold Context.setP; split <;> rfl
@[simp] theorem Context.setP_groups (m : Context) (r : BitVec 3) (v : Word) : (m.setP r v).groups = m.groups := by
  unfold Context.setP; split <;> rfl
@[simp] theorem Context.setP_takes (m : Context) (r : BitVec 3) (v : Word) : (m.setP r v).takes = m.takes := by
  unfold Context.setP; split <;> rfl
@[simp] theorem Context.setP_pendS (m : Context) (r : BitVec 3) (v : Word) : (m.setP r v).pendS = m.pendS := by
  unfold Context.setP; split <;> rfl
@[simp] theorem Context.setP_pendV (m : Context) (r : BitVec 3) (v : Word) : (m.setP r v).pendV = m.pendV := by
  unfold Context.setP; split <;> rfl
@[simp] theorem Context.setP_pendP (m : Context) (r : BitVec 3) (v : Word) : (m.setP r v).pendP = m.pendP := by
  unfold Context.setP; split <;> rfl
@[simp] theorem Context.setP_flagQueue (m : Context) (r : BitVec 3) (v : Word) : (m.setP r v).flagQueue = m.flagQueue := by
  unfold Context.setP; split <;> rfl
@[simp] theorem Context.setP_nextTag (m : Context) (r : BitVec 3) (v : Word) : (m.setP r v).nextTag = m.nextTag := by
  unfold Context.setP; split <;> rfl
@[simp] theorem Context.setP_pendingTrap (m : Context) (r : BitVec 3) (v : Word) : (m.setP r v).pendingTrap = m.pendingTrap := by
  unfold Context.setP; split <;> rfl
@[simp] theorem Context.setP_creditWait (m : Context) (r : BitVec 3) (v : Word) : (m.setP r v).creditWait = m.creditWait := by
  unfold Context.setP; split <;> rfl
@[simp] theorem Context.setP_nextIssue (m : Context) (r : BitVec 3) (v : Word) : (m.setP r v).nextIssue = m.nextIssue := by
  unfold Context.setP; split <;> rfl
@[simp] theorem Context.setP_wakeAt (m : Context) (r : BitVec 3) (v : Word) : (m.setP r v).wakeAt = m.wakeAt := by
  unfold Context.setP; split <;> rfl
@[simp] theorem Context.setP_throttle (m : Context) (r : BitVec 3) (v : Word) : (m.setP r v).throttle = m.throttle := by
  unfold Context.setP; split <;> rfl
@[simp] theorem Context.setP_getS (m : Context) (r : BitVec 3) (v : Word) (q : Reg) : (m.setP r v).getS q = m.getS q := by
  unfold Context.setP; split <;> rfl
@[simp] theorem Context.setP_getV (m : Context) (r : BitVec 3) (v : Word) (q : Reg) : (m.setP r v).getV q = m.getV q := by
  unfold Context.setP; split <;> rfl
@[simp] theorem Context.dropSpec_s (m : Context) : (m.dropSpec).s = m.s := rfl
@[simp] theorem Context.dropSpec_v (m : Context) : (m.dropSpec).v = m.v := rfl
@[simp] theorem Context.dropSpec_p (m : Context) : (m.dropSpec).p = m.p := rfl
@[simp] theorem Context.dropSpec_pc (m : Context) : (m.dropSpec).pc = m.pc := rfl
@[simp] theorem Context.dropSpec_sup (m : Context) : (m.dropSpec).sup = m.sup := rfl
@[simp] theorem Context.dropSpec_fctl (m : Context) : (m.dropSpec).fctl = m.fctl := rfl
@[simp] theorem Context.dropSpec_tvec (m : Context) : (m.dropSpec).tvec = m.tvec := rfl
@[simp] theorem Context.dropSpec_tinh (m : Context) : (m.dropSpec).tinh = m.tinh := rfl
@[simp] theorem Context.dropSpec_tpm (m : Context) : (m.dropSpec).tpm = m.tpm := rfl
@[simp] theorem Context.dropSpec_tlen (m : Context) : (m.dropSpec).tlen = m.tlen := rfl
@[simp] theorem Context.dropSpec_tcode (m : Context) : (m.dropSpec).tcode = m.tcode := rfl
@[simp] theorem Context.dropSpec_tpc (m : Context) : (m.dropSpec).tpc = m.tpc := rfl
@[simp] theorem Context.dropSpec_tval (m : Context) : (m.dropSpec).tval = m.tval := rfl
@[simp] theorem Context.dropSpec_tscr (m : Context) : (m.dropSpec).tscr = m.tscr := rfl
@[simp] theorem Context.dropSpec_rasp (m : Context) : (m.dropSpec).rasp = m.rasp := rfl
@[simp] theorem Context.dropSpec_rasl (m : Context) : (m.dropSpec).rasl = m.rasl := rfl
@[simp] theorem Context.dropSpec_rasn (m : Context) : (m.dropSpec).rasn = m.rasn := rfl
@[simp] theorem Context.dropSpec_ras (m : Context) : (m.dropSpec).ras = m.ras := rfl
@[simp] theorem Context.dropSpec_spillBase (m : Context) : (m.dropSpec).spillBase = m.spillBase := rfl
@[simp] theorem Context.dropSpec_spillLimit (m : Context) : (m.dropSpec).spillLimit = m.spillLimit := rfl
@[simp] theorem Context.dropSpec_tags (m : Context) : (m.dropSpec).tags = m.tags := rfl
@[simp] theorem Context.dropSpec_dist (m : Context) : (m.dropSpec).dist = m.dist := rfl
@[simp] theorem Context.dropSpec_work (m : Context) : (m.dropSpec).work = m.work := rfl
@[simp] theorem Context.dropSpec_lampcls (m : Context) : (m.dropSpec).lampcls = m.lampcls := rfl
@[simp] theorem Context.dropSpec_live (m : Context) : (m.dropSpec).live = m.live := rfl
@[simp] theorem Context.dropSpec_blocked (m : Context) : (m.dropSpec).blocked = m.blocked := rfl
@[simp] theorem Context.dropSpec_stopped (m : Context) : (m.dropSpec).stopped = m.stopped := rfl
@[simp] theorem Context.dropSpec_parked (m : Context) : (m.dropSpec).parked = m.parked := rfl
@[simp] theorem Context.dropSpec_yielding (m : Context) : (m.dropSpec).yielding = m.yielding := rfl
@[simp] theorem Context.dropSpec_copyTl (m : Context) : (m.dropSpec).copyTl = m.copyTl := rfl
@[simp] theorem Context.dropSpec_matTl (m : Context) : (m.dropSpec).matTl = m.matTl := rfl
@[simp] theorem Context.dropSpec_collTl (m : Context) : (m.dropSpec).collTl = m.collTl := rfl
@[simp] theorem Context.dropSpec_batches (m : Context) : (m.dropSpec).batches = m.batches := rfl
@[simp] theorem Context.dropSpec_mailbox (m : Context) : (m.dropSpec).mailbox = m.mailbox := rfl
@[simp] theorem Context.dropSpec_groups (m : Context) : (m.dropSpec).groups = m.groups := rfl
@[simp] theorem Context.dropSpec_takes (m : Context) : (m.dropSpec).takes = m.takes := rfl
@[simp] theorem Context.dropSpec_pendS (m : Context) : (m.dropSpec).pendS = m.pendS := rfl
@[simp] theorem Context.dropSpec_pendV (m : Context) : (m.dropSpec).pendV = m.pendV := rfl
@[simp] theorem Context.dropSpec_pendP (m : Context) : (m.dropSpec).pendP = m.pendP := rfl
@[simp] theorem Context.dropSpec_flagQueue (m : Context) : (m.dropSpec).flagQueue = m.flagQueue := rfl
@[simp] theorem Context.dropSpec_nextTag (m : Context) : (m.dropSpec).nextTag = m.nextTag := rfl
@[simp] theorem Context.dropSpec_pendingTrap (m : Context) : (m.dropSpec).pendingTrap = m.pendingTrap := rfl
@[simp] theorem Context.dropSpec_creditWait (m : Context) : (m.dropSpec).creditWait = m.creditWait := rfl
@[simp] theorem Context.dropSpec_nextIssue (m : Context) : (m.dropSpec).nextIssue = m.nextIssue := rfl
@[simp] theorem Context.dropSpec_wakeAt (m : Context) : (m.dropSpec).wakeAt = m.wakeAt := rfl
@[simp] theorem Context.dropSpec_throttle (m : Context) : (m.dropSpec).throttle = m.throttle := rfl
@[simp] theorem Context.dropSpec_getS (m : Context) (q : Reg) : (m.dropSpec).getS q = m.getS q := rfl
@[simp] theorem Context.dropSpec_getV (m : Context) (q : Reg) : (m.dropSpec).getV q = m.getV q := rfl
@[simp] theorem Context.dropSpec_getP (m : Context) (q : BitVec 3) : (m.dropSpec).getP q = m.getP q := rfl
@[simp] theorem Context.specStore_s (m : Context) (a n : Nat) : (m.specStore a n).s = m.s := rfl
@[simp] theorem Context.specStore_v (m : Context) (a n : Nat) : (m.specStore a n).v = m.v := rfl
@[simp] theorem Context.specStore_p (m : Context) (a n : Nat) : (m.specStore a n).p = m.p := rfl
@[simp] theorem Context.specStore_pc (m : Context) (a n : Nat) : (m.specStore a n).pc = m.pc := rfl
@[simp] theorem Context.specStore_sup (m : Context) (a n : Nat) : (m.specStore a n).sup = m.sup := rfl
@[simp] theorem Context.specStore_fctl (m : Context) (a n : Nat) : (m.specStore a n).fctl = m.fctl := rfl
@[simp] theorem Context.specStore_tvec (m : Context) (a n : Nat) : (m.specStore a n).tvec = m.tvec := rfl
@[simp] theorem Context.specStore_tinh (m : Context) (a n : Nat) : (m.specStore a n).tinh = m.tinh := rfl
@[simp] theorem Context.specStore_tpm (m : Context) (a n : Nat) : (m.specStore a n).tpm = m.tpm := rfl
@[simp] theorem Context.specStore_tlen (m : Context) (a n : Nat) : (m.specStore a n).tlen = m.tlen := rfl
@[simp] theorem Context.specStore_tcode (m : Context) (a n : Nat) : (m.specStore a n).tcode = m.tcode := rfl
@[simp] theorem Context.specStore_tpc (m : Context) (a n : Nat) : (m.specStore a n).tpc = m.tpc := rfl
@[simp] theorem Context.specStore_tval (m : Context) (a n : Nat) : (m.specStore a n).tval = m.tval := rfl
@[simp] theorem Context.specStore_tscr (m : Context) (a n : Nat) : (m.specStore a n).tscr = m.tscr := rfl
@[simp] theorem Context.specStore_rasp (m : Context) (a n : Nat) : (m.specStore a n).rasp = m.rasp := rfl
@[simp] theorem Context.specStore_rasl (m : Context) (a n : Nat) : (m.specStore a n).rasl = m.rasl := rfl
@[simp] theorem Context.specStore_rasn (m : Context) (a n : Nat) : (m.specStore a n).rasn = m.rasn := rfl
@[simp] theorem Context.specStore_ras (m : Context) (a n : Nat) : (m.specStore a n).ras = m.ras := rfl
@[simp] theorem Context.specStore_spillBase (m : Context) (a n : Nat) : (m.specStore a n).spillBase = m.spillBase := rfl
@[simp] theorem Context.specStore_spillLimit (m : Context) (a n : Nat) : (m.specStore a n).spillLimit = m.spillLimit := rfl
@[simp] theorem Context.specStore_tags (m : Context) (a n : Nat) : (m.specStore a n).tags = m.tags := rfl
@[simp] theorem Context.specStore_dist (m : Context) (a n : Nat) : (m.specStore a n).dist = m.dist := rfl
@[simp] theorem Context.specStore_work (m : Context) (a n : Nat) : (m.specStore a n).work = m.work := rfl
@[simp] theorem Context.specStore_lampcls (m : Context) (a n : Nat) : (m.specStore a n).lampcls = m.lampcls := rfl
@[simp] theorem Context.specStore_live (m : Context) (a n : Nat) : (m.specStore a n).live = m.live := rfl
@[simp] theorem Context.specStore_blocked (m : Context) (a n : Nat) : (m.specStore a n).blocked = m.blocked := rfl
@[simp] theorem Context.specStore_stopped (m : Context) (a n : Nat) : (m.specStore a n).stopped = m.stopped := rfl
@[simp] theorem Context.specStore_parked (m : Context) (a n : Nat) : (m.specStore a n).parked = m.parked := rfl
@[simp] theorem Context.specStore_yielding (m : Context) (a n : Nat) : (m.specStore a n).yielding = m.yielding := rfl
@[simp] theorem Context.specStore_copyTl (m : Context) (a n : Nat) : (m.specStore a n).copyTl = m.copyTl := rfl
@[simp] theorem Context.specStore_matTl (m : Context) (a n : Nat) : (m.specStore a n).matTl = m.matTl := rfl
@[simp] theorem Context.specStore_collTl (m : Context) (a n : Nat) : (m.specStore a n).collTl = m.collTl := rfl
@[simp] theorem Context.specStore_batches (m : Context) (a n : Nat) : (m.specStore a n).batches = m.batches := rfl
@[simp] theorem Context.specStore_mailbox (m : Context) (a n : Nat) : (m.specStore a n).mailbox = m.mailbox := rfl
@[simp] theorem Context.specStore_groups (m : Context) (a n : Nat) : (m.specStore a n).groups = m.groups := rfl
@[simp] theorem Context.specStore_takes (m : Context) (a n : Nat) : (m.specStore a n).takes = m.takes := rfl
@[simp] theorem Context.specStore_pendS (m : Context) (a n : Nat) : (m.specStore a n).pendS = m.pendS := rfl
@[simp] theorem Context.specStore_pendV (m : Context) (a n : Nat) : (m.specStore a n).pendV = m.pendV := rfl
@[simp] theorem Context.specStore_pendP (m : Context) (a n : Nat) : (m.specStore a n).pendP = m.pendP := rfl
@[simp] theorem Context.specStore_flagQueue (m : Context) (a n : Nat) : (m.specStore a n).flagQueue = m.flagQueue := rfl
@[simp] theorem Context.specStore_nextTag (m : Context) (a n : Nat) : (m.specStore a n).nextTag = m.nextTag := rfl
@[simp] theorem Context.specStore_pendingTrap (m : Context) (a n : Nat) : (m.specStore a n).pendingTrap = m.pendingTrap := rfl
@[simp] theorem Context.specStore_creditWait (m : Context) (a n : Nat) : (m.specStore a n).creditWait = m.creditWait := rfl
@[simp] theorem Context.specStore_nextIssue (m : Context) (a n : Nat) : (m.specStore a n).nextIssue = m.nextIssue := rfl
@[simp] theorem Context.specStore_wakeAt (m : Context) (a n : Nat) : (m.specStore a n).wakeAt = m.wakeAt := rfl
@[simp] theorem Context.specStore_throttle (m : Context) (a n : Nat) : (m.specStore a n).throttle = m.throttle := rfl
@[simp] theorem Context.specStore_getS (m : Context) (a n : Nat) (q : Reg) : (m.specStore a n).getS q = m.getS q := rfl
@[simp] theorem Context.specStore_getV (m : Context) (a n : Nat) (q : Reg) : (m.specStore a n).getV q = m.getV q := rfl
@[simp] theorem Context.specStore_getP (m : Context) (a n : Nat) (q : BitVec 3) : (m.specStore a n).getP q = m.getP q := rfl
@[simp] theorem Context.mergeFlags_s (m : Context) (f : Flags) : (m.mergeFlags f).s = m.s := rfl
@[simp] theorem Context.mergeFlags_v (m : Context) (f : Flags) : (m.mergeFlags f).v = m.v := rfl
@[simp] theorem Context.mergeFlags_p (m : Context) (f : Flags) : (m.mergeFlags f).p = m.p := rfl
@[simp] theorem Context.mergeFlags_pc (m : Context) (f : Flags) : (m.mergeFlags f).pc = m.pc := rfl
@[simp] theorem Context.mergeFlags_sup (m : Context) (f : Flags) : (m.mergeFlags f).sup = m.sup := rfl
@[simp] theorem Context.mergeFlags_tvec (m : Context) (f : Flags) : (m.mergeFlags f).tvec = m.tvec := rfl
@[simp] theorem Context.mergeFlags_tinh (m : Context) (f : Flags) : (m.mergeFlags f).tinh = m.tinh := rfl
@[simp] theorem Context.mergeFlags_tpm (m : Context) (f : Flags) : (m.mergeFlags f).tpm = m.tpm := rfl
@[simp] theorem Context.mergeFlags_tlen (m : Context) (f : Flags) : (m.mergeFlags f).tlen = m.tlen := rfl
@[simp] theorem Context.mergeFlags_tcode (m : Context) (f : Flags) : (m.mergeFlags f).tcode = m.tcode := rfl
@[simp] theorem Context.mergeFlags_tpc (m : Context) (f : Flags) : (m.mergeFlags f).tpc = m.tpc := rfl
@[simp] theorem Context.mergeFlags_tval (m : Context) (f : Flags) : (m.mergeFlags f).tval = m.tval := rfl
@[simp] theorem Context.mergeFlags_tscr (m : Context) (f : Flags) : (m.mergeFlags f).tscr = m.tscr := rfl
@[simp] theorem Context.mergeFlags_rasp (m : Context) (f : Flags) : (m.mergeFlags f).rasp = m.rasp := rfl
@[simp] theorem Context.mergeFlags_rasl (m : Context) (f : Flags) : (m.mergeFlags f).rasl = m.rasl := rfl
@[simp] theorem Context.mergeFlags_rasn (m : Context) (f : Flags) : (m.mergeFlags f).rasn = m.rasn := rfl
@[simp] theorem Context.mergeFlags_ras (m : Context) (f : Flags) : (m.mergeFlags f).ras = m.ras := rfl
@[simp] theorem Context.mergeFlags_spillBase (m : Context) (f : Flags) : (m.mergeFlags f).spillBase = m.spillBase := rfl
@[simp] theorem Context.mergeFlags_spillLimit (m : Context) (f : Flags) : (m.mergeFlags f).spillLimit = m.spillLimit := rfl
@[simp] theorem Context.mergeFlags_spec (m : Context) (f : Flags) : (m.mergeFlags f).spec = m.spec := rfl
@[simp] theorem Context.mergeFlags_tags (m : Context) (f : Flags) : (m.mergeFlags f).tags = m.tags := rfl
@[simp] theorem Context.mergeFlags_dist (m : Context) (f : Flags) : (m.mergeFlags f).dist = m.dist := rfl
@[simp] theorem Context.mergeFlags_work (m : Context) (f : Flags) : (m.mergeFlags f).work = m.work := rfl
@[simp] theorem Context.mergeFlags_lampcls (m : Context) (f : Flags) : (m.mergeFlags f).lampcls = m.lampcls := rfl
@[simp] theorem Context.mergeFlags_live (m : Context) (f : Flags) : (m.mergeFlags f).live = m.live := rfl
@[simp] theorem Context.mergeFlags_blocked (m : Context) (f : Flags) : (m.mergeFlags f).blocked = m.blocked := rfl
@[simp] theorem Context.mergeFlags_stopped (m : Context) (f : Flags) : (m.mergeFlags f).stopped = m.stopped := rfl
@[simp] theorem Context.mergeFlags_parked (m : Context) (f : Flags) : (m.mergeFlags f).parked = m.parked := rfl
@[simp] theorem Context.mergeFlags_yielding (m : Context) (f : Flags) : (m.mergeFlags f).yielding = m.yielding := rfl
@[simp] theorem Context.mergeFlags_copyTl (m : Context) (f : Flags) : (m.mergeFlags f).copyTl = m.copyTl := rfl
@[simp] theorem Context.mergeFlags_matTl (m : Context) (f : Flags) : (m.mergeFlags f).matTl = m.matTl := rfl
@[simp] theorem Context.mergeFlags_collTl (m : Context) (f : Flags) : (m.mergeFlags f).collTl = m.collTl := rfl
@[simp] theorem Context.mergeFlags_batches (m : Context) (f : Flags) : (m.mergeFlags f).batches = m.batches := rfl
@[simp] theorem Context.mergeFlags_mailbox (m : Context) (f : Flags) : (m.mergeFlags f).mailbox = m.mailbox := rfl
@[simp] theorem Context.mergeFlags_groups (m : Context) (f : Flags) : (m.mergeFlags f).groups = m.groups := rfl
@[simp] theorem Context.mergeFlags_takes (m : Context) (f : Flags) : (m.mergeFlags f).takes = m.takes := rfl
@[simp] theorem Context.mergeFlags_pendS (m : Context) (f : Flags) : (m.mergeFlags f).pendS = m.pendS := rfl
@[simp] theorem Context.mergeFlags_pendV (m : Context) (f : Flags) : (m.mergeFlags f).pendV = m.pendV := rfl
@[simp] theorem Context.mergeFlags_pendP (m : Context) (f : Flags) : (m.mergeFlags f).pendP = m.pendP := rfl
@[simp] theorem Context.mergeFlags_flagQueue (m : Context) (f : Flags) : (m.mergeFlags f).flagQueue = m.flagQueue := rfl
@[simp] theorem Context.mergeFlags_nextTag (m : Context) (f : Flags) : (m.mergeFlags f).nextTag = m.nextTag := rfl
@[simp] theorem Context.mergeFlags_pendingTrap (m : Context) (f : Flags) : (m.mergeFlags f).pendingTrap = m.pendingTrap := rfl
@[simp] theorem Context.mergeFlags_creditWait (m : Context) (f : Flags) : (m.mergeFlags f).creditWait = m.creditWait := rfl
@[simp] theorem Context.mergeFlags_nextIssue (m : Context) (f : Flags) : (m.mergeFlags f).nextIssue = m.nextIssue := rfl
@[simp] theorem Context.mergeFlags_wakeAt (m : Context) (f : Flags) : (m.mergeFlags f).wakeAt = m.wakeAt := rfl
@[simp] theorem Context.mergeFlags_throttle (m : Context) (f : Flags) : (m.mergeFlags f).throttle = m.throttle := rfl
@[simp] theorem Context.mergeFlags_getS (m : Context) (f : Flags) (q : Reg) : (m.mergeFlags f).getS q = m.getS q := rfl
@[simp] theorem Context.mergeFlags_getV (m : Context) (f : Flags) (q : Reg) : (m.mergeFlags f).getV q = m.getV q := rfl
@[simp] theorem Context.mergeFlags_getP (m : Context) (f : Flags) (q : BitVec 3) : (m.mergeFlags f).getP q = m.getP q := rfl
@[simp] theorem Context.advance_s (m : Context) (len : BitVec 2) : (m.advance len).s = m.s := rfl
@[simp] theorem Context.advance_v (m : Context) (len : BitVec 2) : (m.advance len).v = m.v := rfl
@[simp] theorem Context.advance_p (m : Context) (len : BitVec 2) : (m.advance len).p = m.p := rfl
@[simp] theorem Context.advance_sup (m : Context) (len : BitVec 2) : (m.advance len).sup = m.sup := rfl
@[simp] theorem Context.advance_fctl (m : Context) (len : BitVec 2) : (m.advance len).fctl = m.fctl := rfl
@[simp] theorem Context.advance_tvec (m : Context) (len : BitVec 2) : (m.advance len).tvec = m.tvec := rfl
@[simp] theorem Context.advance_tinh (m : Context) (len : BitVec 2) : (m.advance len).tinh = m.tinh := rfl
@[simp] theorem Context.advance_tpm (m : Context) (len : BitVec 2) : (m.advance len).tpm = m.tpm := rfl
@[simp] theorem Context.advance_tlen (m : Context) (len : BitVec 2) : (m.advance len).tlen = m.tlen := rfl
@[simp] theorem Context.advance_tcode (m : Context) (len : BitVec 2) : (m.advance len).tcode = m.tcode := rfl
@[simp] theorem Context.advance_tpc (m : Context) (len : BitVec 2) : (m.advance len).tpc = m.tpc := rfl
@[simp] theorem Context.advance_tval (m : Context) (len : BitVec 2) : (m.advance len).tval = m.tval := rfl
@[simp] theorem Context.advance_tscr (m : Context) (len : BitVec 2) : (m.advance len).tscr = m.tscr := rfl
@[simp] theorem Context.advance_rasp (m : Context) (len : BitVec 2) : (m.advance len).rasp = m.rasp := rfl
@[simp] theorem Context.advance_rasl (m : Context) (len : BitVec 2) : (m.advance len).rasl = m.rasl := rfl
@[simp] theorem Context.advance_rasn (m : Context) (len : BitVec 2) : (m.advance len).rasn = m.rasn := rfl
@[simp] theorem Context.advance_ras (m : Context) (len : BitVec 2) : (m.advance len).ras = m.ras := rfl
@[simp] theorem Context.advance_spillBase (m : Context) (len : BitVec 2) : (m.advance len).spillBase = m.spillBase := rfl
@[simp] theorem Context.advance_spillLimit (m : Context) (len : BitVec 2) : (m.advance len).spillLimit = m.spillLimit := rfl
@[simp] theorem Context.advance_spec (m : Context) (len : BitVec 2) : (m.advance len).spec = m.spec := rfl
@[simp] theorem Context.advance_tags (m : Context) (len : BitVec 2) : (m.advance len).tags = m.tags := rfl
@[simp] theorem Context.advance_dist (m : Context) (len : BitVec 2) : (m.advance len).dist = m.dist := rfl
@[simp] theorem Context.advance_work (m : Context) (len : BitVec 2) : (m.advance len).work = m.work := rfl
@[simp] theorem Context.advance_lampcls (m : Context) (len : BitVec 2) : (m.advance len).lampcls = m.lampcls := rfl
@[simp] theorem Context.advance_live (m : Context) (len : BitVec 2) : (m.advance len).live = m.live := rfl
@[simp] theorem Context.advance_stopped (m : Context) (len : BitVec 2) : (m.advance len).stopped = m.stopped := rfl
@[simp] theorem Context.advance_parked (m : Context) (len : BitVec 2) : (m.advance len).parked = m.parked := rfl
@[simp] theorem Context.advance_yielding (m : Context) (len : BitVec 2) : (m.advance len).yielding = m.yielding := rfl
@[simp] theorem Context.advance_copyTl (m : Context) (len : BitVec 2) : (m.advance len).copyTl = m.copyTl := rfl
@[simp] theorem Context.advance_matTl (m : Context) (len : BitVec 2) : (m.advance len).matTl = m.matTl := rfl
@[simp] theorem Context.advance_collTl (m : Context) (len : BitVec 2) : (m.advance len).collTl = m.collTl := rfl
@[simp] theorem Context.advance_batches (m : Context) (len : BitVec 2) : (m.advance len).batches = m.batches := rfl
@[simp] theorem Context.advance_mailbox (m : Context) (len : BitVec 2) : (m.advance len).mailbox = m.mailbox := rfl
@[simp] theorem Context.advance_groups (m : Context) (len : BitVec 2) : (m.advance len).groups = m.groups := rfl
@[simp] theorem Context.advance_takes (m : Context) (len : BitVec 2) : (m.advance len).takes = m.takes := rfl
@[simp] theorem Context.advance_pendS (m : Context) (len : BitVec 2) : (m.advance len).pendS = m.pendS := rfl
@[simp] theorem Context.advance_pendV (m : Context) (len : BitVec 2) : (m.advance len).pendV = m.pendV := rfl
@[simp] theorem Context.advance_pendP (m : Context) (len : BitVec 2) : (m.advance len).pendP = m.pendP := rfl
@[simp] theorem Context.advance_flagQueue (m : Context) (len : BitVec 2) : (m.advance len).flagQueue = m.flagQueue := rfl
@[simp] theorem Context.advance_nextTag (m : Context) (len : BitVec 2) : (m.advance len).nextTag = m.nextTag := rfl
@[simp] theorem Context.advance_pendingTrap (m : Context) (len : BitVec 2) : (m.advance len).pendingTrap = m.pendingTrap := rfl
@[simp] theorem Context.advance_creditWait (m : Context) (len : BitVec 2) : (m.advance len).creditWait = m.creditWait := rfl
@[simp] theorem Context.advance_nextIssue (m : Context) (len : BitVec 2) : (m.advance len).nextIssue = m.nextIssue := rfl
@[simp] theorem Context.advance_wakeAt (m : Context) (len : BitVec 2) : (m.advance len).wakeAt = m.wakeAt := rfl
@[simp] theorem Context.advance_throttle (m : Context) (len : BitVec 2) : (m.advance len).throttle = m.throttle := rfl
@[simp] theorem Context.advance_getS (m : Context) (len : BitVec 2) (q : Reg) : (m.advance len).getS q = m.getS q := rfl
@[simp] theorem Context.advance_getV (m : Context) (len : BitVec 2) (q : Reg) : (m.advance len).getV q = m.getV q := rfl
@[simp] theorem Context.advance_getP (m : Context) (len : BitVec 2) (q : BitVec 3) : (m.advance len).getP q = m.getP q := rfl
@[simp] theorem Context.enterTrap_s (m : Context) (t : Trap) (len : BitVec 2) : (m.enterTrap t len).s = m.s := rfl
@[simp] theorem Context.enterTrap_v (m : Context) (t : Trap) (len : BitVec 2) : (m.enterTrap t len).v = m.v := rfl
@[simp] theorem Context.enterTrap_p (m : Context) (t : Trap) (len : BitVec 2) : (m.enterTrap t len).p = m.p := rfl
@[simp] theorem Context.enterTrap_fctl (m : Context) (t : Trap) (len : BitVec 2) : (m.enterTrap t len).fctl = m.fctl := rfl
@[simp] theorem Context.enterTrap_tvec (m : Context) (t : Trap) (len : BitVec 2) : (m.enterTrap t len).tvec = m.tvec := rfl
@[simp] theorem Context.enterTrap_tscr (m : Context) (t : Trap) (len : BitVec 2) : (m.enterTrap t len).tscr = m.tscr := rfl
@[simp] theorem Context.enterTrap_rasp (m : Context) (t : Trap) (len : BitVec 2) : (m.enterTrap t len).rasp = m.rasp := rfl
@[simp] theorem Context.enterTrap_rasl (m : Context) (t : Trap) (len : BitVec 2) : (m.enterTrap t len).rasl = m.rasl := rfl
@[simp] theorem Context.enterTrap_rasn (m : Context) (t : Trap) (len : BitVec 2) : (m.enterTrap t len).rasn = m.rasn := rfl
@[simp] theorem Context.enterTrap_ras (m : Context) (t : Trap) (len : BitVec 2) : (m.enterTrap t len).ras = m.ras := rfl
@[simp] theorem Context.enterTrap_spillBase (m : Context) (t : Trap) (len : BitVec 2) : (m.enterTrap t len).spillBase = m.spillBase := rfl
@[simp] theorem Context.enterTrap_spillLimit (m : Context) (t : Trap) (len : BitVec 2) : (m.enterTrap t len).spillLimit = m.spillLimit := rfl
@[simp] theorem Context.enterTrap_tags (m : Context) (t : Trap) (len : BitVec 2) : (m.enterTrap t len).tags = m.tags := rfl
@[simp] theorem Context.enterTrap_dist (m : Context) (t : Trap) (len : BitVec 2) : (m.enterTrap t len).dist = m.dist := rfl
@[simp] theorem Context.enterTrap_work (m : Context) (t : Trap) (len : BitVec 2) : (m.enterTrap t len).work = m.work := rfl
@[simp] theorem Context.enterTrap_lampcls (m : Context) (t : Trap) (len : BitVec 2) : (m.enterTrap t len).lampcls = m.lampcls := rfl
@[simp] theorem Context.enterTrap_live (m : Context) (t : Trap) (len : BitVec 2) : (m.enterTrap t len).live = m.live := rfl
@[simp] theorem Context.enterTrap_stopped (m : Context) (t : Trap) (len : BitVec 2) : (m.enterTrap t len).stopped = m.stopped := rfl
@[simp] theorem Context.enterTrap_parked (m : Context) (t : Trap) (len : BitVec 2) : (m.enterTrap t len).parked = m.parked := rfl
@[simp] theorem Context.enterTrap_yielding (m : Context) (t : Trap) (len : BitVec 2) : (m.enterTrap t len).yielding = m.yielding := rfl
@[simp] theorem Context.enterTrap_copyTl (m : Context) (t : Trap) (len : BitVec 2) : (m.enterTrap t len).copyTl = m.copyTl := rfl
@[simp] theorem Context.enterTrap_matTl (m : Context) (t : Trap) (len : BitVec 2) : (m.enterTrap t len).matTl = m.matTl := rfl
@[simp] theorem Context.enterTrap_collTl (m : Context) (t : Trap) (len : BitVec 2) : (m.enterTrap t len).collTl = m.collTl := rfl
@[simp] theorem Context.enterTrap_batches (m : Context) (t : Trap) (len : BitVec 2) : (m.enterTrap t len).batches = m.batches := rfl
@[simp] theorem Context.enterTrap_mailbox (m : Context) (t : Trap) (len : BitVec 2) : (m.enterTrap t len).mailbox = m.mailbox := rfl
@[simp] theorem Context.enterTrap_groups (m : Context) (t : Trap) (len : BitVec 2) : (m.enterTrap t len).groups = m.groups := rfl
@[simp] theorem Context.enterTrap_takes (m : Context) (t : Trap) (len : BitVec 2) : (m.enterTrap t len).takes = m.takes := rfl
@[simp] theorem Context.enterTrap_pendS (m : Context) (t : Trap) (len : BitVec 2) : (m.enterTrap t len).pendS = m.pendS := rfl
@[simp] theorem Context.enterTrap_pendV (m : Context) (t : Trap) (len : BitVec 2) : (m.enterTrap t len).pendV = m.pendV := rfl
@[simp] theorem Context.enterTrap_pendP (m : Context) (t : Trap) (len : BitVec 2) : (m.enterTrap t len).pendP = m.pendP := rfl
@[simp] theorem Context.enterTrap_flagQueue (m : Context) (t : Trap) (len : BitVec 2) : (m.enterTrap t len).flagQueue = m.flagQueue := rfl
@[simp] theorem Context.enterTrap_nextTag (m : Context) (t : Trap) (len : BitVec 2) : (m.enterTrap t len).nextTag = m.nextTag := rfl
@[simp] theorem Context.enterTrap_pendingTrap (m : Context) (t : Trap) (len : BitVec 2) : (m.enterTrap t len).pendingTrap = m.pendingTrap := rfl
@[simp] theorem Context.enterTrap_creditWait (m : Context) (t : Trap) (len : BitVec 2) : (m.enterTrap t len).creditWait = m.creditWait := rfl
@[simp] theorem Context.enterTrap_nextIssue (m : Context) (t : Trap) (len : BitVec 2) : (m.enterTrap t len).nextIssue = m.nextIssue := rfl
@[simp] theorem Context.enterTrap_wakeAt (m : Context) (t : Trap) (len : BitVec 2) : (m.enterTrap t len).wakeAt = m.wakeAt := rfl
@[simp] theorem Context.enterTrap_throttle (m : Context) (t : Trap) (len : BitVec 2) : (m.enterTrap t len).throttle = m.throttle := rfl
@[simp] theorem Context.enterTrap_getS (m : Context) (t : Trap) (len : BitVec 2) (q : Reg) : (m.enterTrap t len).getS q = m.getS q := rfl
@[simp] theorem Context.enterTrap_getV (m : Context) (t : Trap) (len : BitVec 2) (q : Reg) : (m.enterTrap t len).getV q = m.getV q := rfl
@[simp] theorem Context.enterTrap_getP (m : Context) (t : Trap) (len : BitVec 2) (q : BitVec 3) : (m.enterTrap t len).getP q = m.getP q := rfl
@[simp] theorem Context.leaveTrap_s (m : Context) : (m.leaveTrap).s = m.s := rfl
@[simp] theorem Context.leaveTrap_v (m : Context) : (m.leaveTrap).v = m.v := rfl
@[simp] theorem Context.leaveTrap_p (m : Context) : (m.leaveTrap).p = m.p := rfl
@[simp] theorem Context.leaveTrap_fctl (m : Context) : (m.leaveTrap).fctl = m.fctl := rfl
@[simp] theorem Context.leaveTrap_tvec (m : Context) : (m.leaveTrap).tvec = m.tvec := rfl
@[simp] theorem Context.leaveTrap_tpm (m : Context) : (m.leaveTrap).tpm = m.tpm := rfl
@[simp] theorem Context.leaveTrap_tlen (m : Context) : (m.leaveTrap).tlen = m.tlen := rfl
@[simp] theorem Context.leaveTrap_tcode (m : Context) : (m.leaveTrap).tcode = m.tcode := rfl
@[simp] theorem Context.leaveTrap_tpc (m : Context) : (m.leaveTrap).tpc = m.tpc := rfl
@[simp] theorem Context.leaveTrap_tval (m : Context) : (m.leaveTrap).tval = m.tval := rfl
@[simp] theorem Context.leaveTrap_tscr (m : Context) : (m.leaveTrap).tscr = m.tscr := rfl
@[simp] theorem Context.leaveTrap_rasp (m : Context) : (m.leaveTrap).rasp = m.rasp := rfl
@[simp] theorem Context.leaveTrap_rasl (m : Context) : (m.leaveTrap).rasl = m.rasl := rfl
@[simp] theorem Context.leaveTrap_rasn (m : Context) : (m.leaveTrap).rasn = m.rasn := rfl
@[simp] theorem Context.leaveTrap_ras (m : Context) : (m.leaveTrap).ras = m.ras := rfl
@[simp] theorem Context.leaveTrap_spillBase (m : Context) : (m.leaveTrap).spillBase = m.spillBase := rfl
@[simp] theorem Context.leaveTrap_spillLimit (m : Context) : (m.leaveTrap).spillLimit = m.spillLimit := rfl
@[simp] theorem Context.leaveTrap_tags (m : Context) : (m.leaveTrap).tags = m.tags := rfl
@[simp] theorem Context.leaveTrap_dist (m : Context) : (m.leaveTrap).dist = m.dist := rfl
@[simp] theorem Context.leaveTrap_work (m : Context) : (m.leaveTrap).work = m.work := rfl
@[simp] theorem Context.leaveTrap_lampcls (m : Context) : (m.leaveTrap).lampcls = m.lampcls := rfl
@[simp] theorem Context.leaveTrap_live (m : Context) : (m.leaveTrap).live = m.live := rfl
@[simp] theorem Context.leaveTrap_stopped (m : Context) : (m.leaveTrap).stopped = m.stopped := rfl
@[simp] theorem Context.leaveTrap_parked (m : Context) : (m.leaveTrap).parked = m.parked := rfl
@[simp] theorem Context.leaveTrap_yielding (m : Context) : (m.leaveTrap).yielding = m.yielding := rfl
@[simp] theorem Context.leaveTrap_copyTl (m : Context) : (m.leaveTrap).copyTl = m.copyTl := rfl
@[simp] theorem Context.leaveTrap_matTl (m : Context) : (m.leaveTrap).matTl = m.matTl := rfl
@[simp] theorem Context.leaveTrap_collTl (m : Context) : (m.leaveTrap).collTl = m.collTl := rfl
@[simp] theorem Context.leaveTrap_batches (m : Context) : (m.leaveTrap).batches = m.batches := rfl
@[simp] theorem Context.leaveTrap_mailbox (m : Context) : (m.leaveTrap).mailbox = m.mailbox := rfl
@[simp] theorem Context.leaveTrap_groups (m : Context) : (m.leaveTrap).groups = m.groups := rfl
@[simp] theorem Context.leaveTrap_takes (m : Context) : (m.leaveTrap).takes = m.takes := rfl
@[simp] theorem Context.leaveTrap_pendS (m : Context) : (m.leaveTrap).pendS = m.pendS := rfl
@[simp] theorem Context.leaveTrap_pendV (m : Context) : (m.leaveTrap).pendV = m.pendV := rfl
@[simp] theorem Context.leaveTrap_pendP (m : Context) : (m.leaveTrap).pendP = m.pendP := rfl
@[simp] theorem Context.leaveTrap_flagQueue (m : Context) : (m.leaveTrap).flagQueue = m.flagQueue := rfl
@[simp] theorem Context.leaveTrap_nextTag (m : Context) : (m.leaveTrap).nextTag = m.nextTag := rfl
@[simp] theorem Context.leaveTrap_pendingTrap (m : Context) : (m.leaveTrap).pendingTrap = m.pendingTrap := rfl
@[simp] theorem Context.leaveTrap_creditWait (m : Context) : (m.leaveTrap).creditWait = m.creditWait := rfl
@[simp] theorem Context.leaveTrap_nextIssue (m : Context) : (m.leaveTrap).nextIssue = m.nextIssue := rfl
@[simp] theorem Context.leaveTrap_wakeAt (m : Context) : (m.leaveTrap).wakeAt = m.wakeAt := rfl
@[simp] theorem Context.leaveTrap_throttle (m : Context) : (m.leaveTrap).throttle = m.throttle := rfl
@[simp] theorem Context.leaveTrap_getS (m : Context) (q : Reg) : (m.leaveTrap).getS q = m.getS q := rfl
@[simp] theorem Context.leaveTrap_getV (m : Context) (q : Reg) : (m.leaveTrap).getV q = m.getV q := rfl
@[simp] theorem Context.leaveTrap_getP (m : Context) (q : BitVec 3) : (m.leaveTrap).getP q = m.getP q := rfl

end Sys2Proof.Machine
end

