-- ==== Sys2Proof/Laws/Ops.lean ====
section
/-! SUPPORT. What the shared operations of an instruction can do: how it ends, taking an exception, a scalar result, a
store. -/

namespace Sys2Proof.Machine

/-! ## Updates one after the other -/

@[simp] theorem store_store {κ α : Type} [DecidableEq κ] (k : κ) (v w : α) (m : Assoc κ α) :
    store k v (store k w m) = store k v m := by
  induction m with
  | nil => simp [store]
  | cons e m ih =>
    obtain ⟨k', v'⟩ := e
    by_cases h : k' = k
    · simp [store, h]
    · simp [store, h, ih]

@[simp] theorem State.setCore_setCore (s : State) (k : CoreId) (c d : Core) :
    (s.setCore k c).setCore k d = s.setCore k d := by
  simp [State.setCore]

@[simp] theorem State.setCtx_setCtx (s : State) (c : CtxId) (x y : Context) :
    (s.setCtx c x).setCtx c y = s.setCtx c y := by
  simp [State.setCtx]

@[simp] theorem State.setMe_setMe (s : State) (x y : Context) : (s.setMe x).setMe y = s.setMe y :=
  s.setCtx_setCtx s.cur x y

@[simp] theorem State.setMe_advance (s : State) (x : Context) (len : BitVec 2) :
    (s.setMe x).advance len = s.setMe (x.advance len) := by
  simp [State.advance]

/-! ## How an instruction ends -/

@[simp] theorem finish_ok (len : BitVec 2) (s : State) : finish len (.ok s) = .next (s.advance len) := rfl

@[simp] theorem finish_trap (len : BitVec 2) (t : Trap) (s : State) :
    finish len (.error (.trap t s)) = .next (takeTrap t len s) := rfl

@[simp] theorem finish_hold (len : BitVec 2) (s : State) : finish len (.error (.hold s)) = .next s := rfl

@[simp] theorem settle_ok (len : BitVec 2) (s : State) : settle len (.ok s) = .next s := rfl

@[simp] theorem settle_trap (len : BitVec 2) (t : Trap) (s : State) :
    settle len (.error (.trap t s)) = .next (takeTrap t len s) := rfl

@[simp] theorem settle_hold (len : BitVec 2) (s : State) : settle len (.error (.hold s)) = .next s := rfl

/-- A settled effect that answers a next state: it was done, it trapped, or it is held. -/
theorem settle_next {len : BitVec 2} {r : Run State} {t : State} (h : settle len r = .next t) :
    r = .ok t ∨ (∃ x u, r = .error (.trap x u) ∧ t = takeTrap x len u) ∨ r = .error (.hold t) := by
  cases r with
  | ok s => simp at h; exact .inl (by rw [h])
  | error e =>
    cases e with
    | trap x u => simp at h; exact .inr (.inl ⟨x, u, rfl, h.symm⟩)
    | hold u => simp at h; exact .inr (.inr (by rw [h]))

/-- An instruction that answers a next state: it was done and the pc moved on, it trapped, or it is held. -/
theorem finish_next {len : BitVec 2} {r : Run State} {t : State} (h : finish len r = .next t) :
    (∃ u, r = .ok u ∧ t = u.advance len) ∨ (∃ x u, r = .error (.trap x u) ∧ t = takeTrap x len u) ∨
      r = .error (.hold t) := by
  cases r with
  | ok s => simp at h; exact .inl ⟨s, rfl, h.symm⟩
  | error e =>
    cases e with
    | trap x u => simp at h; exact .inr (.inl ⟨x, u, rfl, h.symm⟩)
    | hold u => simp at h; exact .inr (.inr (by rw [h]))

/-- An instruction that ends as `finish` ends answers a next state. -/
theorem finish_completes (len : BitVec 2) (r : Run State) : ∃ t, finish len r = .next t := by
  cases r with
  | ok s => exact ⟨_, rfl⟩
  | error e => cases e <;> exact ⟨_, rfl⟩

/-! ## Exceptions -/

/-- A trap that finds TINH clear enters the handler (04 R116). -/
theorem takeTrap_enter {t : Trap} {len : BitVec 2} {s : State} (h : s.me.tinh = false) (hp : t.dropsPage = false) :
    takeTrap t len s = s.setMe (s.me.enterTrap t len) := by
  simp [takeTrap, h, hp]

/-- A trap that finds TINH set stops the context (04 R117). -/
theorem takeTrap_double {t : Trap} {len : BitVec 2} {s : State} (h : s.me.tinh = true) (hp : t.dropsPage = false) :
    takeTrap t len s = s.doubleTrap t := by
  simp [takeTrap, h, hp]

/-! ## A scalar result -/

theorem Context.spec_setS (m : Context) (r : Reg) (v : Word) :
    (m.setS r v).spec = if r = 0 then m.spec else specWrite r m.spec := by
  unfold Context.setS; split <;> rfl

/-- Everything a scalar instruction can do. -/
theorem scalarOp_next (f : Form) (d : Reg) (g : Context → Word × Flags) (s : State) :
    scalarOp f d g s = .next (s.setMe ((s.me.writeScalar f d (g s.me).1 (g s.me).2).advance f.len)) := by
  simp [scalarOp]

theorem Context.writeScalar_active {m : Context} {f : Form} (h : f.active m = true) (d : Reg) (v : Word) (fl : Flags) :
    m.writeScalar f d v fl = (m.setS d v).mergeFlags fl := by
  simp [Context.writeScalar, h]

theorem Context.writeScalar_zero {m : Context} {f : Form} (h : f.active m = false) (z : f.zeroes = true) (d : Reg)
    (v : Word) (fl : Flags) : m.writeScalar f d v fl = m.setS d 0 := by
  simp [Context.writeScalar, h, z]

theorem Context.writeScalar_keep {m : Context} {f : Form} (h : f.active m = false) (z : f.zeroes = false) (d : Reg)
    (v : Word) (fl : Flags) : m.writeScalar f d v fl = m := by
  simp [Context.writeScalar, h, z]

/-! ## Stores -/

theorem State.wf_markDirty {s : State} (h : Memory.wf s = true) (a n : Nat) : Memory.wf (s.markDirty a n) = true := by
  unfold State.markDirty
  split
  · exact h
  · exact h

theorem State.wf_put {s : State} (h : Memory.wf s = true) (a n v : Nat) : Memory.wf (s.put a n v) = true := by
  unfold State.put
  split
  · exact h
  · exact State.wf_markDirty (State.wf_write h a n v) a n

theorem State.wf_physWrite {s : State} (h : Memory.wf s = true) (p a n v : Nat) :
    Memory.wf (s.physWrite p a n v) = true := by
  unfold State.physWrite
  split
  · exact State.wf_write h a n v
  · exact h

@[simp] theorem State.markDirty_mem (s : State) (a n : Nat) : (s.markDirty a n).mem = s.mem := by
  unfold State.markDirty; split <;> rfl

/-- A byte after a store: inside, the byte of the number stored; outside, as before. -/
theorem State.byte_put {s : State} (h : Memory.wf s = true) {a : Nat} (ha : inPort a = false) (n v x : Nat) :
    (s.put a n v).byte x = if a ≤ x ∧ x < a + n then BitVec.ofNat 8 (v / 256 ^ (x - a)) else s.byte x := by
  have := State.byte_write h a n v x
  simpa [State.put, ha, State.byte] using this

end Sys2Proof.Machine
end

