-- ==== Sys2Proof/Laws/PerInstr.lean ====
section
/-! SUPPORT. One fact for every constructor: an instruction's encoding is as long as LEN of its word 0 says (02 R29), and an
event or command has none. -/

namespace Sys2Proof.Laws.Encoding

/-- The words of a program instruction are as many as LEN of word 0 gives (02 R29, Table 2.1); an event has no words. -/
def Statement (i : Instr) : Prop :=
  match encode i with
  | [] => i.payload = none
  | w :: rest => rest.length + 1 = lenWords (w.extractLsb' 0 2)

/-- LEN stands in the low bits of word 0 (02 R33). -/
theorem len_word0 (f : BitVec 24) (major : Nat) (len : BitVec 2) : (word0 f major len).extractLsb' 0 2 = len := by
  apply BitVec.eq_of_getLsbD_eq
  intro j hj
  have hj' : ¬ 2 ≤ j := by omega
  show ((f ++ BitVec.ofNat 6 major ++ len).extractLsb' 0 2).getLsbD j = len.getLsbD j
  rw [BitVec.getLsbD_extractLsb', BitVec.getLsbD_append]
  simp [hj]

/-- The words after word 0 are as many as LEN gives. -/
theorem tail_length (f : Form) : f.tail.length + 1 = lenWords f.len := by
  cases f <;> rfl

/-- A form's encoding has the length of its LEN. -/
theorem payload_length (p : Payload) :
    ∃ w rest, p.encode = w :: rest ∧ rest.length + 1 = lenWords (w.extractLsb' 0 2) := by
  cases p <;> refine ⟨_, _, rfl, ?_⟩ <;> rw [len_word0] <;> first | exact tail_length _ | rfl

/-- The fact holds of every instruction. -/
theorem holds (i : Instr) : Statement i := by
  unfold Statement encode
  cases h : i.payload with
  | none => rfl
  | some p =>
    obtain ⟨w, rest, he, hl⟩ := payload_length p
    simp only [he]
    exact hl

theorem trap (x : RForm) : Statement (.trap x) := holds _
theorem mfs (x : RForm) : Statement (.mfs x) := holds _
theorem mts (x : RForm) : Statement (.mts x) := holds _
theorem time (x : RForm) : Statement (.time x) := holds _
theorem cycle (x : RForm) : Statement (.cycle x) := holds _
theorem add (x : RForm) : Statement (.add x) := holds _
theorem sub (x : RForm) : Statement (.sub x) := holds _
theorem and (x : RForm) : Statement (.and x) := holds _
theorem or (x : RForm) : Statement (.or x) := holds _
theorem xor (x : RForm) : Statement (.xor x) := holds _
theorem andn (x : RForm) : Statement (.andn x) := holds _
theorem orn (x : RForm) : Statement (.orn x) := holds _
theorem sll (x : RForm) : Statement (.sll x) := holds _
theorem srl (x : RForm) : Statement (.srl x) := holds _
theorem sra (x : RForm) : Statement (.sra x) := holds _
theorem rol (x : RForm) : Statement (.rol x) := holds _
theorem ror (x : RForm) : Statement (.ror x) := holds _
theorem min (x : RForm) : Statement (.min x) := holds _
theorem max (x : RForm) : Statement (.max x) := holds _
theorem minn (x : RForm) : Statement (.minn x) := holds _
theorem maxn (x : RForm) : Statement (.maxn x) := holds _
theorem slt (x : RForm) : Statement (.slt x) := holds _
theorem sltn (x : RForm) : Statement (.sltn x) := holds _
theorem seq (x : RForm) : Statement (.seq x) := holds _
theorem sne (x : RForm) : Statement (.sne x) := holds _
theorem csel (x : RForm) : Statement (.csel x) := holds _
theorem addi (x : IForm) : Statement (.addi x) := holds _
theorem andi (x : IForm) : Statement (.andi x) := holds _
theorem ori (x : IForm) : Statement (.ori x) := holds _
theorem xori (x : IForm) : Statement (.xori x) := holds _
theorem slli (x : IForm) : Statement (.slli x) := holds _
theorem srli (x : IForm) : Statement (.srli x) := holds _
theorem srai (x : IForm) : Statement (.srai x) := holds _
theorem rori (x : IForm) : Statement (.rori x) := holds _
theorem slti (x : IForm) : Statement (.slti x) := holds _
theorem sltni (x : IForm) : Statement (.sltni x) := holds _
theorem seqi (x : IForm) : Statement (.seqi x) := holds _
theorem li (x : IForm) : Statement (.li x) := holds _
theorem mul (x : RForm) : Statement (.mul x) := holds _
theorem mulh (x : RForm) : Statement (.mulh x) := holds _
theorem mulhn (x : RForm) : Statement (.mulhn x) := holds _
theorem madd (x : RForm) : Statement (.madd x) := holds _
theorem div (x : RForm) : Statement (.div x) := holds _
theorem divn (x : RForm) : Statement (.divn x) := holds _
theorem rem (x : RForm) : Statement (.rem x) := holds _
theorem remn (x : RForm) : Statement (.remn x) := holds _
theorem clz (x : RForm) : Statement (.clz x) := holds _
theorem ctz (x : RForm) : Statement (.ctz x) := holds _
theorem popc (x : RForm) : Statement (.popc x) := holds _
theorem brev (x : RForm) : Statement (.brev x) := holds _
theorem bswap (x : RForm) : Statement (.bswap x) := holds _
theorem bfx (x : RForm) : Statement (.bfx x) := holds _
theorem bfxn (x : RForm) : Statement (.bfxn x) := holds _
theorem bfi (x : RForm) : Statement (.bfi x) := holds _
theorem sext (x : RForm) : Statement (.sext x) := holds _
theorem zext (x : RForm) : Statement (.zext x) := holds _
theorem lea (x : RForm) : Statement (.lea x) := holds _
theorem gaddr (x : RForm) : Statement (.gaddr x) := holds _
theorem caddr (x : RForm) : Statement (.caddr x) := holds _
theorem crel (x : RForm) : Statement (.crel x) := holds _
theorem bcc (x : BForm) : Statement (.bcc x) := holds _
theorem bp (x : BForm) : Statement (.bp x) := holds _
theorem call (x : BForm) : Statement (.call x) := holds _
theorem j (x : JForm) : Statement (.j x) := holds _
theorem ji (x : RForm) : Statement (.ji x) := holds _
theorem calli (x : RForm) : Statement (.calli x) := holds _
theorem start (x : XForm) : Statement (.start x) := holds _
theorem myid (x : RForm) : Statement (.myid x) := holds _
theorem wait (x : XForm) : Statement (.wait x) := holds _
theorem ld (x : MForm) : Statement (.ld x) := holds _
theorem ldp (x : MForm) : Statement (.ldp x) := holds _
theorem st (x : MForm) : Statement (.st x) := holds _
theorem stp (x : MForm) : Statement (.stp x) := holds _
theorem lds (x : MForm) : Statement (.lds x) := holds _
theorem chkld (x : MForm) : Statement (.chkld x) := holds _
theorem amoSwap (x : AForm) : Statement (.amoSwap x) := holds _
theorem amoAdd (x : AForm) : Statement (.amoAdd x) := holds _
theorem amoAnd (x : AForm) : Statement (.amoAnd x) := holds _
theorem amoOr (x : AForm) : Statement (.amoOr x) := holds _
theorem amoXor (x : AForm) : Statement (.amoXor x) := holds _
theorem amoMin (x : AForm) : Statement (.amoMin x) := holds _
theorem amoMax (x : AForm) : Statement (.amoMax x) := holds _
theorem amoMinn (x : AForm) : Statement (.amoMinn x) := holds _
theorem amoMaxn (x : AForm) : Statement (.amoMaxn x) := holds _
theorem cas (x : AForm) : Statement (.cas x) := holds _
theorem amofAdd (x : AForm) : Statement (.amofAdd x) := holds _
theorem amofMin (x : AForm) : Statement (.amofMin x) := holds _
theorem amofMax (x : AForm) : Statement (.amofMax x) := holds _
theorem amo2Swap (x : AForm) : Statement (.amo2Swap x) := holds _
theorem amo2Add (x : AForm) : Statement (.amo2Add x) := holds _
theorem amo2And (x : AForm) : Statement (.amo2And x) := holds _
theorem amo2Or (x : AForm) : Statement (.amo2Or x) := holds _
theorem amo2Xor (x : AForm) : Statement (.amo2Xor x) := holds _
theorem cas2 (x : AForm) : Statement (.cas2 x) := holds _
theorem fence (x : MForm) : Statement (.fence x) := holds _
theorem pref (x : MForm) : Statement (.pref x) := holds _
theorem prefW (x : MForm) : Statement (.prefW x) := holds _
theorem cclean (x : MForm) : Statement (.cclean x) := holds _
theorem cflush (x : MForm) : Statement (.cflush x) := holds _
theorem cinv (x : MForm) : Statement (.cinv x) := holds _
theorem vld (x : MForm) : Statement (.vld x) := holds _
theorem vst (x : MForm) : Statement (.vst x) := holds _
theorem vlds (x : VForm) : Statement (.vlds x) := holds _
theorem vsts (x : VForm) : Statement (.vsts x) := holds _
theorem vldx (x : VForm) : Statement (.vldx x) := holds _
theorem vstx (x : VForm) : Statement (.vstx x) := holds _
theorem vldb (x : VForm) : Statement (.vldb x) := holds _
theorem vldbWeak (x : VForm) : Statement (.vldbWeak x) := holds _
theorem vadd (x : VForm) : Statement (.vadd x) := holds _
theorem vsub (x : VForm) : Statement (.vsub x) := holds _
theorem vmul (x : VForm) : Statement (.vmul x) := holds _
theorem vmulh (x : VForm) : Statement (.vmulh x) := holds _
theorem vmadd (x : VForm) : Statement (.vmadd x) := holds _
theorem vand (x : VForm) : Statement (.vand x) := holds _
theorem vor (x : VForm) : Statement (.vor x) := holds _
theorem vxor (x : VForm) : Statement (.vxor x) := holds _
theorem vsll (x : VForm) : Statement (.vsll x) := holds _
theorem vsrl (x : VForm) : Statement (.vsrl x) := holds _
theorem vsra (x : VForm) : Statement (.vsra x) := holds _
theorem vmin (x : VForm) : Statement (.vmin x) := holds _
theorem vmax (x : VForm) : Statement (.vmax x) := holds _
theorem vabs (x : VForm) : Statement (.vabs x) := holds _
theorem vcmp (x : VForm) : Statement (.vcmp x) := holds _
theorem vsel (x : VForm) : Statement (.vsel x) := holds _
theorem vaddi (x : VForm) : Statement (.vaddi x) := holds _
theorem vsubi (x : VForm) : Statement (.vsubi x) := holds _
theorem vmuli (x : VForm) : Statement (.vmuli x) := holds _
theorem vandi (x : VForm) : Statement (.vandi x) := holds _
theorem vori (x : VForm) : Statement (.vori x) := holds _
theorem vxori (x : VForm) : Statement (.vxori x) := holds _
theorem vslli (x : VForm) : Statement (.vslli x) := holds _
theorem vsrli (x : VForm) : Statement (.vsrli x) := holds _
theorem vsrai (x : VForm) : Statement (.vsrai x) := holds _
theorem vmini (x : VForm) : Statement (.vmini x) := holds _
theorem vmaxi (x : VForm) : Statement (.vmaxi x) := holds _
theorem vcmpi (x : VForm) : Statement (.vcmpi x) := holds _
theorem vbcast (x : VForm) : Statement (.vbcast x) := holds _
theorem vins (x : VForm) : Statement (.vins x) := holds _
theorem vext (x : VForm) : Statement (.vext x) := holds _
theorem vperm (x : VForm) : Statement (.vperm x) := holds _
theorem vslide (x : VForm) : Statement (.vslide x) := holds _
theorem vred (x : VForm) : Statement (.vred x) := holds _
theorem vscan (x : VForm) : Statement (.vscan x) := holds _
theorem viota (x : VForm) : Statement (.viota x) := holds _
theorem vcmprs (x : VForm) : Statement (.vcmprs x) := holds _
theorem vexpnd (x : VForm) : Statement (.vexpnd x) := holds _
theorem plog (x : VForm) : Statement (.plog x) := holds _
theorem ppopc (x : VForm) : Statement (.ppopc x) := holds _
theorem pfirst (x : VForm) : Statement (.pfirst x) := holds _
theorem pset (x : VForm) : Statement (.pset x) := holds _
theorem fpsFadd (x : VForm) : Statement (.fpsFadd x) := holds _
theorem fpsFsub (x : VForm) : Statement (.fpsFsub x) := holds _
theorem fpsFmul (x : VForm) : Statement (.fpsFmul x) := holds _
theorem fpsFdiv (x : VForm) : Statement (.fpsFdiv x) := holds _
theorem fpsFsqrt (x : VForm) : Statement (.fpsFsqrt x) := holds _
theorem fpsFmin (x : VForm) : Statement (.fpsFmin x) := holds _
theorem fpsFmax (x : VForm) : Statement (.fpsFmax x) := holds _
theorem fpsFminm (x : VForm) : Statement (.fpsFminm x) := holds _
theorem fpsFmaxm (x : VForm) : Statement (.fpsFmaxm x) := holds _
theorem fpsFabs (x : VForm) : Statement (.fpsFabs x) := holds _
theorem fpsFneg (x : VForm) : Statement (.fpsFneg x) := holds _
theorem fpsFsgnj (x : VForm) : Statement (.fpsFsgnj x) := holds _
theorem fpsFcmp (x : VForm) : Statement (.fpsFcmp x) := holds _
theorem fpsFclass (x : VForm) : Statement (.fpsFclass x) := holds _
theorem fpsFrnd (x : VForm) : Statement (.fpsFrnd x) := holds _
theorem fpvFadd (x : VForm) : Statement (.fpvFadd x) := holds _
theorem fpvFsub (x : VForm) : Statement (.fpvFsub x) := holds _
theorem fpvFmul (x : VForm) : Statement (.fpvFmul x) := holds _
theorem fpvFdiv (x : VForm) : Statement (.fpvFdiv x) := holds _
theorem fpvFsqrt (x : VForm) : Statement (.fpvFsqrt x) := holds _
theorem fpvFmin (x : VForm) : Statement (.fpvFmin x) := holds _
theorem fpvFmax (x : VForm) : Statement (.fpvFmax x) := holds _
theorem fpvFminm (x : VForm) : Statement (.fpvFminm x) := holds _
theorem fpvFmaxm (x : VForm) : Statement (.fpvFmaxm x) := holds _
theorem fpvFabs (x : VForm) : Statement (.fpvFabs x) := holds _
theorem fpvFneg (x : VForm) : Statement (.fpvFneg x) := holds _
theorem fpvFsgnj (x : VForm) : Statement (.fpvFsgnj x) := holds _
theorem fpvFcmp (x : VForm) : Statement (.fpvFcmp x) := holds _
theorem fpvFclass (x : VForm) : Statement (.fpvFclass x) := holds _
theorem fpvFrnd (x : VForm) : Statement (.fpvFrnd x) := holds _
theorem ffmaVector (x : VForm) : Statement (.ffmaVector x) := holds _
theorem ffmsVector (x : VForm) : Statement (.ffmsVector x) := holds _
theorem fnfmaVector (x : VForm) : Statement (.fnfmaVector x) := holds _
theorem fnfmsVector (x : VForm) : Statement (.fnfmsVector x) := holds _
theorem fdot2 (x : VForm) : Statement (.fdot2 x) := holds _
theorem freds (x : VForm) : Statement (.freds x) := holds _
theorem ffmaScalar (x : VForm) : Statement (.ffmaScalar x) := holds _
theorem ffmsScalar (x : VForm) : Statement (.ffmsScalar x) := holds _
theorem fnfmaScalar (x : VForm) : Statement (.fnfmaScalar x) := holds _
theorem fnfmsScalar (x : VForm) : Statement (.fnfmsScalar x) := holds _
theorem fcvtVector (x : VForm) : Statement (.fcvtVector x) := holds _
theorem fcvtScalar (x : VForm) : Statement (.fcvtScalar x) := holds _
theorem qdeq (x : VForm) : Statement (.qdeq x) := holds _
theorem qquant (x : VForm) : Statement (.qquant x) := holds _
theorem scvt (x : VForm) : Statement (.scvt x) := holds _
theorem ilvp (x : VForm) : Statement (.ilvp x) := holds _
theorem ilvu (x : VForm) : Statement (.ilvu x) := holds _
theorem fexp2 (scalar : Bool) (x : VForm) : Statement (.fexp2 scalar x) := holds _
theorem fexp (scalar : Bool) (x : VForm) : Statement (.fexp scalar x) := holds _
theorem flog2 (scalar : Bool) (x : VForm) : Statement (.flog2 scalar x) := holds _
theorem fsin (scalar : Bool) (x : VForm) : Statement (.fsin scalar x) := holds _
theorem fcos (scalar : Bool) (x : VForm) : Statement (.fcos scalar x) := holds _
theorem ftanh (scalar : Bool) (x : VForm) : Statement (.ftanh scalar x) := holds _
theorem frsq (scalar : Bool) (x : VForm) : Statement (.frsq scalar x) := holds _
theorem frcp (scalar : Bool) (x : VForm) : Statement (.frcp scalar x) := holds _
theorem talloc (x : XForm) : Statement (.talloc x) := holds _
theorem tfree (x : XForm) : Statement (.tfree x) := holds _
theorem tzero (x : XForm) : Statement (.tzero x) := holds _
theorem tload (x : XForm) : Statement (.tload x) := holds _
theorem tmma (x : XForm) : Statement (.tmma x) := holds _
theorem tmmaq (x : XForm) : Statement (.tmmaq x) := holds _
theorem tqdesc (x : XForm) : Statement (.tqdesc x) := holds _
theorem tdrain (x : XForm) : Statement (.tdrain x) := holds _
theorem tstore (x : XForm) : Statement (.tstore x) := holds _
theorem tstat (x : XForm) : Statement (.tstat x) := holds _
theorem copy (x : XForm) : Statement (.copy x) := holds _
theorem cseal (x : XForm) : Statement (.cseal x) := holds _
theorem cwait (x : XForm) : Statement (.cwait x) := holds _
theorem winset (x : XForm) : Statement (.winset x) := holds _
theorem winadv (x : XForm) : Statement (.winadv x) := holds _
theorem winflush (x : XForm) : Statement (.winflush x) := holds _
theorem tlget (x : XForm) : Statement (.tlget x) := holds _
theorem bgset (x : XForm) : Statement (.bgset x) := holds _
theorem barr (x : XForm) : Statement (.barr x) := holds _
theorem bwait (x : XForm) : Statement (.bwait x) := holds _
theorem phase (x : XForm) : Statement (.phase x) := holds _
theorem xmit (x : XForm) : Statement (.xmit x) := holds _
theorem isel (x : XForm) : Statement (.isel x) := holds _
theorem xrecv (x : XForm) : Statement (.xrecv x) := holds _
theorem spawn (x : XForm) : Statement (.spawn x) := holds _
theorem spawnat (x : XForm) : Statement (.spawnat x) := holds _
theorem taskget (x : XForm) : Statement (.taskget x) := holds _
theorem rgres (x : XForm) : Statement (.rgres x) := holds _
theorem rgpub (x : XForm) : Statement (.rgpub x) := holds _
theorem rgtake (x : XForm) : Statement (.rgtake x) := holds _
theorem rgdone (x : XForm) : Statement (.rgdone x) := holds _
theorem send (x : XForm) : Statement (.send x) := holds _
theorem recv (x : XForm) : Statement (.recv x) := holds _
theorem rank (x : XForm) : Statement (.rank x) := holds _
theorem rankN (x : XForm) : Statement (.rankN x) := holds _
theorem rankOf (x : XForm) : Statement (.rankOf x) := holds _
theorem coll (x : XForm) : Statement (.coll x) := holds _
theorem grpjoin (x : XForm) : Statement (.grpjoin x) := holds _
theorem grpfree (x : XForm) : Statement (.grpfree x) := holds _
theorem nop : Statement .nop := holds _
theorem nopX : Statement .nopX := holds _
theorem eret : Statement .eret := holds _
theorem eretX : Statement .eretX := holds _
theorem beat : Statement .beat := holds _
theorem beatX : Statement .beatX := holds _
theorem ret : Statement .ret := holds _
theorem retX : Statement .retX := holds _
theorem retire : Statement .retire := holds _
theorem retireX : Statement .retireX := holds _
theorem endK : Statement .endK := holds _
theorem endX : Statement .endX := holds _
theorem yieldK : Statement .yieldK := holds _
theorem yieldX : Statement .yieldX := holds _
theorem fencesc : Statement .fencesc := holds _
theorem fencescX : Statement .fencescX := holds _
theorem fencescSys : Statement .fencescSys := holds _
theorem fencescSysX : Statement .fencescSysX := holds _
theorem taskend : Statement .taskend := holds _
theorem tileLoadDone (k : CoreId) (w : Fin 8) : Statement (.tileLoadDone k w) := holds _
theorem shipPacketArrival (h : HiveId) (n : Nat) : Statement (.shipPacketArrival h n) := holds _
theorem guestIssue (h : HiveId) (n : Nat) : Statement (.guestIssue h n) := holds _
theorem guestAgeingExpiry (h : HiveId) (n : Nat) : Statement (.guestAgeingExpiry h n) := holds _
theorem shipResultLanding (h : HiveId) (n : Nat) : Statement (.shipResultLanding h n) := holds _
theorem shipRetransmit (h : HiveId) (n : Nat) : Statement (.shipRetransmit h n) := holds _
theorem gshareUpdate (h : HiveId) : Statement (.gshareUpdate h) := holds _
theorem matCommandAccept (c : CtxId) : Statement (.matCommandAccept c) := holds _
theorem matStep (c : CtxId) (n : Nat) : Statement (.matStep c n) := holds _
theorem matCommandComplete (c : CtxId) : Statement (.matCommandComplete c) := holds _
theorem matFault (c : CtxId) (n : Nat) : Statement (.matFault c n) := holds _
theorem mcastWaitExpiry (c : CtxId) (n : Nat) : Statement (.mcastWaitExpiry c n) := holds _
theorem tdrainRowDispatch (c : CtxId) : Statement (.tdrainRowDispatch c) := holds _
theorem helperAssign (k : CoreId) : Statement (.helperAssign k) := holds _
theorem copyAccept (c : CtxId) : Statement (.copyAccept c) := holds _
theorem copyChunk (c : CtxId) (n : Nat) : Statement (.copyChunk c n) := holds _
theorem copyComplete (c : CtxId) (n : Nat) : Statement (.copyComplete c n) := holds _
theorem copyFault (c : CtxId) (n : Nat) : Statement (.copyFault c n) := holds _
theorem waitEvaluate (c : CtxId) : Statement (.waitEvaluate c) := holds _
theorem waitTimeout (c : CtxId) : Statement (.waitTimeout c) := holds _
theorem yieldExpiry (c : CtxId) : Statement (.yieldExpiry c) := holds _
theorem barrierTokenArrival (die n : Nat) : Statement (.barrierTokenArrival die n) := holds _
theorem barrierReleaseArrival (die n : Nat) : Statement (.barrierReleaseArrival die n) := holds _
theorem phaseStart (k : CoreId) (bg : Fin 4) : Statement (.phaseStart k bg) := holds _
theorem bwaitTimeout (c : CtxId) : Statement (.bwaitTimeout c) := holds _
theorem wireWordArrival (die n : Nat) : Statement (.wireWordArrival die n) := holds _
theorem stealProbe (k : CoreId) : Statement (.stealProbe k) := holds _
theorem stealResponse (k : CoreId) : Statement (.stealResponse k) := holds _
theorem spawnatDelivery (n : Nat) : Statement (.spawnatDelivery n) := holds _
theorem spawnTimeout (c : CtxId) : Statement (.spawnTimeout c) := holds _
theorem taskgetTimeout (c : CtxId) : Statement (.taskgetTimeout c) := holds _
theorem rgtakeTimeout (c : CtxId) : Statement (.rgtakeTimeout c) := holds _
theorem messageDelivery (k : CoreId) (n : Nat) : Statement (.messageDelivery k n) := holds _
theorem recvTimeout (c : CtxId) : Statement (.recvTimeout c) := holds _
theorem collRoundComplete (launch group : Nat) : Statement (.collRoundComplete launch group) := holds _
theorem groupGenerationDrain (launch group : Nat) : Statement (.groupGenerationDrain launch group) := holds _
theorem crossDieMessageApply (die n : Nat) : Statement (.crossDieMessageApply die n) := holds _
theorem clockBeat (src dst : Nat) : Statement (.clockBeat src dst) := holds _
theorem fenceSequencerTicket (die : Nat) : Statement (.fenceSequencerTicket die) := holds _
theorem directoryReadMiss (die line : Nat) (k : CoreId) : Statement (.directoryReadMiss die line k) := holds _
theorem ownershipRequest (die line : Nat) (k : CoreId) : Statement (.ownershipRequest die line k) := holds _
theorem hiveInvalidation (die line : Nat) (h : HiveId) : Statement (.hiveInvalidation die line h) := holds _
theorem invalidationAck (die line : Nat) (h : HiveId) : Statement (.invalidationAck die line h) := holds _
theorem cleanEvictionNotice (die line : Nat) (k : CoreId) : Statement (.cleanEvictionNotice die line k) := holds _
theorem dirtyWriteBack (die line : Nat) (k : CoreId) : Statement (.dirtyWriteBack die line k) := holds _
theorem replicaOffer (die line : Nat) (k : CoreId) : Statement (.replicaOffer die line k) := holds _
theorem proxyWriteThrough (die line : Nat) (k : CoreId) : Statement (.proxyWriteThrough die line k) := holds _
theorem dbpkt (page : DoorbellPage) (addr : Word) : Statement (.dbpkt page addr) := holds _
theorem fabricSubmission (source part : Nat) (packet : BitVec 11264) : Statement (.fabricSubmission source part packet) := holds _
theorem lotteryDraw (part : Nat) : Statement (.lotteryDraw part) := holds _
theorem forcedHeadRetry (part : Nat) : Statement (.forcedHeadRetry part) := holds _
theorem governorSample (launch : Nat) : Statement (.governorSample launch) := holds _
theorem groupMove (launch ring : Nat) : Statement (.groupMove launch ring) := holds _
theorem stageComplete (launch stage : Nat) : Statement (.stageComplete launch stage) := holds _
theorem preemptionRequest (k : CoreId) : Statement (.preemptionRequest k) := holds _
theorem coreHalt (k : CoreId) : Statement (.coreHalt k) := holds _
theorem coreSave (k : CoreId) : Statement (.coreSave k) := holds _
theorem contextMove (source k : CoreId) : Statement (.contextMove source k) := holds _
theorem shootdownRequest (part : Nat) : Statement (.shootdownRequest part) := holds _
theorem shootdownComplete (part : Nat) : Statement (.shootdownComplete part) := holds _
theorem heartbeatMiss (k : CoreId) : Statement (.heartbeatMiss k) := holds _
theorem fenceQuiescenceTimeout (k : CoreId) : Statement (.fenceQuiescenceTimeout k) := holds _
theorem fenceRehome (source k : CoreId) : Statement (.fenceRehome source k) := holds _
theorem telemetryFrame (f : EthFrame) : Statement (.telemetryFrame f) := holds _
theorem telemetryLoss : Statement .telemetryLoss := holds _
theorem activeCountRise : Statement .activeCountRise := holds _
theorem forcedShed (k : CoreId) : Statement (.forcedShed k) := holds _
theorem parkedSwitchOff (k : CoreId) : Statement (.parkedSwitchOff k) := holds _
theorem coreSwitchOn (k : CoreId) : Statement (.coreSwitchOn k) := holds _
theorem dividerWindowEnd (k : CoreId) : Statement (.dividerWindowEnd k) := holds _
theorem segmentVoltageReached (g : SegId) : Statement (.segmentVoltageReached g) := holds _
theorem droopTrip (g : SegId) : Statement (.droopTrip g) := holds _
theorem droopRecovery (k : CoreId) : Statement (.droopRecovery k) := holds _
theorem errorDetected (die : Nat) (cls : ErrClass) (unit : Nat) (pos : Nat) (part : Option Nat) : Statement (.errorDetected die cls unit pos part) := holds _
theorem thermalTrip (die : Nat) : Statement (.thermalTrip die) := holds _
theorem managementWatchdog : Statement .managementWatchdog := holds _
theorem linkLaneFailure (die : Nat) (d : Dir) : Statement (.linkLaneFailure die d) := holds _
theorem linkDown (die : Nat) (d : Dir) : Statement (.linkDown die d) := holds _
theorem replayDivergence (part launch : Nat) : Statement (.replayDivergence part launch) := holds _
theorem moduleReset : Statement .moduleReset := holds _
theorem mbec (v : BitVec 32) : Statement (.mbec v) := holds _
theorem mmioRegisterWrite (r : MmioReg) (v : Word) : Statement (.mmioRegisterWrite r v) := holds _
theorem info (c : Cmd) : Statement (.info c) := holds _
theorem partCreate (c : Cmd) (a : PartArgs) : Statement (.partCreate c a) := holds _
theorem partAssign (c : Cmd) (die : Nat) (kind : UnitKind) (units : List Nat) : Statement (.partAssign c die kind units) := holds _
theorem partRelease (c : Cmd) (die : Nat) (kind : UnitKind) (units : List Nat) : Statement (.partRelease c die kind units) := holds _
theorem partDestroy (c : Cmd) : Statement (.partDestroy c) := holds _
theorem partSet (c : Cmd) (a : PartSetArgs) : Statement (.partSet c a) := holds _
theorem vfBind (c : Cmd) (vf : Nat) (bind : Bool) : Statement (.vfBind c vf bind) := holds _
theorem fabricAllow (c : Cmd) (sources : List Nat) : Statement (.fabricAllow c sources) := holds _
theorem krangeSet (c : Cmd) (die n : Nat) (v : BitVec 128) : Statement (.krangeSet c die n v) := holds _
theorem keyZeroise (c : Cmd) (dies : List Nat) (slot : Nat) : Statement (.keyZeroise c dies slot) := holds _
theorem preempt (c : Cmd) (cores : List CoreId) (save : Bool) : Statement (.preempt c cores save) := holds _
theorem abort (c : Cmd) (lid : BitVec 32) : Statement (.abort c lid) := holds _
theorem restore (c : Cmd) (cores : List CoreId) : Statement (.restore c cores) := holds _
theorem pwrSet (c : Cmd) (cfg time dvcfg : Word) (ddctl : List (SegId × Word)) : Statement (.pwrSet c cfg time dvcfg ddctl) := holds _
theorem curveSet (c : Cmd) (curve : Vector Word 8) : Statement (.curveSet c curve) := holds _
theorem pwrQuery (c : Cmd) : Statement (.pwrQuery c) := holds _
theorem recSet (c : Cmd) (mode : BitVec 2) (base size dest : Nat) : Statement (.recSet c mode base size dest) := holds _
theorem recQuery (c : Cmd) : Statement (.recQuery c) := holds _
theorem errlogRead (c : Cmd) (die : Nat) (dst : Nat) : Statement (.errlogRead c die dst) := holds _
theorem repairHive (c : Cmd) (h : HiveId) : Statement (.repairHive c h) := holds _
theorem fenceClear (c : Cmd) (k : CoreId) : Statement (.fenceClear c k) := holds _
theorem dumpRead (c : Cmd) (scope : DumpScope) (dst len : Nat) : Statement (.dumpRead c scope dst len) := holds _
theorem dumpDiscard (c : Cmd) (scope : DumpScope) : Statement (.dumpDiscard c scope) := holds _
theorem configStage (c : Cmd) (block : List Byte) : Statement (.configStage c block) := holds _
theorem getVersion : Statement .getVersion := holds _
theorem getCapabilities : Statement .getCapabilities := holds _
theorem negotiateAlgorithms : Statement .negotiateAlgorithms := holds _
theorem getDigests : Statement .getDigests := holds _
theorem getCertificate (offset len : Nat) : Statement (.getCertificate offset len) := holds _
theorem challenge (nonce : BitVec 256) : Statement (.challenge nonce) := holds _
theorem getMeasurements (index : Nat) : Statement (.getMeasurements index) := holds _
theorem keyExchange (exchange : List Byte) : Statement (.keyExchange exchange) := holds _
theorem finish (session : Nat) (verify : BitVec 256) : Statement (.finish session verify) := holds _
theorem heartbeat (session : Nat) : Statement (.heartbeat session) := holds _
theorem keyUpdate (session : Nat) : Statement (.keyUpdate session) := holds _
theorem endSession (session : Nat) : Statement (.endSession session) := holds _
theorem keyOpen (session part : Nat) (dies : List Nat) (slot : Nat) (keyid : BitVec 32) : Statement (.keyOpen session part dies slot keyid) := holds _
theorem keyWrap (session : Nat) (cipher wrapped : List Byte) : Statement (.keyWrap session cipher wrapped) := holds _
theorem keyLoad (session : Nat) : Statement (.keyLoad session) := holds _
theorem shelfKey (session : Nat) (cipher wrapped : List Byte) : Statement (.shelfKey session cipher wrapped) := holds _
theorem illegalEncoding (w : IWord) (len : BitVec 2) : Statement (.illegalEncoding w len) := holds _
theorem instructionFetchFault (access : Bool) (addr : Word) : Statement (.instructionFetchFault access addr) := holds _
theorem readReply (k : CoreId) (line : Nat) (dest : ReplyTo) : Statement (.readReply k line dest) := holds _
theorem localMemoryPortAccess (k : CoreId) (off : Nat) (scratch : Bool) (a : PortAccess) : Statement (.localMemoryPortAccess k off scratch a) := holds _
theorem hostMemoryRequest (vf : Nat) (addr : Nat) (a : HostAccess) : Statement (.hostMemoryRequest vf addr a) := holds _
theorem replayInject (part : Nat) : Statement (.replayInject part) := holds _

end Sys2Proof.Laws.Encoding
end

