-- ==== Sys2Proof/WellFormed.lean ====
section
/-! DEFINITION. Which instructions are well formed: those no rule of spec/02 Table 2.11 calls ILLEGAL, and events that
name cores, dies, hives and partitions the module has (01 R13, R16, 17 R355). -/

namespace Sys2Proof

/-- A core the module has. -/
def CoreId.ok (k : CoreId) : Bool :=
  decide (k.die < 36) && (if k.big then decide (k.row < 24) && decide (k.col < 24)
    else decide (k.row < 96) && decide (k.col < 192))

/-- A hive the module has. -/
def HiveId.ok (h : HiveId) : Bool := decide (h.die < 36) && decide (h.row < 24) && decide (h.col < 24)

/-- The cores an event names. -/
def Instr.coresNamed : Instr → List CoreId
  | .tileLoadDone k _ | .helperAssign k | .phaseStart k _ | .stealProbe k | .stealResponse k | .messageDelivery k _
  | .directoryReadMiss _ _ k | .ownershipRequest _ _ k | .cleanEvictionNotice _ _ k | .dirtyWriteBack _ _ k
  | .replicaOffer _ _ k | .proxyWriteThrough _ _ k | .preemptionRequest k | .coreHalt k | .coreSave k
  | .heartbeatMiss k | .fenceQuiescenceTimeout k | .forcedShed k | .parkedSwitchOff k | .coreSwitchOn k
  | .dividerWindowEnd k | .droopRecovery k | .readReply k _ _ | .localMemoryPortAccess k _ _ _ | .fenceClear _ k => [k]
  | .contextMove k k' | .fenceRehome k k' => [k, k']
  | .matCommandAccept c | .matStep c _ | .matCommandComplete c | .matFault c _ | .mcastWaitExpiry c _
  | .tdrainRowDispatch c | .copyAccept c | .copyChunk c _ | .copyComplete c _ | .copyFault c _ | .waitEvaluate c
  | .waitTimeout c | .yieldExpiry c | .bwaitTimeout c | .spawnTimeout c | .taskgetTimeout c | .rgtakeTimeout c
  | .recvTimeout c => [c.core]
  | .preempt _ ks _ | .restore _ ks => ks
  | _ => []

/-- The hives an event names. -/
def Instr.hivesNamed : Instr → List HiveId
  | .shipPacketArrival h _ | .guestIssue h _ | .guestAgeingExpiry h _ | .shipResultLanding h _ | .shipRetransmit h _
  | .gshareUpdate h | .hiveInvalidation _ _ h | .invalidationAck _ _ h | .repairHive _ h => [h]
  | _ => []

/-- The dies an event names. -/
def Instr.diesNamed : Instr → List Nat
  | .barrierTokenArrival d _ | .barrierReleaseArrival d _ | .wireWordArrival d _ | .crossDieMessageApply d _
  | .fenceSequencerTicket d | .directoryReadMiss d _ _ | .ownershipRequest d _ _ | .hiveInvalidation d _ _
  | .invalidationAck d _ _ | .cleanEvictionNotice d _ _ | .dirtyWriteBack d _ _ | .replicaOffer d _ _
  | .proxyWriteThrough d _ _ | .errorDetected d _ _ _ _ | .thermalTrip d | .linkLaneFailure d _ | .linkDown d _
  | .partAssign _ d _ _ | .partRelease _ d _ _ | .krangeSet _ d _ _ | .errlogRead _ d _ => [d]
  | .clockBeat a b => [a, b]
  | .keyZeroise _ ds _ | .keyOpen _ _ ds _ _ => ds
  | _ => []

/-- The partition a mailbox command names: 6 bits (21 Table 21.2). -/
def Instr.partsNamed : Instr → List Nat
  | .info c | .partCreate c _ | .partAssign c _ _ _ | .partRelease c _ _ _ | .partDestroy c | .partSet c _
  | .vfBind c _ _ | .fabricAllow c _ | .krangeSet c _ _ _ | .keyZeroise c _ _ | .preempt c _ _ | .abort c _
  | .restore c _ | .pwrSet c _ _ _ _ | .curveSet c _ | .pwrQuery c | .recSet c _ _ _ _ | .recQuery c
  | .errlogRead c _ _ | .repairHive c _ | .fenceClear c _ | .dumpRead c _ _ _ | .dumpDiscard c _ | .configStage c _ =>
    [c.part]
  | .lotteryDraw p | .forcedHeadRetry p | .shootdownRequest p | .shootdownComplete p | .replayDivergence p _
  | .replayInject p => [p]
  | _ => []

/-- Well-formed instructions, events and commands. -/
def Instr.wellFormed (i : Instr) : Bool :=
  i.legal && i.coresNamed.all CoreId.ok && i.hivesNamed.all HiveId.ok && i.diesNamed.all (fun d => decide (d < 36)) &&
    i.partsNamed.all fun p => decide (p < 64)

end Sys2Proof
end

