-- ==== Sys2Proof/Tests/Slice0.lean ====
section
/-! SUPPORT. Tests: terms that are not well formed, words written out from the spec's encodings, the spec's worked examples,
and for every statement a state and operands that meet its hypotheses. -/

namespace Sys2Proof.Tests

set_option Elab.async false

open Sys2Proof Sys2Proof.Machine Sys2Proof.Claims

/-! ## Well-formedness: one term for each check, which the check refuses -/

/-- 02 R38: PN = 1 with PRED = 000 is ILLEGAL. -/
theorem test_illegal_complement_of_p0 :
    (Instr.add { mod := 0, b := 0, a := 0, d := 0,
                 form := .ext { sat := 0, rm := 0, pn := 1, z := 0, pred := 0, c := 0 } 0 }).wellFormed = false := by decide

/-- 01 R13: the module has dies 0 to 35. -/
theorem test_core_of_die_36 :
    (Instr.coreHalt { big := false, die := 36, row := 0, col := 0 }).wellFormed = false := by decide

/-- 01 R16: a die has 24 rows of hives. -/
theorem test_hive_row_24 : (Instr.gshareUpdate { die := 0, row := 24, col := 0 }).wellFormed = false := by decide

theorem test_die_36 : (Instr.thermalTrip 36).wellFormed = false := by decide

/-- 17 R355: the module has partitions 0 to 63. -/
theorem test_partition_64 : (Instr.lotteryDraw 64).wellFormed = false := by decide

theorem test_well_formed :
    (Instr.coreHalt { big := false, die := 35, row := 95, col := 191 }).wellFormed = true ∧
    (Instr.gshareUpdate { die := 0, row := 23, col := 23 }).wellFormed = true ∧
    (Instr.thermalTrip 35).wellFormed = true ∧ (Instr.lotteryDraw 63).wellFormed = true ∧
    (Instr.add { mod := 3, b := 1, a := 2, d := 3, form := .base }).wellFormed = true := by decide

/-! ## Decoding: words written out bit by bit from the tables, or given by the spec's worked encodings -/

/-- E1 with every field 0. -/
def e1 : E1 := { sat := 0, rm := 0, pn := 0, z := 0, pred := 0, c := 0 }

/-- 04 R110: `MFS s4, COREID` is 0x02040400. -/
theorem test_decode_mfs : decode [0x02040400#32] = .ok (.mfs { mod := 0, b := 1, a := 0, d := 4, form := .base }) := rfl

/-- 04 R110: NOP is 0x00800000. -/
theorem test_decode_nop : decode [0x00800000#32] = .ok .nop := rfl

/-- 04 R87: `ADD.i32 s1, s2, s3` is 0x200C4104. -/
theorem test_decode_add : decode [0x200C4104#32] = .ok (.add { mod := 2, b := 3, a := 2, d := 1, form := .base }) := rfl

/-- 04 R87: with .sat it takes E1 = 0x00002000. -/
theorem test_decode_add_sat :
    decode [0x200C4106#32, 0x2000#32, 0#32] =
      .ok (.add { mod := 2, b := 3, a := 2, d := 1, form := .ext { e1 with sat := 1 } 0 }) := rfl

/-- 02 Table 2.3, 04 Table 4.3: ADDI, IMM10 = −1, FN4 0000, A = 2, D = 1, MAJOR 0x02. -/
theorem test_decode_addi :
    decode [0x3FF#10 ++ 0#4 ++ 2#5 ++ 1#5 ++ 2#6 ++ 0#2] = .ok (.addi { imm := 0x3FF, a := 2, d := 1, form := .base }) := rfl

/-- 04 Table 4.4: MUL, FN 00000, MAJOR 0x03; 02 Table 2.1: with a literal. -/
theorem test_decode_mul :
    decode [0#4 ++ 0#5 ++ 0#5 ++ 2#5 ++ 1#5 ++ 3#6 ++ 1#2, 5#32, 7#32] =
      .ok (.mul { mod := 0, b := 0, a := 2, d := 1, form := .lit 0x0000000700000005 }) := rfl

/-- 04 Table 4.5: BFX, FN 00101, MAJOR 0x04. -/
theorem test_decode_bfx :
    decode [0#4 ++ 5#5 ++ 3#5 ++ 2#5 ++ 1#5 ++ 4#6 ++ 0#2] = .ok (.bfx { mod := 0, b := 3, a := 2, d := 1, form := .base }) := rfl

/-- 04 Table 4.6: LEA, FN 00000, MOD 0011, MAJOR 0x05. -/
theorem test_decode_lea :
    decode [3#4 ++ 0#5 ++ 3#5 ++ 2#5 ++ 1#5 ++ 5#6 ++ 0#2] = .ok (.lea { mod := 3, b := 3, a := 2, d := 1, form := .base }) := rfl

/-- 04 R103: a CALL to a label 64 bytes before it is 0xFC380018. -/
theorem test_decode_call :
    decode [0xFC380018#32] = .ok (.call { disp := 0x3F0, cond := 14, a := 0, b := 0, form := .base }) := rfl

/-- 04 Table 4.9: BCC.lt, COND 0010, A in bits 17:13 and B in bits 12:8. -/
theorem test_decode_bcc :
    decode [8#10 ++ 2#4 ++ 4#5 ++ 5#5 ++ 6#6 ++ 0#2] = .ok (.bcc { disp := 8, cond := 2, a := 4, b := 5, form := .base }) := rfl

/-- 04 R101: J, DISP24, MAJOR 0x07. -/
theorem test_decode_j : decode [0xFFFFFF#24 ++ 7#6 ++ 0#2] = .ok (.j { disp := 0xFFFFFF, form := .base }) := rfl

/-- 04 R102: CALLI s4, FN 00001, MAJOR 0x08. -/
theorem test_decode_calli :
    decode [0#4 ++ 1#5 ++ 0#5 ++ 4#5 ++ 0#5 ++ 8#6 ++ 0#2] = .ok (.calli { mod := 0, b := 0, a := 4, d := 0, form := .base }) := rfl

/-- 08 R194: `START s3, s4, s5, s6`. -/
theorem test_decode_start :
    decode [0x00148326#32, 6#32, 0#32] = .ok (.start { mod := 0, b := 5, a := 4, d := 3, e1 := 6, e2 := 0 }) := rfl

/-- 08 R200: `WAIT.all s9, s10, v4` with E1 = 0x00510021. -/
theorem test_decode_wait :
    decode [0x12914926#32, 0x00510021#32, 0#32] =
      .ok (.wait { mod := 1, b := 4, a := 10, d := 9, e1 := 0x00510021, e2 := 0 }) := rfl

/-- 02 Table 2.12: `LD.i32 s5, [s2+16]`. -/
theorem test_decode_ld :
    decode [0x10084528#32] = .ok (.ld { off := 4, scope := 0, ord := 0, sz := 2, a := 2, d := 5, form := .base }) := rfl

/-- 09 Table 9.1: STP, SZ 100, ORD 10, SCOPE 011, MAJOR 0x0B. -/
theorem test_decode_stp :
    decode [1#6 ++ 3#3 ++ 2#2 ++ 4#3 ++ 2#5 ++ 6#5 ++ 11#6 ++ 0#2] =
      .ok (.stp { off := 1, scope := 3, ord := 2, sz := 4, a := 2, d := 6, form := .base }) := rfl

/-- 04 R106: CHKLD, SZ 100, MAJOR 0x0C. -/
theorem test_decode_chkld :
    decode [0#6 ++ 0#3 ++ 0#2 ++ 4#3 ++ 2#5 ++ 6#5 ++ 12#6 ++ 0#2] =
      .ok (.chkld { off := 0, scope := 0, ord := 0, sz := 4, a := 2, d := 6, form := .base }) := rfl

/-- 09 R222: `AMO.add.i64.ar.die s3, [s4+8], s5`. -/
theorem test_decode_amo :
    decode [0x056C8336#32, 5#32, 8#32] =
      .ok (.amoAdd { scope := 2, ord := 3, sz := 3, a := 4, d := 3, n := 0, c := 5, e2 := 8 }) := rfl

/-- 09 Table 9.7: FENCE, FOP 00001, ORD 11, SCOPE 011, MAJOR 0x0E. -/
theorem test_decode_fence :
    decode [0#6 ++ 3#3 ++ 3#2 ++ 0#3 ++ 0#5 ++ 1#5 ++ 14#6 ++ 0#2] =
      .ok (.fence { off := 0, scope := 3, ord := 3, sz := 0, a := 0, d := 1, form := .base }) := rfl

/-- 09 R215: VLD of 32-bit lanes, MAJOR 0x0F. -/
theorem test_decode_vld :
    decode [1#6 ++ 0#3 ++ 0#2 ++ 2#3 ++ 2#5 ++ 9#5 ++ 15#6 ++ 0#2] =
      .ok (.vld { off := 1, scope := 0, ord := 0, sz := 2, a := 2, d := 9, form := .base }) := rfl

/-- 09 R215: VST, MAJOR 0x10. -/
theorem test_decode_vst :
    decode [0x3F#6 ++ 0#3 ++ 0#2 ++ 3#3 ++ 2#5 ++ 9#5 ++ 16#6 ++ 0#2] =
      .ok (.vst { off := 0x3F, scope := 0, ord := 0, sz := 3, a := 2, d := 9, form := .base }) := rfl

/-- 09 Table 9.3: VLDX, FN4 0010, TY3 010, PG2 01, MAJOR 0x11. -/
theorem test_decode_vldx :
    decode [2#3 ++ 2#4 ++ 1#2 ++ 7#5 ++ 2#5 ++ 9#5 ++ 17#6 ++ 0#2] =
      .ok (.vldx { ty := 2, pg := 1, b := 7, a := 2, d := 9, form := .base }) := rfl

/-- 05 Table 5.2: VSUB, FN4 0001, TY3 100, MAJOR 0x12. -/
theorem test_decode_vsub :
    decode [4#3 ++ 1#4 ++ 3#2 ++ 3#5 ++ 2#5 ++ 1#5 ++ 18#6 ++ 0#2] =
      .ok (.vsub { ty := 4, pg := 3, b := 3, a := 2, d := 1, form := .base }) := rfl

/-- 05 Table 5.2: VADDI with B = −16, MAJOR 0x13. -/
theorem test_decode_vaddi :
    decode [0#3 ++ 0#4 ++ 0#2 ++ 16#5 ++ 2#5 ++ 1#5 ++ 19#6 ++ 0#2] =
      .ok (.vaddi { ty := 0, pg := 0, b := 16, a := 2, d := 1, form := .base }) := rfl

/-- 05 Table 5.3: VRED.max, FN4 0101, B 00101, MAJOR 0x14. -/
theorem test_decode_vred :
    decode [7#3 ++ 5#4 ++ 0#2 ++ 5#5 ++ 2#5 ++ 1#5 ++ 20#6 ++ 0#2] =
      .ok (.vred { ty := 7, pg := 0, b := 5, a := 2, d := 1, form := .base }) := rfl

/-- 05 Table 5.4: PLOG.xnor, FN4 0000, TY3 111, MAJOR 0x15. -/
theorem test_decode_plog :
    decode [7#3 ++ 0#4 ++ 0#2 ++ 3#5 ++ 2#5 ++ 1#5 ++ 21#6 ++ 0#2] =
      .ok (.plog { ty := 7, pg := 0, b := 3, a := 2, d := 1, form := .base }) := rfl

/-- 05 Table 5.5: FDIV.f64, FN4 0011, TY3 011, MAJOR 0x16. -/
theorem test_decode_fps :
    decode [3#3 ++ 3#4 ++ 0#2 ++ 3#5 ++ 2#5 ++ 1#5 ++ 22#6 ++ 0#2] =
      .ok (.fpsFdiv { ty := 3, pg := 0, b := 3, a := 2, d := 1, form := .base }) := rfl

/-- 05 R132: `FADD.f32 v1, v2, v3, p1` is 0x408C415C. -/
theorem test_decode_fpv :
    decode [0x408C415C#32] = .ok (.fpvFadd { ty := 2, pg := 1, b := 3, a := 2, d := 1, form := .base }) := rfl

/-- 05 Table 5.6: FDOT2, FN4 0100, TY3 001, MAJOR 0x18. -/
theorem test_decode_fdot2 :
    decode [1#3 ++ 4#4 ++ 0#2 ++ 3#5 ++ 2#5 ++ 1#5 ++ 24#6 ++ 0#2] =
      .ok (.fdot2 { ty := 1, pg := 0, b := 3, a := 2, d := 1, form := .base }) := rfl

/-- 05 R139, Table 5.7: FCVT from .f32 (01100) to .i8 (00000), FN4 0000, extended form, MAJOR 0x19. -/
theorem test_decode_fcvt :
    decode [0#3 ++ 0#4 ++ 0#2 ++ 0#5 ++ 2#5 ++ 1#5 ++ 25#6 ++ 2#2, 0#32, 0x0C00#32] =
      .ok (.fcvtVector { ty := 0, pg := 0, b := 0, a := 2, d := 1, form := .ext e1 0x0C00 }) := rfl

/-- 05 R144: scalar FRCP, FN4 1111, MAJOR 0x1A. -/
theorem test_decode_frcp :
    decode [2#3 ++ 15#4 ++ 0#2 ++ 0#5 ++ 2#5 ++ 1#5 ++ 26#6 ++ 0#2] =
      .ok (.frcp true { ty := 2, pg := 0, b := 0, a := 2, d := 1, form := .base }) := rfl

/-- 07 R185: `TMMA` of the worked encoding. -/
theorem test_decode_tmma :
    decode [0x5214806E#32, 0x226#32, 0x40#32] =
      .ok (.tmma { mod := 5, b := 5, a := 4, d := 0, e1 := 0x226, e2 := 0x40 }) := rfl

/-- 11 Table 11.4a: `WINADV.wb s8, WIN2` is 0xA2000872. -/
theorem test_decode_winadv :
    decode [0xA2000872#32, 0#32, 0#32] = .ok (.winadv { mod := 10, b := 0, a := 0, d := 8, e1 := 0, e2 := 0 }) := rfl

/-- 12 Table 12.5: `XRECV.w s6, 2` is 0x33000676. -/
theorem test_decode_xrecv :
    decode [0x33000676#32, 0#32, 2#32] = .ok (.xrecv { mod := 3, b := 0, a := 0, d := 6, e1 := 0, e2 := 2 }) := rfl

/-- 13 Table 13.4: `RGRES s5, s6, 3` is 0x3200057A, 0x00000006. -/
theorem test_decode_rgres :
    decode [0x3200057A#32, 6#32, 0#32] = .ok (.rgres { mod := 3, b := 0, a := 0, d := 5, e1 := 6, e2 := 0 }) := rfl

/-- 13 Table 13.4: `SEND s3, v4, 7` is 0x0010607E, 0, 7. -/
theorem test_decode_send :
    decode [0x0010607E#32, 0#32, 7#32] = .ok (.send { mod := 0, b := 4, a := 3, d := 0, e1 := 0, e2 := 7 }) := rfl

/-- 02: words that raise ILLEGAL, from the table of the worked encodings and from R43, R44. -/
theorem test_decode_illegal :
    ([0x10084529#32, 0x12884528#32, 0x000845A8#32, 0#32, 0xFFFFFFFF#32].all fun w =>
      match decode [w, 0, 0, 0, 0] with
      | .ok _ => false
      | .error _ => true) = true := by decide

/-- 02 R28: an instruction cut short is no instruction. -/
theorem test_decode_truncated : decode [0x0008452A#32, 0#32] = .error .truncated := rfl

/-! ## Small states -/

/-- The state after reset with context c acting: live, otherwise as `f` leaves it. -/
def acting (c : CtxId) (f : Context → Context) : State :=
  let s := { State.reset with cur := c }
  s.setMe (f { s.me with live := true })

/-- The control context of little core 0:0:0. -/
def little (f : Context → Context) : State := acting core0 f

/-- The control context of big core 0:0:0. -/
def bigCore : CtxId := { core := { big := true, die := 0, row := 0, col := 0 }, num := 0 }

/-- It acts. -/
def big (f : Context → Context) : State := acting bigCore f

/-- The next state, where there is one. -/
def after (s : State) (i : Instr) : Option State :=
  match exec i s with
  | .next t => some t
  | _ => none

/-- A scalar register after an instruction. -/
def scalarAfter (s : State) (i : Instr) (r : Reg) : Option Word := (after s i).map fun t => t.me.getS r

/-- FCTL after an instruction. -/
def fctlAfter (s : State) (i : Instr) : Option Word := (after s i).map fun t => t.me.fctl

/-! ## The spec's worked examples -/

/-- 04 R87: ADD.i32 of 0x7FFFFFFF and 1, without SAT and with it. -/
theorem test_add_i32 :
    scalarAfter (little fun m => (m.setS 2 0x7FFFFFFF).setS 3 1)
      (.add { mod := 2, b := 3, a := 2, d := 1, form := .base }) 1 = some 0xFFFFFFFF80000000#64 := by decide +kernel

theorem test_add_i32_sat :
    let s := little fun m => (m.setS 2 0x7FFFFFFF).setS 3 1
    let i := Instr.add { mod := 2, b := 3, a := 2, d := 1, form := .ext { e1 with sat := 1 } 0 }
    scalarAfter s i 1 = some 0x7FFFFFFF#64 ∧ fctlAfter s i = some 0x10020#64 := by decide +kernel

/-- 04 R99: the worked GADDR. -/
theorem test_gaddr :
    scalarAfter (little fun m => { (m.setS 6 0x0000000D0000002A).setS 7 0x1000 with
        dist := m.dist.set 1 0x00006102008199C4 })
      (.gaddr { mod := 1, b := 7, a := 6, d := 5, form := .base }) 5 = some 0x8000000C28481168#64 := by decide +kernel

/-- 04 R117, the worked example: `TRAP 5` at 0x4000 in user mode gives TCAUSE 0xA000000B; a TRAP of the handler is a double
trap, which stops the context with TPC still 0x4000. -/
theorem test_trap :
    let s := little fun m => { m with pc := 0x4000, tvec := 0x8000 }
    let i := Instr.trap { mod := 0, b := 5, a := 0, d := 0, form := .base }
    ((after s i).map fun t => (t.me.tpc, t.me.tval, t.me.pc)) = some (0x4000#64, 5#64, 0x8000#64) ∧
    ((after s i).bind fun t => scalarAfter t (.mfs { mod := 0, b := 9, a := 0, d := 1, form := .base }) 1) =
      some 0xA000000B#64 ∧
    ((after s i).bind fun t => (after t i).map fun u => (u.me.stopped, u.me.tpc)) = some (true, 0x4000#64) := by decide +kernel

/-- 04 R104, the worked example: with 16 entries and RASP = 0x9000000000001000, a seventeenth CALL spills the oldest. -/
theorem test_call_spills :
    let s := little fun m => { m with
      pc := 0x4000, ras := 0xABCD0 :: List.replicate 15 0x5000, rasp := 0x9000000000001000, rasl := 0x9000000000002000 }
    ((after s (.call { disp := 4, cond := 14, a := 0, b := 0, form := .base })).map fun t =>
      (t.me.rasp, t.me.rasn, t.me.ras.length, t.read (localAddr core0.core 0x1000) 8, t.me.pc)) =
      some (0x9000000000001008#64, 1#32, 16, 0xABCD0, 0x4010#64) := by decide +kernel

/-- 05 R128, the worked example: lanes 2, 3, 13 and 15 of v4 = 10, 11, …, packed. -/
theorem test_vcmprs :
    let v : VWord := BitVec.ofNat 512 ((List.range 16).foldl (fun n i => n + (10 + i) * 2 ^ (32 * i)) 0)
    let s := little fun m => { (m.setV 4 v) with p := m.p.set 2 0xA00C }
    ((after s (.vcmprs { ty := 6, pg := 2, b := 0, a := 4, d := 5, form := .base })).map fun t =>
      t.me.getV 5) = some (BitVec.ofNat 512 (12 + 13 * 2 ^ 32 + 23 * 2 ^ 64 + 25 * 2 ^ 96)) ∧
    scalarAfter s (.vred { ty := 6, pg := 2, b := 0, a := 4, d := 7, form := .base }) 7 = some 73 := by decide +kernel

/-- 05 R130, the worked example: PSET with a count of 4. -/
theorem test_pset :
    ((after (little fun m => m.setS 9 4) (.pset { ty := 2, pg := 0, b := 9, a := 0, d := 1, form := .base })).map fun t =>
      t.me.getP 1) = some 0xF := by decide +kernel

/-- 05 R132, the worked example: two lanes overflow and meet a signalling NaN; with EN.OF = 1 lane 0 takes FP. -/
theorem test_fadd :
    let i := Instr.fpvFadd { ty := 2, pg := 1, b := 3, a := 2, d := 1, form := .base }
    let s := little fun m => { ((m.setV 2 0x7FA000007F7FFFFF).setV 3 0x3F8000007F7FFFFF) with p := m.p.set 1 3 }
    ((after s i).map fun t => (t.me.getV 1, t.me.fctl)) = some (0x7FC000007F800000, 0x10013) ∧
    ((after (s.setMe { s.me with fctl := 0x10200 }) i).map fun t => (t.me.getV 1, t.me.tval, t.me.tcode)) =
      some (0, 0x13, 6) := by decide +kernel

/-- 05 R134: class records of .f32 operands. -/
theorem test_fclass :
    ([(0x80000000, 0x18), (0x40200000, 0x02), (0xFF800000, 0x0B), (0x40400000, 0x12), (0x7FA00000, 0x05)].all fun e =>
      fpClass .f32 e.1 == e.2) = true := by decide +kernel

/-- 05 R141, the worked example: the record 0x0083D000 dequantises the codes 0 and 11 to −2.0 and 0.75. -/
theorem test_qdeq :
    ((after (little fun m => (m.setV 2 0xB0).setS 3 0x0083D000)
      (.qdeq { ty := 5, pg := 0, b := 3, a := 2, d := 1, form := .base })).map fun t =>
        (t.me.getV 1).extractLsb' 0 32) = some 0x3A00C000 := by decide +kernel

/-- 05 R145, the worked examples: FEXP2.f32 of −4.0 and of 0.5 on a big core. -/
theorem test_fexp2 :
    let i := Instr.fexp2 true { ty := 2, pg := 0, b := 0, a := 2, d := 1, form := .base }
    scalarAfter (big fun m => m.setS 2 0xC0800000) i 1 = some 0x3D800000 ∧
    scalarAfter (big fun m => m.setS 2 0x3F000000) i 1 = some 0x3FB504F3 := by decide +kernel

/-- 09 R222, the worked example: AMOF.add.f32 of the largest .f32 to itself, with EN.OF = 1 and with EN = 0. -/
theorem test_amof :
    let i := Instr.amofAdd { scope := 1, ord := 0, sz := 2, a := 4, d := 3, n := 0, c := 5, e2 := 0 }
    let s := (little fun m => (m.setS 4 0x9000000000000100).setS 5 0x7F7FFFFF).write (localAddr core0.core 0x100) 4 0x7F7FFFFF
    ((after s i).map fun t => (t.read (localAddr core0.core 0x100) 4, t.me.getS 3, t.me.fctl)) =
      some (0x7F800000, 0x7F7FFFFF, 0x10012) ∧
    ((after (s.setMe { s.me with fctl := 0x10200 }) i).map fun t =>
      (t.read (localAddr core0.core 0x100) 4, t.me.getS 3, t.me.tval, t.me.fctl)) =
      some (0x7F7FFFFF, 0, 0x12, 0x10200) := by decide +kernel

/-- 04 R89: division by zero, and the quotient that overflows. -/
theorem test_div_corners :
    let d : RForm := { mod := 0, b := 3, a := 2, d := 1, form := .base }
    scalarAfter (little fun m => m.setS 2 7) (.div d) 1 = some 0xFFFFFFFFFFFFFFFF ∧
    scalarAfter (little fun m => m.setS 2 7) (.rem d) 1 = some 7 ∧
    scalarAfter (little fun m => (m.setS 2 0x8000000000000000).setS 3 0xFFFFFFFFFFFFFFFF) (.div d) 1 =
      some 0x8000000000000000 := by decide +kernel

/-- 00 R2: a store and a load in the core's own local memory, little-endian, and sign extension. -/
theorem test_store_load :
    let s := little fun m => (m.setS 4 0x9000000000000100).setS 5 0x1122334455667788
    ((after s (.st { off := 0, scope := 0, ord := 0, sz := 3, a := 4, d := 5, form := .base })).bind fun t =>
      scalarAfter t (.ld { off := 0, scope := 0, ord := 0, sz := 0, a := 4, d := 6, form := .base }) 6) =
      some 0xFFFFFFFFFFFFFF88 := by decide +kernel

/-- FIPS 180-4's example of one block. -/
theorem test_sha256 :
    sha256 (textBytes "abc") = bytesBE 32 0xba7816bf8f01cfea414140de5dae2223b00361a396177a9cb410ff61f20015ad := by decide +kernel

/-- FIPS 197's examples of SubBytes and MixColumns. -/
theorem test_aes_steps : sbox 0x53 = 0xed ∧ mixColumns [2, 3, 1, 1] [0xd4, 0xbf, 0x5d, 0x30] = [0x04, 0x66, 0x81, 0xe5] := by
  decide +kernel

/-- 02 R31: a jump to an odd address traps at the jump. -/
theorem test_jump_misaligned :
    ((after (little fun m => { (m.setS 4 0x4002) with pc := 0x4000 })
      (.ji { mod := 0, b := 0, a := 4, d := 0, form := .base })).map fun t => (t.me.tcode, t.me.tval, t.me.tpc)) =
      some (3, 0x4002, 0x4000) := by decide +kernel

/-! ## Hypotheses of the statements are met -/

/-- A base form of format R. -/
def rBase (md : BitVec 4) (b : Reg) : RForm := { mod := md, b := b, a := 2, d := 1, form := .base }

/-- The extended form with SAT. -/
def rSat : RForm := { mod := 2, b := 3, a := 2, d := 1, form := .ext { e1 with sat := 1 } 0 }

/-- The system register numbered n. -/
def sysReg (n : Nat) : RForm :=
  { mod := BitVec.ofNat 4 (n / 32), b := BitVec.ofNat 5 n, a := 0, d := 1, form := .base }

theorem met_AluResults : (rBase 0 3).form.sat = false ∧ rSat.form.sat = true := by decide

theorem met_MultiplyDivideResults :
    let s := little fun m => m.setS 3 2
    (rBase 0 3).form.sat = false ∧ rSat.form.sat = true ∧ valueOf rSat.mod (rSat.opB s.me) ≠ 0 ∧
      valueOf rSat.mod (rSat.opB (little id).me) = 0 := by decide

theorem met_ImmediateResults :
    ({ imm := 63, a := 2, d := 1, form := .base } : IForm).value.toNat ≤ 63 := by decide

theorem met_BitResults : (rBase 0 0).mod = 0 ∧ (rBase 1 0).mod = 1 ∧ (rBase 2 0).mod = 2 := by decide

theorem met_SystemInstructions :
    (Instr.beat, 1) = (Instr.beat, 1) ∧ (Instr.beatX, 3) = (Instr.beatX, 3) ∧ (little id).me.tinh = false := by decide

theorem met_MfsReads_user :
    let s := little id
    ([0, 1, 2, 16, 17, 24, 25, 26, 32, 40, 47, 48, 51, 56, 59].all fun n =>
      (sysReg n).sysReg == n && readable n && !(decide (8 ≤ n) && decide (n ≤ 12))) = true ∧ s.me.flagQueue = [] ∧
    s.cur.core.big = false := by decide

theorem met_MfsReads_supervisor :
    (little fun m => { m with sup := true }).me.sup = true ∧
    ([8, 9, 10, 11, 12].all fun n => (sysReg n).sysReg == n && readable n) = true := by decide

theorem met_MtsWrites :
    let s := little fun m => { m with sup := true }
    s.me.sup = true ∧ s.me.flagQueue = [] ∧ (little id).me.sup = false ∧ (little id).me.tinh = false ∧
    ([0, 8, 9, 10, 11, 12, 16, 17, 24, 25, 26, 32, 40, 47, 48, 51, 56, 59].all fun n => (sysReg n).sysReg == n) = true := by
  decide

theorem met_TrapsAndReturns :
    (little id).me.tinh = false ∧ (little fun m => { m with tinh := true }).me.tinh = true ∧
    (little fun m => { m with sup := true, tpc := 0x4000 }).me.sup = true ∧
    (little fun m => { m with sup := true, tpc := 0x4000 }).me.tpc.toNat % 4 = 0 ∧
    (little fun m => { m with sup := true, tpc := 0x4003 }).me.tpc.toNat % 4 ≠ 0 ∧
    (little id).me.sup = false ∧ (little id).me.pc.toNat % 4 = 0 ∧
    Cause.pageFault ≠ .access ∧ (Cause.fp ≠ .pageFault ∧ Cause.fp ≠ .access) ∧
    bits (0x8000000000000000#64).toNat 63 60 ≠ 0 := by decide

theorem met_BranchesAndJumps :
    let b (c : BitVec 4) : BForm := { disp := 4, cond := c, a := 2, b := 3, form := .base }
    ([0, 1, 2, 3, 4, 5].all fun c => decide ((b c).cond.toNat < 6)) = true ∧
    ([8, 9, 10, 11].all fun c => decide (8 ≤ (b c).cond.toNat) && decide ((b c).cond.toNat < 12)) = true ∧
    ((little fun m => m.setS 2 0x4000).me.getS 2).toNat % 4 = 0 ∧
    ((little fun m => m.setS 2 0x4002).me.getS 2).toNat % 4 ≠ 0 := by decide

theorem met_CallsAndReturns :
    let full := little fun m => { m with ras := List.replicate 16 0x4000, rasp := 0x1000, rasl := 0x1007 }
    (little id).me.ras.length < 16 ∧ (little id).me.pc.toNat % 4 = 0 ∧ ((little id).me.getS 2).toNat % 4 = 0 ∧
    ((little fun m => m.setS 2 1).me.getS 2).toNat % 4 ≠ 0 ∧
    (little fun m => { m with ras := [0x4000] }).me.ras = [] ++ [0x4000#64] ∧ (0x4000#64).toNat % 4 = 0 ∧
    full.me.ras.length = 16 ∧ full.me.rasl.toNat < full.me.rasp.toNat + 8 ∧
    (little fun m => { m with rasn := 0xFFFFFFFF }).me.rasn = 0xFFFFFFFF#32 ∧
    (little id).me.ras = [] ∧ (little id).me.rasn = 0 ∧ full.me.tinh = false := by decide

/-- The start of the acting core's local memory in relative form, plus n. -/
def ownBase (n : Nat) : Word := BitVec.ofNat 64 (9 * 2 ^ 60 + n)

/-- Little core 0:0:0 with S2 the address of byte n of its local memory. -/
def local_ (n : Nat) : State := little fun m => m.setS 2 (ownBase n)

/-- Big core 0:0:0 with S2 the address of byte n of the local memory of little core 0:0:0. -/
def bigLocal (n : Nat) : State := big fun m => m.setS 2 (ownBase n)

/-- A window that is not bound meets no access. -/
theorem meets_unbound (a n : Nat) : Window.reset.meets a n = false := rfl

theorem wins_unbound (w : Fin 8) : Core.reset.wins[w] = Window.reset := by
  show (Vector.replicate 8 Window.reset)[w] = _
  simp

theorem awaits_little (f : Context → Context) (off m : Nat) : (little f).awaitsRead core0.core off m = false := by
  have h (c : CtxId) : lookup ([] : List CopyCmd) c ((little f).hive (coreHive core0.core)).copies = [] := rfl
  simp only [State.awaitsRead, h, List.any_nil, Bool.and_false]
  rfl

/-- No window of the acting little core is bound, and nothing is to be read there. -/
theorem windows_of (f : Context → Context) (a n : Nat) : WindowsOpen (little f) a n := by
  intro _ _
  refine ⟨awaits_little f _ _, fun w h => ?_⟩
  have hc : ((little f).core (little f).cur.core).wins[w] = Window.reset := wins_unbound w
  rw [hc, meets_unbound] at h
  cases h

theorem windows_little (n a m : Nat) : WindowsOpen (local_ n) a m := windows_of _ a m

/-- Whether an address resolves to a. -/
def resolvesTo (s : State) (acc : Acc) (va a : Nat) : Bool :=
  match s.resolve s.cur.core s.me.sup acc va with
  | .ok b => b == a
  | .error _ => false

theorem resolves {s : State} {acc : Acc} {va a : Nat} (h : resolvesTo s acc va a = true) :
    s.resolve s.cur.core s.me.sup acc va = .ok a := by
  unfold resolvesTo at h
  cases hr : s.resolve s.cur.core s.me.sup acc va with
  | error d => rw [hr] at h; cases h
  | ok b => rw [hr] at h; simp at h; rw [h]

/-- Whether a check passes. -/
def passes {ε α : Type} (r : Except ε α) : Bool :=
  match r with
  | .ok _ => true
  | .error _ => false

theorem passes_ok {ε α : Type} {r : Except ε α} (h : passes r = true) : ∃ a, r = .ok a := by
  cases r with
  | ok a => exact ⟨a, rfl⟩
  | error e => cases h

theorem passes_unit {ε : Type} {r : Except ε Unit} (h : passes r = true) : r = .ok () := by
  cases r with
  | ok a => rfl
  | error e => cases h

/-- An access of the local memory passes every check. -/
theorem granted_local (acc : Acc) (n al : Nat) (h : (ownBase 512).toNat % al = 0) :
    Granted (local_ 512) acc (ownBase 512) n al (localAddr core0.core 512) := by
  exact ⟨h, by cases acc <;> rfl, by decide, windows_little _ _ _⟩

/-- The same from a big core. -/
theorem granted_bigLocal (acc : Acc) (n al : Nat) (h : (ownBase 512).toNat % al = 0) :
    Granted (bigLocal 512) acc (ownBase 512) n al (localAddr core0.core 512) := by
  refine ⟨h, by cases acc <;> rfl, by decide, fun _ h' => ?_⟩
  exact absurd h' (by decide)

theorem sound_little (f : Context → Context) (a n : Nat) : Sound (little f) a n := fun _ h => by cases h

theorem sound_big (f : Context → Context) (a n : Nat) : Sound (big f) a n := fun _ h => by cases h

/-- A base form of format M. -/
def mBase (sz : BitVec 3) : MForm := { off := 0, scope := 0, ord := 0, sz := sz, a := 2, d := 1, form := .base }

/-- The AMO format. -/
def aForm (sz : BitVec 3) : AForm := { scope := 1, ord := 0, sz := sz, a := 2, d := 4, n := 8, c := 6, e2 := 0 }

/-- An extended form under a predicate that holds nowhere. -/
def never : Form := .ext { e1 with pred := 1 } 0

/-- The core's hive belongs to partition 0, whose range holds the first 64 MiB, and its TLB maps page 1 to itself. -/
def mapped (f : Context → Context) : State :=
  let s := (little f).setHive (coreHive core0.core) { Hive.reset with owner := some 0 }
  let s := s.setDie 0 { Die.reset with krange := [(0, BitVec.ofNat 128 (2 ^ 127 + 32 * 2 ^ 85))] }
  s.setCore core0.core { s.core core0.core with
    tlb := [{ page := 0x4000, log := 14, pte := BitVec.ofNat 64 (2 ^ 63 + 2 ^ 10 + 2 ^ 9 + 2 ^ 8 + 0x4000) }] }

theorem met_LoadResults :
    (mBase 3).sz ≠ 4 ∧ (mBase 3).form.active (local_ 512).me = true ∧
    Granted (local_ 512) .load (addrM (mBase 3) (szBytes (mBase 3).sz) (local_ 512).me) (szBytes (mBase 3).sz)
      (szBytes (mBase 3).sz) (localAddr core0.core 512) ∧
    Sound (local_ 512) (localAddr core0.core 512) (szBytes (mBase 3).sz) ∧
    ({ mBase 3 with form := never }).form.active (local_ 512).me = false :=
  ⟨by decide, by decide, granted_local .load _ _ (by decide), sound_little _ _ _, by decide⟩

theorem met_LoadResults_pair :
    Granted (local_ 512) .load (addrM (mBase 4) 16 (local_ 512).me) 16 16 (localAddr core0.core 512) ∧
    Sound (local_ 512) (localAddr core0.core 512) 16 := ⟨granted_local .load _ _ (by decide), sound_little _ _ _⟩

theorem met_StoreResults :
    Memory.wf (local_ 512) = true ∧
    Granted (local_ 512) .store (addrM (mBase 0) (szBytes (mBase 0).sz) (local_ 512).me) (szBytes (mBase 0).sz)
      (szBytes (mBase 0).sz) (localAddr core0.core 512) ∧
    Granted (local_ 512) .store (addrM (mBase 4) 16 (local_ 512).me) 16 16 (localAddr core0.core 512) :=
  ⟨by decide, granted_local .store _ _ (by decide), granted_local .store _ _ (by decide)⟩

theorem met_AccessChecks_untouched :
    Untouched (local_ 1) (addrM (mBase 1) 2 (local_ 1).me) 2 ∧ Untouched (local_ 15) (addrM (mBase 4) 16 (local_ 15).me) 16 ∧
    Untouched (local_ 3) ((local_ 3).me.getS (aForm 2).a + (aForm 2).e2.signExtend 64) (szBytes (aForm 2).sz) :=
  ⟨passes_unit (by decide +kernel), passes_unit (by decide +kernel), passes_unit (by decide +kernel)⟩

theorem met_AccessChecks :
    (local_ 1).me.tinh = false ∧ (mBase 1).form.active (local_ 1).me = true ∧
    (addrM (mBase 1) (szBytes (mBase 1).sz) (local_ 1).me).toNat % szBytes (mBase 1).sz ≠ 0 ∧
    (addrM (mBase 4) 16 (local_ 15).me).toNat % 16 ≠ 0 ∧
    ((local_ 3).me.getS (aForm 2).a + (aForm 2).e2.signExtend 64).toNat % szBytes (aForm 2).sz ≠ 0 ∧
    core0.core.big = false ∧ coreValid core0.core = true ∧ (little id).hiveAbsent (coreHive core0.core) = false ∧
    2 ^ 19 - 1 < 2 ^ 19 := by decide

theorem met_AtomicResults :
    Memory.wf (local_ 512) = true ∧ (aForm 3).sz ≠ 4 ∧
    Granted (local_ 512) .atomic ((local_ 512).me.getS (aForm 3).a + (aForm 3).e2.signExtend 64) (szBytes (aForm 3).sz)
      (szBytes (aForm 3).sz) (localAddr core0.core 512) ∧
    Sound (local_ 512) (localAddr core0.core 512) (szBytes (aForm 3).sz) :=
  ⟨by decide, by decide, granted_local .atomic _ _ (by decide), sound_little _ _ _⟩

theorem met_AtomicResults_wide :
    Memory.wf (bigLocal 512) = true ∧ (bigLocal 512).cur.core.big = true ∧ (aForm 4).sz = 4 ∧ (aForm 3).sz = 3 ∧
    Granted (bigLocal 512) .atomic ((bigLocal 512).me.getS (aForm 4).a + (aForm 4).e2.signExtend 64) 16 16
      (localAddr core0.core 512) ∧
    Granted (bigLocal 512) .atomic ((bigLocal 512).me.getS (aForm 3).a + (aForm 3).e2.signExtend 64) 8 8
      (localAddr core0.core 512) ∧
    Sound (bigLocal 512) (localAddr core0.core 512) 16 :=
  ⟨by decide, by decide, by decide, by decide, granted_bigLocal .atomic _ _ (by decide),
    granted_bigLocal .atomic _ _ (by decide), sound_big _ _ _⟩

/-- A minimum of two signalling NaNs raises NV; the reset state enables no flag, this one NV. -/
theorem met_AtomicResults_flags :
    (bigLocal 512).me.fctl.extractLsb' 8 5 &&& (fpArith .add .f64 .rne .final 0 0).2.extractLsb' 0 5 = 0 ∧
    (big fun m => { m with fctl := 0x10100 }).me.fctl.extractLsb' 8 5 &&&
      (fpMinMax false false .f64 0x7FF4000000000000 0x7FF4000000000000).2.extractLsb' 0 5 ≠ 0 := by decide +kernel

/-- The entry that LDS of 8 bytes at byte 512 of the local memory leaves. -/
def specHit : SpecEntry :=
  { reg := 1, va := (ownBase 512).toNat, addr := localAddr core0.core 512, size := 8, valid := true }

theorem met_SpeculativeLoads :
    (mBase 3).form.active (local_ 512).me = true ∧ (mBase 3).sz ≠ 4 ∧
    Granted (local_ 512) .load (addrM (mBase 3) (szBytes (mBase 3).sz) (local_ 512).me) (szBytes (mBase 3).sz)
      (szBytes (mBase 3).sz) (localAddr core0.core 512) ∧
    Sound (local_ 512) (localAddr core0.core 512) (szBytes (mBase 3).sz) ∧
    Refused (local_ 1) (addrM (mBase 1) (szBytes (mBase 1).sz) (local_ 1).me) (szBytes (mBase 1).sz) :=
  ⟨by decide, by decide, granted_local .load _ _ (by decide), sound_little _ _ _, .inl (by decide)⟩

/-- S1's size tag is 8 bytes, the table is empty, and S2 is the address of byte n of the local memory. -/
def checking (n : Nat) : State := little fun m => { m.setS 2 (ownBase n) with tags := m.tags.set 1 3 }

theorem windows_checking (n a m : Nat) : WindowsOpen (checking n) a m := windows_of _ a m

theorem met_SpeculativeLoads_repeat :
    (checking 512).me.tags[(mBase 4).d.toNat] = 3 ∧ (∀ e ∈ (checking 512).me.spec, ¬(e.reg = (mBase 4).d ∧ e.valid = true)) ∧
    Granted (checking 512) .load (addrM (mBase 4) 16 (checking 512).me) 8 8 (localAddr core0.core 512) ∧
    Sound (checking 512) (localAddr core0.core 512) 8 ∧ (checking 1).me.spec = [] ∧
    (addrM (mBase 4) 16 (checking 1).me).toNat % 8 ≠ 0 ∧ Untouched (checking 1) (addrM (mBase 4) 16 (checking 1).me) 8 :=
  ⟨rfl, by decide, ⟨by decide, resolves (by decide +kernel), by decide, windows_checking _ _ _⟩, sound_little _ _ _, rfl, by decide,
    passes_unit (by decide +kernel)⟩

theorem met_SpeculativeLoads_check :
    let s := little fun m => { m.setS 2 (ownBase 512) with spec := [specHit] }
    specHit ∈ s.me.spec ∧ specHit.reg = (mBase 4).d ∧ specHit.valid = true ∧
    specHit.size = szBytes s.me.tags[(mBase 4).d.toNat] ∧
    s.resolve s.cur.core s.me.sup .load (addrM (mBase 4) 16 s.me).toNat = .ok specHit.addr :=
  ⟨.head _, rfl, rfl, rfl, rfl⟩

theorem met_FencesAndCaches :
    (little id).fenceReady (little id).cur = true ∧
    Granted (local_ 512) .load (addrM (mBase 0) 1 (local_ 512).me) 1 1 (localAddr core0.core 512) ∧
    Granted (mapped fun m => m.setS 2 0x4000) .cinv (addrM (mBase 0) 1 (mapped fun m => m.setS 2 0x4000).me) 1 1 0x4000 ∧
    0x4000 < 2 ^ 52 :=
  ⟨by decide, granted_local .load _ _ (by decide),
    ⟨by decide, resolves (by decide +kernel), by decide, fun h => absurd h (by decide)⟩, by decide⟩

/-- A base form of format V. -/
def vBase (ty : BitVec 3) : VForm := { ty := ty, pg := 0, b := 3, a := 2, d := 1, form := .base }

theorem met_VectorIntegerResults :
    (vBase 6).form.sat = false ∧ ({ vBase 6 with form := .ext { e1 with sat := 1 } 0 }).form.sat = true := by decide

theorem met_PredicateResults : (vBase 3).ty.toNat < 4 := by decide

theorem met_PermuteResults : ({ vBase 7 with b := 5 }).b.toNat < 6 ∧ (vBase 3).ty.toNat < 4 := by decide

/-- Lanes of an access that stand 8 bytes apart in the local memory, or one on the other, are granted. -/
theorem lanes_granted (acc : Acc) (mask : Word) (va at_ : Nat → Nat)
    (h : ∀ i : Fin 8, (va i.val % 8 == 0 && resolvesTo (local_ 512) acc (va i.val % 2 ^ 64) (at_ i.val) &&
      !inPort (at_ i.val)) = true) :
    LanesGranted (local_ 512) acc 64 mask (fun i => BitVec.ofNat 64 (va i)) at_ := by
  intro i hi _
  have hi : i < 8 := by omega
  have h' := h ⟨i, hi⟩
  simp only [Bool.and_eq_true, beq_iff_eq, Bool.not_eq_true'] at h'
  refine ⟨⟨?_, ?_, h'.2, windows_little _ _ _⟩, sound_little _ _ _⟩
  · rw [BitVec.toNat_ofNat]; omega
  · rw [BitVec.toNat_ofNat]; exact resolves h'.1.2

theorem lanes_congr {s : State} {acc : Acc} {w : Nat} {mask : Word} {va vb : Nat → Word} {at_ : Nat → Nat}
    (h : LanesGranted s acc w mask va at_) (he : ∀ i, i < 512 / w → va i = vb i) : LanesGranted s acc w mask vb at_ := by
  intro i hi hm
  rw [← he i hi]
  exact h i hi hm

/-- The consecutive lanes. -/
theorem unit_granted (acc : Acc) (mask : Word) :
    LanesGranted (local_ 512) acc 64 mask (unitLanes (mBase 3) 64 (local_ 512).me) (fun i => localAddr core0.core (512 + 8 * i)) :=
  lanes_congr (lanes_granted acc mask (fun i => 9 * 2 ^ 60 + 512 + 8 * i) _ (by cases acc <;> decide +kernel))
    (by decide +kernel)

/-- A stride of 0. -/
theorem stride_granted (acc : Acc) :
    LanesGranted (local_ 512) acc (laneWidth (vBase 3).ty) ((vBase 3).mask (local_ 512).me)
      (strideLanes (vBase 3) (local_ 512).me) (fun _ => localAddr core0.core 512) :=
  lanes_congr (w := 64) (lanes_granted acc _ (fun _ => 9 * 2 ^ 60 + 512) _ (by cases acc <;> decide +kernel))
    (by decide +kernel)

/-- Indices of 0. -/
theorem index_granted (acc : Acc) :
    LanesGranted (local_ 512) acc (laneWidth (vBase 3).ty) ((vBase 3).mask (local_ 512).me)
      (indexLanes (vBase 3) (local_ 512).me) (fun _ => localAddr core0.core 512) :=
  lanes_congr (w := 64) (lanes_granted acc _ (fun _ => 9 * 2 ^ 60 + 512) _ (by cases acc <;> decide +kernel))
    (by decide +kernel)

theorem met_VectorLoads :
    (mBase 3).sz.toNat < 4 ∧
    LanesGranted (local_ 512) .load (8 * 2 ^ (mBase 3).sz.toNat) (BitVec.allOnes 64)
      (unitLanes (mBase 3) (8 * 2 ^ (mBase 3).sz.toNat) (local_ 512).me) (fun i => localAddr core0.core (512 + 8 * i)) ∧
    LanesGranted (local_ 512) .load (laneWidth (vBase 3).ty) ((vBase 3).mask (local_ 512).me)
      (strideLanes (vBase 3) (local_ 512).me) (fun _ => localAddr core0.core 512) ∧
    LanesGranted (local_ 512) .load (laneWidth (vBase 3).ty) ((vBase 3).mask (local_ 512).me)
      (indexLanes (vBase 3) (local_ 512).me) (fun _ => localAddr core0.core 512) :=
  ⟨by decide, unit_granted .load _, stride_granted .load, index_granted .load⟩

theorem met_VectorLoads_block :
    (∀ j : Fin 4, Granted (local_ 512) .load
      ((local_ 512).me.getS (vBase 0).a + (vBase 0).form.e2.signExtend 64 + BitVec.ofNat 64 (64 * j.val)) 64 64
      (localAddr core0.core (512 + 64 * j.val)) ∧ Sound (local_ 512) (localAddr core0.core (512 + 64 * j.val)) 64) ∧
    (Instr.vldb (vBase 0) = .vldb (vBase 0) ∨ Instr.vldb (vBase 0) = .vldbWeak (vBase 0)) := by
  refine ⟨fun j => ⟨⟨by revert j; decide, resolves (by revert j; decide +kernel), by revert j; decide,
    windows_little _ _ _⟩, sound_little _ _ _⟩, .inl rfl⟩

theorem met_VectorStores :
    Memory.wf (local_ 512) = true ∧
    LanesGranted (local_ 512) .store (8 * 2 ^ (mBase 3).sz.toNat) (BitVec.allOnes 64)
      (unitLanes (mBase 3) (8 * 2 ^ (mBase 3).sz.toNat) (local_ 512).me) (fun i => localAddr core0.core (512 + 8 * i)) ∧
    LanesGranted (local_ 512) .store (laneWidth (vBase 3).ty) ((vBase 3).mask (local_ 512).me)
      (strideLanes (vBase 3) (local_ 512).me) (fun _ => localAddr core0.core 512) ∧
    LanesGranted (local_ 512) .store (laneWidth (vBase 3).ty) ((vBase 3).mask (local_ 512).me)
      (indexLanes (vBase 3) (local_ 512).me) (fun _ => localAddr core0.core 512) :=
  ⟨by decide, unit_granted .store _, stride_granted .store, index_granted .store⟩

/-- An own format. -/
def xBase (md : BitVec 4) : XForm := { mod := md, b := 3, a := 2, d := 1, e1 := 0, e2 := 0 }

/-- Group records at the start of the local memory, 32 values a group. -/
def desc0 : QDesc := { base := BitVec.ofNat 64 (localAddr core0.core 0), shown := ownBase 0, pitch := 0, g := 32, q4 := false }

/-- Its hive's slot 0 belongs to the acting control context of core 0:0:0; S2 is the start of its local memory, every pitch is
0, and the group descriptor names 32 values a group. -/
def engine : State :=
  let s := local_ 0
  s.setHive (coreHive core0.core) { Hive.reset with
    slots := Hive.reset.slots.set 0 { Slot.reset with owner := some core0 },
    mats := [(core0, { queue := [], desc := some desc0 })] }

/-- TMMA and TMMAQ with K. -/
def product (k : Nat) : XForm := { xBase 0 with b := 2, e1 := 0x206, e2 := BitVec.ofNat 32 k }

theorem met_MatrixQueries :
    engine.me.matTl.fault = none ∧ (engine.mat engine.cur).queue = [] ∧
    (((engine.hive (coreHive engine.cur.core)).slots[accOf (xBase 0)]).owner = some engine.cur) ∧
    (((engine.hive (coreHive engine.cur.core)).slots[accOf { xBase 0 with e1 := 32 * 15 }]).owner = none) ∧
    (let s := { engine with cur := { core0 with num := 1 } }
     ((s.hive (coreHive s.cur.core)).slots[accOf (xBase 0)]).owner = some core0 ∧ core0 ≠ s.cur) := by decide +kernel

/-- The conditions of a matrix command's acceptance. -/
def reachable (s : State) (os : List MatOperand) : Bool :=
  passes (s.checkMat os) && passes (s.touchAll (os.flatMap (·.accesses)))

theorem reachable_iff {s : State} {os : List MatOperand} (h : reachable s os = true) : Reachable s os := by
  simp only [reachable, Bool.and_eq_true] at h
  exact ⟨passes_ok h.1, passes_unit h.2⟩

theorem met_MatrixCommands :
    engine.me.matTl.fault = none ∧ (engine.mat engine.cur).waiting < 4 ∧ engine.ownsSlot (accOf (xBase 0)) = true ∧
    mayLoad 0 .ax36 = true ∧ mayDrain 0 .ax36 = true ∧ ((engine.me.getS 2).toNat % 4 = 0) ∧
    ((engine.hive (coreHive engine.cur.core)).slots[accOf (xBase 0)]).kind = .ax36 ∧
    (XForm.matCmd (product 16) 4 engine).kind = .ax36 ∧
    ({ XForm.matCmd (product 32) 5 engine with desc := engine.acceptedDesc }).groupsFit = true ∧
    engine.ownsSlot (accOf { xBase 0 with e1 := 32 * 15 }) = false ∧ engine.me.tinh = false := by decide +kernel

theorem met_MatrixCommands_load : Reachable engine [(XForm.matCmd (xBase 0) 3 engine).rows .load (engine.me.getS 2)] :=
  reachable_iff (by decide +kernel)

theorem met_MatrixCommands_product : Reachable engine ((XForm.matCmd (product 16) 4 engine).factors (engine.me.getS 2) (engine.me.getS 2)) :=
  reachable_iff (by decide +kernel)

theorem met_MatrixCommands_quantised :
    let c := { XForm.matCmd (product 32) 5 engine with desc := engine.acceptedDesc }
    Reachable engine (c.factors (engine.me.getS 2) (engine.me.getS 2) ++ c.records) := reachable_iff (by decide +kernel)

theorem met_MatrixCommands_store : Reachable engine [(XForm.matCmd (xBase 0) 8 engine).rows .store (engine.me.getS 2)] :=
  reachable_iff (by decide +kernel)

/-- A record of one 8-byte element, from byte 512 of the local memory of core 0:0:0 to byte 1024. -/
def record1 : BitVec 1024 :=
  BitVec.ofNat 1024 (localAddr core0.core 512 + localAddr core0.core 1024 * 2 ^ 64 + 2 ^ 128 + 2 ^ 144 + 2 ^ 160 + 2 ^ 176 + 3 * 2 ^ 384)

/-- The record in V2 and V3, and S3 the binding of 64 bytes at 1024. -/
def copying : State :=
  little fun m => ((m.setV 2 (record1.extractLsb' 0 512)).setV 3 (record1.extractLsb' 512 512)).setS 3
    (BitVec.ofNat 64 (64 * 2 ^ 20 + 1024))

theorem met_CopiesAndTimelines :
    (copying.copyQueue copying.cur).length < 16 ∧
    (∃ pages, copying.checkRecord copying.cur.core copying.me.sup (recordOf copying 2) false 0 = .ok pages) ∧
    copying.touchRecord (recEs (recordOf copying 2)) (recAccesses copying.cur.core (recordOf copying 2)) = .ok () ∧
    copying.me.batches.length < 16 ∧ copying.me.copyTl.fault = none ∧ copying.me.batches.length ≤ (xBase 0).mod.toNat ∧
    (little fun m => { m with copyTl := { m.copyTl with fault := some { cause := .engineFault, tval := 11 } } }).me.copyTl.fault =
      some { cause := .engineFault, tval := 11 } :=
  ⟨by decide +kernel, passes_ok (by decide +kernel), passes_unit (by decide +kernel), by decide, by decide, by decide, rfl⟩

/-- Window 0 of core 0:0:0 in a state. -/
def windowed (state : Nat) (dirty : Bool) : State :=
  copying.setCore core0.core { copying.core core0.core with
    wins := Core.reset.wins.set 0
      { Window.reset with word := windowWord state dirty false 0 64 1024, record := record1 } }

theorem met_Windows_binding :
    let r := copying.me.getV 3 ++ copying.me.getV 2
    (xBase 0).mod.extractLsb' 0 3 = BitVec.ofNat 3 (0 : Fin 8).val ∧ (xBase 15).mod.extractLsb' 0 3 = BitVec.ofNat 3 (7 : Fin 8).val ∧
    ((copying.core core0.core).wins[(0 : Fin 8)]).state ≠ 2 ∧ bits (copying.me.getS 0).toNat 39 20 = 0 ∧
    bits (copying.me.getS 3).toNat 39 20 ≠ 0 ∧ recValid r = true ∧ recValid 0 = false ∧
    copying.badBinding 0 r 1024 64 = false ∧ copying.badBinding 0 r 1023 64 = true ∧ copying.me.tinh = false := by decide +kernel

theorem met_Windows_states :
    let w (s : State) : Window := (s.core core0.core).wins[(0 : Fin 8)]
    (w copying).state = 0 ∧ (w (windowed 1 false)).state = 1 ∧ (w (windowed 3 true)).state = 3 ∧
    (w (windowed 3 true)).dirty = true ∧ (w (windowed 3 false)).dirty = false ∧ (xBase 8).mod.getLsbD 3 = true ∧
    (xBase 0).mod.getLsbD 3 = false ∧
    ((windowed 3 true).copyQueue core0).length < 16 := by decide +kernel

theorem met_Windows_writeOut :
    ∃ pages, (windowed 3 true).checkRecord core0.core (windowed 3 true).me.sup
      (writeOutRecord (recAbs core0.core ((windowed 3 true).core core0.core).wins[(0 : Fin 8)].record)) true 0 = .ok pages :=
  passes_ok (by decide +kernel)

/-! ## Contexts, waits, barriers, tasks, rings and messages -/

theorem met_AddressResults :
    (rBase 0 3).mod = 0 ∧ (rBase 1 3).mod = 1 ∧ (rBase 3 3).mod = BitVec.ofNat 4 (3 : Fin 4).val ∧
    coreValid (little id).cur.core = true ∧ coreValid { big := false, die := 35, row := 95, col := 191 } = true ∧ 0x7FFFF < 2 ^ 19 ∧
    ((little fun m => m.setS 2 (localWord 35 95 191 0x7FFFF)).me.getS 2) = localWord 35 95 191 0x7FFFF ∧
    bits ((local_ 0).me.getS 2).toNat 63 60 = 9 ∧ bits ((little id).me.getS 2).toNat 63 60 ≠ 9 ∧
    bits ((little id).me.getS 2).toNat 63 60 ≠ 8 := by decide

/-- A core with only its control context live. -/
theorem met_HelpersStartAndRetire_start :
    let s := little id
    let k := s.core s.cur.core
    s.cur.num = 0 ∧ (s.me.getS 2).toNat % 4 = 0 ∧ s.rowWaits s.cur.core = false ∧ (1 : Fin 11) ≠ 0 ∧ (k.ctxs[(1 : Fin 11)]).live = false ∧
    (∀ i : Fin 11, i ≠ 0 → i < 1 → (k.ctxs[i]).live = true) ∧ (xBase 1).mod = 1 ∧ s.me.tinh = false ∧
    ((little fun m => m.setS 2 3).me.getS 2).toNat % 4 ≠ 0 := by decide +kernel

/-- Core 0:0:0 with every helper live, and helper 10 acting. -/
def helpers : State :=
  let s := little id
  let t := s.setCore core0.core { s.core core0.core with ctxs := Vector.replicate 11 { Context.reset with live := true } }
  { t with cur := { core0 with num := 10 } }

theorem met_HelpersStartAndRetire_helpers :
    (∀ i : Fin 11, i ≠ 0 → ((helpers.core core0.core).ctxs[i]).live = true) ∧ helpers.cur.num ≠ 0 ∧ helpers.me.tinh = false :=
  ⟨by decide +kernel, by decide, by decide⟩

/-- A context after reset has nothing outstanding. -/
theorem settled {m : Context} (h : decide (m.copyTl.fault = none ∧ m.copyTl.value = m.copyTl.last ∧ m.matTl.fault = none ∧
    m.matTl.value = m.matTl.last ∧ m.collTl.fault = none ∧ m.collTl.value = m.collTl.last ∧ m.pendS = 0 ∧ m.pendV = 0 ∧
    m.pendP = 0 ∧ m.flagQueue = []) = true) : Settled m := by
  have ⟨h1, h2, h3, h4, h5, h6, h7, h8, h9, h10⟩ := of_decide_eq_true h
  exact ⟨⟨h1, h2⟩, ⟨h3, h4⟩, ⟨h5, h6⟩, ⟨h7, h8, h9, h10⟩⟩

theorem met_HelpersStartAndRetire_settled : Settled helpers.me ∧ (little id).cur.num = 0 ∧ (little id).me.tinh = false :=
  ⟨settled (by decide +kernel), by decide, by decide⟩

/-- One row of 8 little cores of hive 0:0:0. -/
def alloc0 : List Group := [{ big := false, hive := { die := 0, row := 0, col := 0 }, row := 0 }]

/-- Its big core. -/
def allocBig : List Group := [{ big := true, hive := { die := 0, row := 0, col := 0 }, row := 0 }]

/-- A launch of one pool stage and one ring of 2 slots, both produced and taken by it, whose work identifier has one field of 2 values
bound to a loop. -/
def launch0 (alloc : List Group) (work : Nat) : Launch where
  part := 0
  source := .doorbell
  packet := BitVec.ofNat 11264 (2 ^ (9216 + 127) + 2 ^ 1024 * (2 ^ 127 + 2 ^ 123 + 2 ^ 168 + 2 ^ 166 + 2 ^ 160 + 2 ^ 128))
  stages := [{ alloc := alloc, units := [], work := work, running := [], done := false }]
  rings := []
  ranks := []
  groups := []
  samples := []
  moves := []
  sampled := 0

/-- State s with launch l resident, run by the acting core. -/
def runs (s : State) (l : Launch) : State :=
  { s.setCore s.cur.core { s.core s.cur.core with job := some { launch := 0, stage := 0 } } with launches := [(0, l)], nextLaunch := 1 }

/-- Core 0:0:0 in the pool stage. -/
def pooled : State := runs (little id) (launch0 alloc0 0)

theorem met_KernelEnds :
    let s := little id
    (Instr.endK, 0) = (Instr.endK, (0 : BitVec 2)) ∧ s.cur.num = 0 ∧
    (∀ n : Fin 11, n ≠ 0 → ((s.core s.cur.core).ctxs[n]).live = false) ∧ s.stageOf s.cur.core = none :=
  ⟨rfl, rfl, by decide +kernel, rfl⟩

theorem met_KernelEnds_settled : Settled (little id).me ∧ Settled (big id).me :=
  ⟨settled (by decide +kernel), settled (by decide +kernel)⟩

/-- A big core at the first and at the last value of its loop. -/
def looping (w : Word) : State := runs (big fun m => { m with work := w }) (launch0 allocBig 0)

theorem met_KernelEnds_loop :
    (looping 0).stageOf bigCore.core = some (0, launch0 allocBig 0, 0, ((launch0 allocBig 0).stages[0]'(by decide))) ∧
    (looping 0).cur.core.big = true ∧ stageBits (launch0 allocBig 0).packet 0 687 684 = 0 ∧
    nextLoop (launch0 allocBig 0).packet 0 (loopFields (launch0 allocBig 0).packet 0) (looping 0).me.work = some 1 ∧
    nextLoop (launch0 allocBig 0).packet 0 (loopFields (launch0 allocBig 0).packet 0) (looping 1).me.work = none :=
  ⟨rfl, rfl, by decide +kernel, by decide +kernel, by decide +kernel⟩

/-- WAIT with kinds 1 (copy timeline), 4 (no helper), 5 (mailbox), 0. -/
def waits (md : BitVec 4) : XForm := { xBase md with e1 := 0x0541 }

/-- Its first two conditions hold, its third does not. -/
def waitMask (i : Fin 4) : Bool := i == 0 || i == 1

theorem waits_one : CondSays (little id) (XForm.cond (waits 0) (little id).me 1) (waitMask 1) :=
  (by decide +kernel : true = decide (∀ i : Fin 11, i ≠ 0 → i ≠ (little id).cur.num →
    (((little id).core (little id).cur.core).ctxs[i]).live = false))

theorem met_WaitReturns :
    let s := little id
    (∀ i : Fin 4, bits (waits 0).e1.toNat (4 * i.val + 3) (4 * i.val) = 0 → waitMask i = false) ∧
    (∀ i : Fin 4, bits (waits 0).e1.toNat (4 * i.val + 3) (4 * i.val) ≠ 0 →
      CondSays s (XForm.cond (waits 0) s.me i.val) (waitMask i)) ∧
    (∃ i, waitMask i = true) ∧ (waits 0).mod = 0 := by
  refine ⟨by decide, fun i h => ?_, ⟨0, rfl⟩, rfl⟩
  match i with
  | 0 => exact ⟨rfl, (by decide +kernel : true = decide ((XForm.cond (waits 0) (little id).me 0).x.toNat ≤ (little id).me.copyTl.value))⟩
  | 1 => exact waits_one
  | 2 => rfl
  | 3 => exact absurd rfl h

/-- WAIT.all of the first two. -/
theorem met_WaitReturns_all :
    let x : XForm := { xBase 1 with e1 := 0x41 }
    (∀ i : Fin 4, bits x.e1.toNat (4 * i.val + 3) (4 * i.val) ≠ 0 → waitMask i = true) ∧ x.mod ≠ 0 := by decide

/-- A memory condition, of 8 bytes equal to 0. -/
theorem met_WaitReturns_memory :
    let c : WaitCond := { num := 0, kind := 2, qual := 1, x := ownBase 512, y := 0 }
    CondSays (local_ 512) c true :=
  ⟨_, granted_local .load 8 8 (by decide), sound_little _ _ _, by decide +kernel⟩

/-! ### Barriers and wires -/

/-- The rectangle of cores 0:0:0 and 0:0:1. -/
def pairRect : BitVec 30 := BitVec.ofNat 30 (2 ^ 15)

/-- Core 0:0:0 with BG0 bound to it, and S2 naming it. -/
def barred (b : Barrier) : State :=
  let s := little fun m => m.setS 2 (pairRect.setWidth 64)
  s.setCore core0.core { s.core core0.core with bgs := Core.reset.bgs.set 0 b }

/-- BG0 released, with what the west has sent. -/
def bound (west : Option Token) : Barrier := { Barrier.bind Barrier.reset pairRect with fromWest := west }

theorem met_BarrierInstructions_set :
    let s := barred (bound none)
    Control s ∧ ((s.core core0.core).bgs[barOf (xBase 0)]).state ≠ 2 ∧
    s.rectValid core0.core ((s.me.getS 2).extractLsb' 0 30) = true ∧ s.rectValid core0.core (BitVec.ofNat 30 (96 * 2 ^ 23)) = false ∧
    (let t : Token := { rect := 5, gen0 := false, kind := .compute }
     ((barred (bound (some t))).core core0.core).bgs[barOf (xBase 0)].fromWest = some t ∧ t.rect ≠ pairRect) :=
  ⟨⟨rfl, rfl⟩, by decide +kernel, by decide +kernel, by decide +kernel, rfl, by decide⟩

theorem met_BarrierInstructions_unheld :
    ∀ t, ((barred (bound none)).core core0.core).bgs[barOf (xBase 0)].fromWest = some t ∨
      ((barred (bound none)).core core0.core).bgs[barOf (xBase 0)].fromNorth = some t → t.rect = pairRect := by
  rintro t (h | h) <;> cases h

theorem met_BarrierInstructions_wait :
    let b := ((barred (bound none)).core core0.core).bgs[barOf (xBase 0)]
    b.state = 1 ∧ b.broken = false ∧ (barred (bound none)).me.blocked = none ∧ (barred (bound none)).me.tinh = false ∧
    (barred (bound none)).me.copyTl.fault = none ∧ (barred (bound none)).me.batches = [] ∧
    (xBase 8).mod.getLsbD 3 = true ∧ (xBase 4).mod.getLsbD 2 = true ∧ (xBase 0).mod.getLsbD 3 = false ∧
    (big id).cur.core.big = true ∧ ((barred Barrier.reset).core core0.core).bgs[barOf (xBase 0)].state = 0 ∧
    ((barred { bound none with broken := true }).core core0.core).bgs[barOf (xBase 0)].broken = true := by decide +kernel

theorem met_BarrierInstructions_phase :
    PhaseSound (barred (bound none)) ∧ ¬Control (big id) ∧
    ∀ t, ((barred (bound none)).core core0.core).bgs[barOf (xBase 0)].fromWest = some t ∨
      ((barred (bound none)).core core0.core).bgs[barOf (xBase 0)].fromNorth = some t → t.kind = .compute :=
  ⟨fun _ h => (by cases h), fun h => Bool.noConfusion h.1, fun _ h => h.elim (fun h => by cases h) (fun h => by cases h)⟩

/-- A context that waits in a PHASE. -/
theorem met_BarrierInstructions_blocked :
    let w : Blocked := { instr := .phase (xBase 0), deadline := none, issued := 0, phase := 1 }
    let s := barred (bound none)
    (s.setMe { s.me with blocked := some w }).me.blocked = some w ∧ w.phase = 1 := ⟨rfl, rfl⟩

/-- Core 0:0:0 in a transfer phase that began in cycle 5, in cycle c, its east latch full and its east output routed or not. -/
def moving (c : Nat) (full routed : Bool) : State :=
  let s := { barred (bound none) with dieCycle := c }
  let y := Transfer.begin 0 pairRect 5
  s.setCore core0.core { s.core core0.core with transfer := some { y with
    latches := y.latches.set 1 { Latch.reset with v := full, u := !full }, routes := y.routes.set 1 (if routed then some .w else none) } }

/-- The phase a core is in. -/
def transferOf (s : State) : Transfer := ((s.core core0.core).transfer).getD (Transfer.begin 0 0 0)

theorem met_TimedInstructions :
    Control (moving 5 true false) ∧ (little id).me.tinh = false ∧ ((little id).core core0.core).transfer = none ∧
    ((moving 5 true false).core core0.core).transfer = some (transferOf (moving 5 true false)) ∧
    (transferOf (moving 5 true false)).violated = false ∧
    (moving 4 true false).dieCycle < (transferOf (moving 4 true false)).start + bits (xBase 1).e2.toNat 19 0 ∧
    (transferOf (moving 6 true false)).start + bits (xBase 1).e2.toNat 19 0 < (moving 6 true false).dieCycle ∧
    (moving 5 true false).dieCycle = (transferOf (moving 5 true false)).start + bits (xBase 1).e2.toNat 19 0 ∧
    neighbour pairRect core0.core (dirCode (bits (xBase 1).mod.toNat 1 0)) = some { core0.core with col := 1 } ∧
    (transferOf (moving 5 true false)).routes[latchOf .e] = none ∧ (transferOf (moving 5 true true)).routes[latchOf .e] ≠ none ∧
    ((transferOf (moving 5 true false)).latches[latchOf .e]).v = true ∧
    ((transferOf (moving 5 false false)).latches[latchOf .e]).v = false ∧ neighbour pairRect core0.core .n = none :=
  ⟨⟨rfl, rfl⟩, by decide, rfl, rfl, rfl, by decide +kernel, by decide +kernel, by decide +kernel, by decide +kernel, by decide +kernel,
    by decide +kernel, by decide +kernel, by decide +kernel, by decide +kernel⟩

/-! ### Tasks, rings, messages and groups -/

/-- A range of indices 3 to 6, one at a time. -/
def rangeTask : BitVec 256 := BitVec.ofNat 256 (0x4000 + 3 * 2 ^ 128 + 7 * 2 ^ 160 + 2 ^ 192 + 2 ^ 208)

/-- Core 0:0:0 in a pool stage with a deque, its task in V2 and the address of its local memory in S3. -/
def tasked (deque : List (BitVec 256)) (work : Nat) : State :=
  let s := runs (little fun m => { (m.setV 2 (rangeTask.setWidth 512)).setS 3 (ownBase 512) with takes := 1 }) (launch0 alloc0 work)
  s.setCore core0.core { s.core core0.core with deque := deque }

theorem stage_tasked (d : List (BitVec 256)) (w : Nat) :
    (tasked d w).stageOf core0.core = some (0, launch0 alloc0 w, 0, ((launch0 alloc0 w).stages[0]'(by simp [launch0]))) := rfl

theorem unrecorded_little (f : Context → Context) : Unrecorded (little f) core0.core := by
  intro p h
  cases h

theorem met_TaskInstructions_spawn :
    (launch0 alloc0 0).pool 0 = true ∧ taskValid rangeTask = true ∧ taskValid 1 = false ∧ (little id).inPool = false ∧
    (little id).me.tinh = false ∧ ((tasked [] 0).core core0.core).deque.length < 64 ∧
    Unrecorded (tasked [] 0) core0.core ∧
    (tasked [] 0).spawnTarget ((launch0 alloc0 0).stages[0]'(by simp [launch0])) false (localAddr core0.core 512) = some core0.core ∧
    core0.core ∈ ((launch0 alloc0 0).stages[0]'(by simp [launch0])).cores :=
  ⟨by decide +kernel, by decide +kernel, by decide, by decide, by decide, by decide, fun p h => by (cases h), by decide +kernel,
    by decide +kernel⟩

theorem met_TaskInstructions_resolve :
    (tasked [] 0).resolve core0.core (tasked [] 0).me.sup .load ((tasked [] 0).me.getS 3).toNat = .ok (localAddr core0.core 512) :=
  resolves (s := tasked [] 0) (by decide +kernel)

/-- A target outside the stage. -/
theorem met_TaskInstructions_away :
    ∀ m, (tasked [] 0).spawnTarget ((launch0 allocBig 0).stages[0]'(by simp [launch0])) false (localAddr core0.core 0) = some m →
      m ∉ ((launch0 allocBig 0).stages[0]'(by simp [launch0])).cores ∨ 64 ≤ ((tasked [] 0).core m).deque.length := by
  intro m h
  have : m = core0.core := by
    have h' : (tasked [] 0).spawnTarget ((launch0 allocBig 0).stages[0]'(by simp [launch0])) false (localAddr core0.core 0) =
        some core0.core := by decide +kernel
    rw [h'] at h
    exact (Option.some.inj h).symm
  subst this
  exact .inl (by decide +kernel)

theorem met_TaskInstructions_take :
    (tasked [rangeTask] 1).shed (tasked [rangeTask] 1).me = false ∧ ((tasked [rangeTask] 1).core core0.core).deque = [] ++ [rangeTask] ∧
    rangeTask.getLsbD 208 = true ∧
    bits rangeTask.toNat 159 128 + bits rangeTask.toNat 207 192 < bits rangeTask.toNat 191 160 ∧
    ((tasked [] 0).core core0.core).deque = [] ∧ ((tasked [] 0).core core0.core).ovfTop = 0 ∧
    0 < (tasked [] 0).me.takes ∧ (pooled.me.takes = 0) ∧ pooled.me.tinh = false := by decide +kernel

/-- The launch with a ring and a group in a state. -/
def rung (r : Ring) : State := runs (little id) { launch0 alloc0 0 with rings := [(0, r)] }

theorem roles_launch0 : ringBits (launch0 alloc0 0).packet 0 123 121 = 0 ∧ ringBits (launch0 alloc0 0).packet 0 126 124 = 0 := by
  decide +kernel

theorem role_rung (r : Ring) (consumer : Bool) :
    (rung r).roleRing consumer 0 = some (0, { launch0 alloc0 0 with rings := [(0, r)] }, r) := by
  have b : ringBits (launch0 alloc0 0).packet 0 127 127 = 1 := by decide +kernel
  have h : (rung r).stageOf (rung r).cur.core = some (0, { launch0 alloc0 0 with rings := [(0, r)] }, 0,
      ((launch0 alloc0 0).stages[0]'(by simp [launch0]))) := rfl
  have e : ({ launch0 alloc0 0 with rings := [(0, r)] } : Launch).ring? 0 = some r := by
    simp only [Launch.ring?, b]
    rfl
  cases consumer <;> simp only [State.roleRing, h, e, roles_launch0] <;> rfl

theorem met_RingInstructions :
    let r : Ring := { Ring.reset with res := 2, pubf := 1, take := 1, donef := 0, reserved := [(1, core0)], taken := [(0, core0)] }
    let slots := 2 ^ (ringBits (launch0 alloc0 0).packet 0 116 113 + 1)
    Ring.reset.res - Ring.reset.donef < slots ∧ 0 < ({ r with take := 0 } : Ring).pubf ∧
    (rung r).shed (rung r).me = false ∧ r.pubf ≤ 1 ∧ 1 < r.res ∧ 1 ∉ r.published ∧ (1, core0) ∈ r.reserved ∧
    r.donef ≤ 0 ∧ 0 < r.take ∧ 0 ∉ r.done ∧ (0, core0) ∈ r.taken ∧
    (let z : Ring := { Ring.reset with closed := true }
     z.pubf ≤ z.take ∧ z.closed = true ∧ z.take = z.res) ∧
    (little id).roleRing false 0 = none ∧ (little id).roleRing true 0 = none ∧ (little id).me.tinh = false := by decide +kernel

theorem met_RingInstructions_unrecorded (r : Ring) : Unrecorded (rung r) core0.core := by
  intro p h
  cases h

/-- One rank, held by the acting context, and a message in its mailbox. -/
def ranked : State :=
  runs (little fun m => { m with mailbox := [{ payload := 5, source := 0, tag := 7 }] })
    { launch0 alloc0 0 with ranks := [{ ctx := core0, transit := false, ended := false }] }

theorem met_RanksAndMessages :
    ((launch0 alloc0 0).ranks.length ≤ (ranked.me.getS 2).toNat) ∧
    ((ranked.stageOf core0.core).map fun e => e.2.1.ranks) = some [{ ctx := core0, transit := false, ended := false }] ∧
    (ranked.me.getS 2).toNat < 1 ∧ (ranked.core core0.core).sendBuf.length < 8 ∧
    ranked.me.mailbox = { payload := 5, source := 0, tag := 7 } :: [] ∧ ranked.me.tinh = false := by decide +kernel

/-- The acting context is member 0 of group 0. -/
def grouped (n : Nat) : State :=
  runs (little fun m => { m.setS 4 (ownBase 512) with
      groups := List.replicate n { group := 0, gen := 0, index := 0, size := 1, round := 0 } }) (launch0 alloc0 0)

theorem met_CollectiveGroups :
    (grouped 0).me.groups.length < 4 ∧ (lookup GroupId.reset 0 (launch0 alloc0 0).groups).drains = false ∧
    (grouped 1).me.collTl.fault = none ∧
    (grouped 1).me.groups = [] ++ { group := 0, gen := 0, index := 0, size := 1, round := 0 } :: [] ∧
    4 ≤ (grouped 4).me.groups.length ∧ (little id).stageOf core0.core = none ∧ (grouped 0).me.tinh = false ∧
    (grouped 0).me.groups = [] ∧
    (grouped 1).me.getS (({ xBase 0 with e1 := 4 } : XForm).e1.extractLsb' 0 5) = ownBase 512 := by decide +kernel

theorem met_CollectiveGroups_destination :
    Granted (grouped 1) .store (ownBase 512) 64 64 (localAddr core0.core 512) := by
  refine ⟨by decide, resolves (by decide +kernel), by decide, fun _ _ => ⟨by rfl, fun w h => ?_⟩⟩
  have hc : ((grouped 1).core (grouped 1).cur.core).wins[w] = Window.reset := wins_unbound w
  rw [hc, meets_unbound] at h
  cases h

/-! ## Floating point -/

/-- Little core 0:0:0 with 1.0 in the low lane of V2 and S2, 0 in V3 and S3, and every trap of FCTL enabled or none. -/
def floats (b : Bool) (f : Context → Context) : State :=
  acting (if b then bigCore else core0) fun m => f ((m.setV 2 0x3F800000).setS 2 0x3F800000)

/-- Every exception enabled. -/
def trapping (m : Context) : Context := { m with fctl := 0x1F00 }

/-- Format V under predicate 1, which is clear. -/
def vOff (ty : BitVec 3) : VForm := { vBase ty with pg := 1 }

theorem met_FloatResults :
    tyFp (vBase 2).ty = .f32 ∧ tyFp (vBase 0).ty ≠ .f64 ∧ tyFp (vBase 1).ty ≠ .f64 ∧ (floats true id).cur.core.big = true ∧
    tyFp (vBase 3).ty = .f64 ∧ ((vBase 2).mask (floats false id).me).getLsbD 0 = true ∧
    ((vOff 2).mask (floats false id).me).getLsbD 0 = false ∧ (floats false trapping).me.tinh = false := by decide +kernel

/-- 03 R78: 1.0 / 0 raises DZ; its trap is enabled in the second state. -/
theorem met_FloatResults_flags :
    let g := fpArith .div .f32 (modeOf (vBase 2) (floats false id).me) (ruleOf (vBase 2)) 0x3F800000 0
    g.2 &&& enabled (floats false id).me = 0 ∧ g.2 &&& enabled (floats false trapping).me ≠ 0 ∧
    (fpArith .mul .f32 (modeOf (vBase 2) (floats false id).me) (ruleOf (vBase 2)) 0x3F800000 0).2 &&&
      enabled (floats false trapping).me = 0 ∧
    (fpCmp 0 .f32 0x3F800000 0).2 &&& enabled (floats false trapping).me = 0 := by decide +kernel

theorem met_FusedResults :
    let s := floats false trapping
    let r := modeOf (vBase 2) s.me
    let rule := ruleOf (vBase 2)
    (fpFma false false .f32 r rule 0x3F800000 0 0).2 &&& enabled s.me = 0 ∧
    (fpFma false false .f32 r rule 0x7F800000 0 0).2 &&& enabled s.me ≠ 0 ∧
    (fpSum .f32 r rule [0x3F800000, 0]).2 &&& enabled s.me = 0 ∧
    (fpSum .f32 r rule [0x7F800000, 0xFF800000]).2 &&& enabled s.me ≠ 0 ∧ s.me.tinh = false := by decide +kernel

/-- FCVT from .f32 (12) to a signed 32-bit integer (2), and between the last codes. -/
def cvt (src dst : Nat) : VForm := { vBase 0 with form := .ext e1 (BitVec.ofNat 32 (src * 256 + dst)) }

theorem met_ConversionResults :
    ([(12, 2), (0, 12), (13, 13), (0, 13)].all fun p => ((cvt p.1 p.2).form.e2.extractLsb' 8 5).toNat == p.1 &&
      ((cvt p.1 p.2).form.e2.extractLsb' 0 5).toNat == p.2 && decide (p.1 < 14) && decide (p.2 < 14)) = true ∧
    (convert 12 2 .rne false 0x3F800000).2 &&& enabled (floats false id).me = 0 ∧
    (convert 12 2 .rne false 0x7F800000).2 &&& enabled (floats false trapping).me ≠ 0 ∧
    (big id).cur.core.big = true ∧ (12 ≠ 13 ∧ 2 ≠ 13) := by decide +kernel

theorem met_TranscendentalResults :
    (floats true id).cur.core.big = true ∧
    (fpXfn .exp2 .f32 (modeOf (vBase 2) (floats true id).me) (ruleOf (vBase 2)) 0).2 &&& enabled (floats true id).me = 0 ∧
    (fpXfn .rcp .f32 (modeOf (vBase 2) (floats true trapping).me) (ruleOf (vBase 2)) 0).2 &&& enabled (floats true trapping).me ≠ 0 := by
  decide +kernel

theorem met_LittleCoreShips :
    (little id).cur.core.big = false ∧ enabled (little id).me = 0 ∧ (little id).canShip = true ∧ tyFp (vBase 3).ty = .f64 ∧
    ((vBase 3).mask (little id).me).getLsbD 0 = true := by decide +kernel

/-- A full return-address store over a spill area of the local memory with room for one entry. -/
def spilling : State :=
  little fun m => { m with ras := List.replicate 16 0x4000, rasp := ownBase 512, rasl := ownBase 520 }

/-- An empty one whose spill area holds one entry. -/
def refilling : State := little fun m => { m with rasp := ownBase 520, rasn := 1 }

theorem met_CallsAndReturns_spill :
    Memory.wf spilling = true ∧ spilling.me.ras.length = 16 ∧ spilling.me.rasp.toNat + 8 ≤ spilling.me.rasl.toNat ∧
    spilling.me.rasn ≠ 0xFFFFFFFF#32 ∧ Granted spilling .store spilling.me.rasp 8 8 (localAddr core0.core 512) ∧
    spilling.me.pc.toNat % 4 = 0 ∧ (spilling.me.getS 2).toNat % 4 = 0 :=
  ⟨by decide, by decide, by decide, by decide, ⟨by decide, resolves (by decide +kernel), by decide, windows_of _ _ _⟩, by decide, by decide⟩

theorem met_CallsAndReturns_refill :
    refilling.me.ras = [] ∧ refilling.me.rasn ≠ 0 ∧ refilling.me.tinh = false ∧
    Granted refilling .load (refilling.me.rasp - 8) 8 8 (localAddr core0.core 512) ∧ Sound refilling (localAddr core0.core 512) 8 ∧
    HoldsBytes refilling (localAddr core0.core 512) 8 false 0 ∧
    HoldsBytes (refilling.write (localAddr core0.core 512) 1 2) (localAddr core0.core 512) 8 false 2 :=
  ⟨rfl, by decide, rfl, ⟨by decide, resolves (by decide +kernel), by decide, windows_of _ _ _⟩, sound_little _ _ _,
    ⟨by decide +kernel, fun j h1 h2 => by omega⟩, ⟨by decide +kernel, fun j h1 h2 => by omega⟩⟩

theorem met_AtomicResults_single :
    (aForm 2).sz = 2 ∧ Granted (local_ 512) .atomic ((local_ 512).me.getS (aForm 2).a + (aForm 2).e2.signExtend 64) 4 4
      (localAddr core0.core 512) ∧ Sound (local_ 512) (localAddr core0.core 512) 4 ∧ ({ aForm 2 with ord := 3 }).ord.getLsbD 0 = true ∧
    ((local_ 512).me.fctl.extractLsb' 8 5 &&& (fpArith .add .f32 .rne .final 0 0).2.extractLsb' 0 5 = 0) ∧
    ((little fun m => { m with fctl := 0x10100 }).me.fctl.extractLsb' 8 5 &&&
      (fpMinMax false false .f32 0x7FA00000 0).2.extractLsb' 0 5 ≠ 0) :=
  ⟨by decide, granted_local .atomic _ _ (by decide), sound_little _ _ _, by decide, by decide +kernel, by decide +kernel⟩

theorem met_LittleCoreShips_forms :
    (little id).me.blocked = none ∧ enabled (floats false trapping).me ≠ 0 ∧ (floats false trapping).canShip = true ∧
    ((vOff 3).mask (little id).me).getLsbD 0 = false ∧ ((cvt 13 13).form.e2.extractLsb' 8 5).toNat = 13 ∧
    ((cvt 0 13).form.e2.extractLsb' 0 5).toNat = 13 ∧ (cvt 13 13).form.e2.extractLsb' 0 5 = 13#5 := by decide +kernel

theorem met_LittleCoreShips_atomics :
    (local_ 512).cur.core.big = false ∧ (local_ 512).canShip = true ∧ (local_ 512).me.blocked = none ∧ (aForm 4).sz = 4 ∧ (aForm 3).sz = 3 ∧
    Granted (local_ 512) .atomic ((local_ 512).me.getS (aForm 4).a + (aForm 4).e2.signExtend 64) 16 16 (localAddr core0.core 512) ∧
    Granted (local_ 512) .atomic ((local_ 512).me.getS (aForm 3).a + (aForm 3).e2.signExtend 64) 8 8 (localAddr core0.core 512) ∧
    (local_ 15).me.tinh = false ∧ ((local_ 15).me.getS (aForm 4).a + (aForm 4).e2.signExtend 64).toNat % 16 ≠ 0 ∧
    ((local_ 15).me.getS (aForm 3).a + (aForm 3).e2.signExtend 64).toNat % 8 ≠ 0 ∧
    Untouched (local_ 15) ((local_ 15).me.getS (aForm 4).a + (aForm 4).e2.signExtend 64) 16 ∧
    Untouched (local_ 15) ((local_ 15).me.getS (aForm 3).a + (aForm 3).e2.signExtend 64) 8 :=
  ⟨by decide, by decide, by decide, by decide, by decide, granted_local .atomic _ _ (by decide), granted_local .atomic _ _ (by decide),
    by decide, by decide, by decide, passes_unit (by decide +kernel), passes_unit (by decide +kernel)⟩

/-- 03 R59 to R65: one, the largest and the least numbers, zeros, infinities and NaNs of .f32. -/
theorem met_FloatRounding :
    arithmetic .f32 ∧ arithmetic .f64 ∧ OverflowRule.final ≠ .intermediate ∧ OverflowRule.saturate ≠ .intermediate ∧
    ([0x3F800000, 0xBF800000, 0x7F7FFFFF, 1, 0, 0x80000000].all fun a => isFinite .f32 a && decide (a < 2 ^ bitsOf .f32)) = true ∧
    real .f32 0x3F800000 = ((1 : Int) : Rat) ∧ real .f32 0x3F800000 = twoTo 0 ∧ real .f32 0x40000000 = twoTo 1 ∧
    real .f32 0xBF800000 < 0 ∧ real .f32 0 = 0 ∧ real .f32 0x80000000 = 0 ∧ 0 < real .f32 1 ∧ 0 < real .f32 0x7F7FFFFF ∧
    (isInfinity .f32 0x7F800000 && isInfinity .f32 0xFF800000 && !negative .f32 0x7F800000 && negative .f32 0xFF800000) = true ∧
    (isNaN .f32 0x7FC00000 && !isSignalling .f32 0x7FC00000 && isSignalling .f32 0x7FA00000) = true ∧
    isFinite .f16 0x7BFF = true := by
  refine ⟨.inr (.inr (.inl rfl)), .inr (.inr (.inr rfl)), by decide, by decide, ?_, ?_, ?_, ?_, ?_, ?_, ?_, ?_, ?_, ?_, ?_, ?_⟩ <;> decide +kernel

theorem met_FloatRounding_selects :
    under .f32 0x3F800000 0x40000000 ∧ under .f32 0xFF800000 0x7F800000 ∧
    (real .f32 0x80000000 = real .f32 0 ∧ isFinite .f32 0x80000000 = true ∧ isFinite .f32 0 = true ∧ negative .f32 0x80000000 = true ∧
      negative .f32 0 = false) ∧ 7 < 8 := by
  refine ⟨.inr (.inr (by decide +kernel)), .inl (by decide +kernel), by decide +kernel, by decide⟩

theorem met_FloatRounding_converts :
    isFinite .e4m3 0x7E = true ∧ isFinite .e5m2 0x7B = true ∧ isInfinity .e5m2 0x7C = true ∧ isNaN .e4m3 0x7F = true ∧
    isSignalling .e5m2 0x7D = true ∧ (codeTy 0).w = 8 ∧ (codeTy 3).w = 64 ∧ real .s20 (0x80000 % 2 ^ 20) = 0 ∧
    real .s20 (1 % 2 ^ 20) ≠ 0 ∧ real .s20 (0xFFFFF % 2 ^ 20) < 0 ∧ 2 ^ 28 / 2 ^ 28 % 2 == 1 ∧ isFinite .bf16 0x7F7F = true := by
  decide +kernel

theorem met_FloatRounding_inexact (k : Int) : real .f32 0x3F000000 ≠ k := by
  have h : real .f32 0x3F000000 = 1 / 2 := by decide +kernel
  intro e
  have d : (1 / 2 : Rat).den = (k : Rat).den := congrArg Rat.den (h.symm.trans e)
  have k1 : (k : Rat).den = 1 := rfl
  exact absurd (d.trans k1) (by decide +kernel)

/-! ## Shipping, engines and copies -/

/-- A shipped addition of core 0:0:0's control context. -/
def addJob : FpJob where
  op := .arith .add .f64
  dest := .s 1
  scalar := true
  a := 0
  b := 0
  c := 0
  old := 0
  mask := 1
  zero := false
  rm := 1
  sat := false

/-- A shipped 16-byte atomic on its local memory. -/
def wideJob : WideAtomic where
  op := 32
  size := 16
  addr := localAddr core0.core 512
  a := 1
  b := 0
  d := 2
  va := ownBase 512
  space := 0
  hive := false
  en := 0

/-- A packet of it, in the queue from cycle 0. -/
def packetOf (w : ShipWork) (reserved : Bool) : Packet :=
  { sender := core0, tag := 5, held := false, reserved := reserved, work := w, entered := 0, atQueue := false, aged := false }

/-- A result for S1 of core 0:0:0. -/
def result1 : Result :=
  { sender := core0, tag := 5, held := false, writes := [(.s 1, 7)], flags := 0, trap := none }

/-- Hive 0:0:0 with packets on the way and queued, and a result on its way back. -/
def shipping : State :=
  let s := little fun m => { m with flagQueue := [{ tag := 5, flags := none }] }
  { s.setHive (coreHive core0.core) { Hive.reset with
      arriving := [packetOf (.float addJob) true]
      queue := [packetOf (.float addJob) true]
      results := [result1]
      gshareNext := [(4, 2, 9)] } with dieCycle := 1024 }

/-- The same with the atomic the oldest, and two packets admitted in this cycle. -/
def shippingWide : State :=
  shipping.setHive (coreHive core0.core) { shipping.hive (coreHive core0.core) with
    queue := [packetOf (.atomic wideJob) false], admitted := (1024, 2) }

theorem met_ShippingEvents :
    let q := shipping.hive (coreHive core0.core)
    q.arriving[0]? = some (packetOf (.float addJob) true) ∧ shipping.admittedNow (coreHive core0.core) < 2 ∧
    (∀ e ∈ q.arriving, e.atQueue = false) ∧ 2 ≤ shippingWide.admittedNow (coreHive core0.core) ∧
    (packetOf (.float addJob) true).entered + 1024 ≤ shipping.dieCycle ∧
    0 < q.arriving.length + q.results.length ∧ shipping.physHive (coreHive core0.core) < 600 ∧
    shipping.physHive { die := 0, row := 23, col := 23 } = 575 ∧
    q.gshareNext = [(4, 2, 9)] ∧ (shipping.core (Machine.bigCore (coreHive core0.core))).cycles % q.gshareM = 0 ∧ 9 + 2 ≤ shipping.dieCycle ∧
    (((shipping.setCore (Machine.bigCore (coreHive core0.core)) { Core.reset with status := .fenced }).core
      (Machine.bigCore (coreHive core0.core))).status = .fenced) := by decide +kernel

/-- The same with packet p the only one in the queue, its sender's traps enabled as f says. -/
def guests (p : Packet) (f : Word) : State :=
  let s := shipping.setHive (coreHive core0.core) { shipping.hive (coreHive core0.core) with queue := [p] }
  s.setCtx core0 { s.ctx core0 with fctl := f }

/-- An addition of a signalling NaN, whose sender is held. -/
def heldJob : Packet := { packetOf (.float { addJob with a := 0x7FF4000000000000 }) true with held := true }

/-- An atomic of 8 bytes on the local memory. -/
def atomic8 (op : Nat) (en : BitVec 6) : WideAtomic := { wideJob with op := op, size := 8, a := 0x7FF4000000000000, en := en }

theorem turn_of {s : State} {p : Packet} (h : (decide ((s.hive (coreHive core0.core)).queue = [p]) &&
    decide ((s.core (Machine.bigCore (coreHive core0.core))).status ≠ .fenced) && s.guestReady (coreHive core0.core) p &&
    s.guestMay (coreHive core0.core) p) = true) : GuestTurn s (coreHive core0.core) 0 p := by
  simp only [Bool.and_eq_true, decide_eq_true_eq] at h
  obtain ⟨⟨⟨hq, hs⟩, hr⟩, hm⟩ := h
  exact ⟨by simp [hq], hs, hr, by simp, hm⟩

theorem met_ShippingEvents_floats :
    GuestTurn (guests (packetOf (.float addJob) true) 0) (coreHive core0.core) 0 (packetOf (.float addJob) true) ∧
    GuestTurn (guests heldJob 0x100) (coreHive core0.core) 0 heldJob ∧ heldJob.held = true ∧
    enabled ((guests heldJob 0x100).ctx heldJob.sender) &&& (({ addJob with a := 0x7FF4000000000000 } : FpJob).run.flags.foldl (· ||| ·) 0) ≠ 0 :=
  ⟨turn_of (by decide +kernel), turn_of (by decide +kernel), rfl, by decide +kernel⟩

theorem met_ShippingEvents_atomics :
    ([wideJob, atomic8 16 0, atomic8 18 1].all fun j =>
      let s := guests (packetOf (.atomic j) false) 0
      decide ((s.hive (coreHive core0.core)).queue = [packetOf (.atomic j) false]) && s.guestReady (coreHive core0.core) (packetOf (.atomic j) false) &&
        s.guestMay (coreHive core0.core) (packetOf (.atomic j) false) && Memory.wf s && !inPort j.addr &&
        passes (s.guestTouch (packetOf (.atomic j) false))) = true ∧
    (atomic8 16 0).en &&& (fpArith .add .f64 .rne .final 0 (atomic8 16 0).a.toNat).2 = 0 ∧
    (atomic8 18 1).en &&& (fpMinMax true false .f64 0 (atomic8 18 1).a.toNat).2 ≠ 0 := by decide +kernel

theorem met_ShippingEvents_faulty :
    let s := { guests (packetOf (.atomic wideJob) false) 0 with poisoned := [localAddr core0.core 527] }
    GuestTurn s (coreHive core0.core) 0 (packetOf (.atomic wideJob) false) ∧ passes (s.guestTouch (packetOf (.atomic wideJob) false)) = true ∧
    ¬Sound s wideJob.addr 16 :=
  ⟨turn_of (by decide +kernel), by decide +kernel, fun h => h _ (List.mem_singleton.mpr rfl) (by decide +kernel)⟩

/-- A result that lands, and the sender that is held until it does, or that takes the trap it brings. -/
theorem met_ShippingEvents_lands :
    let q := shipping.hive (coreHive core0.core)
    let s := shipping.setCtx core0 { shipping.ctx core0 with
      blocked := some { instr := .fexp2 true (vBase 3), deadline := none, issued := 0, phase := 0 } }
    let u := shipping.setCore core0.core { shipping.core core0.core with status := .running }
    q.results[0]? = some result1 ∧ (shipping.core (Machine.bigCore (coreHive core0.core))).status ≠ .fenced ∧
    (shipping.core core0.core).status ≠ .fenced ∧ (shipping.ctx core0).flagQueue = [{ tag := 5, flags := none }] ∧ result1.tag = 5 ∧
    (1 : Reg) ≠ 0 ∧ (s.ctx core0).blocked.isSome = true ∧ (s.ctx core0).live = true ∧ s.shed (s.ctx core0) = false ∧
    (u.core core0.core).status = .running ∧ (u.core core0.core).parkedSince = none ∧ (u.ctx core0).tinh = false := by decide +kernel

theorem met_ShippingEvents_sound : Sound shippingWide wideJob.addr 16 := fun _ h => by cases h

/-- State s with its acting context waiting in i, on a running core. -/
def held (s : State) (i : Instr) (deadline : Option Nat) : State :=
  let t := s.setCore s.cur.core { s.core s.cur.core with status := .running }
  t.setMe { t.me with blocked := some { instr := i, deadline := deadline, issued := 0, phase := 0 } }

theorem waits_tzero : Waits (held engine (.tzero (xBase 0)) none) core0 (.tzero (xBase 0)) := ⟨by decide +kernel, by decide +kernel, _, rfl, rfl⟩

/-- The engine with one command, TZERO but for fn and step. -/
def command (fn step : Nat) : MatCmd := { XForm.matCmd (xBase 0) fn engine with step := step, seq := 1 }

/-- It is queued, over a slot whose contents are faulty or not. -/
def queued (d : MatCmd) (bad : Bool) : State :=
  let h := engine.hive (coreHive core0.core)
  { engine.setHive (coreHive core0.core) { h with
      slots := h.slots.set 0 { Slot.reset with owner := some core0, bad := bad }, mats := [(core0, { queue := [d], desc := none })] } with
    dieCycle := 256 }

theorem met_MatrixEvents :
    let h := coreHive core0.core
    let s := held engine (.tzero (xBase 0)) none
    (s.ctx core0).matTl.fault = none ∧ (s.mat core0).waiting < 4 ∧ (actingAs s core0).ownsSlot (accOf (xBase 0)) = true ∧
    ([1, 2, 3, 6].all fun fn => (queued (command fn 0) false).matCmd core0 0 == some (command fn 0) &&
      !(queued (command fn 0) false).badStep h (command fn 0) && !(queued (command fn 0) false).badRow h (command fn 0) &&
      !(queued (command fn 0) false).portDead (command fn 0).reaches &&
      !(queued (command fn 0) false).rangesBusy h.die (command fn 0).reaches && (command fn 0).fetchReady &&
      (queued (command fn 0) false).matTurn core0) = true ∧
    (queued (command 2 1) false).matRuns core0 = true ∧ (queued (command 2 1) false).mat core0 = { queue := [command 2 1], desc := none } ∧ (command 2 1).total ≤ (command 2 1).step ∧
    (command 2 1).handlers = [] ∧ (queued (command 8 0) true).matCmd core0 0 = some (command 8 0) ∧
    (queued (command 8 0) true).badStep h (command 8 0) = true ∧
    (queued (command 7 0) false).drainAt core0 = some (0, command 7 0) ∧ (command 7 0).mode ≠ 7 ∧
    (∀ j : Fin 11, j ≠ 0 → (((queued (command 7 0) false).core core0.core).ctxs[j]).live = false) := by decide +kernel

/-- A product of core 0:0:0 over zeros, by its function, type, order and K. -/
def multiply (fn : Nat) (mode : BitVec 4) (classical : Bool) (k : Nat) : MatCmd :=
  { XForm.matCmd (product k) fn engine with seq := 1, mode := mode, classical := classical, k := k, desc := if fn = 5 then some desc0 else none }

/-- Bytes that memory does not list. -/
theorem cells_none (n : Nat) : ∀ a, cellsNat [] a n = 0 := by
  induction n with
  | zero => intro a; rfl
  | succ n ih =>
    intro a
    simp only [cellsNat, ih]
    rfl

/-- An element that an engine reads, from the start of core 0:0:0's local memory on, in an empty memory. -/
theorem raw_zero {s : State} (hm : s.mem = []) (pages : List (Nat × Nat)) (row w idx : Nat) :
    s.matRaw none pages (BitVec.ofNat 64 (2 ^ 63)) row w idx = 0 := by
  have hx : ∀ d : Nat, 2 ^ 63 ≤ (((shiftAddr (BitVec.ofNat 64 (2 ^ 63)) (d : Int)).getD (BitVec.ofNat 64 (2 ^ 63))).toNat) := by
    intro d
    have h1 : bits (BitVec.ofNat 64 (2 ^ 63)).toNat 63 60 = 8 := by decide +kernel
    have h2 : bits (BitVec.ofNat 64 (2 ^ 63)).toNat 18 0 = 0 := by decide +kernel
    simp only [shiftAddr, h1, h2]
    split
    · split
      · rename_i h
        simp only [Option.getD_some, BitVec.toNat_ofNat]
        omega
      · decide
    · omega
  have hl : ∀ a n, 2 ^ 63 ≤ a → s.engineLoad none a n = 0 := by
    intro a n ha
    have he : s.engineMay none a n = true := by simp [State.engineMay]; omega
    have hr : s.read a n = 0 := by rw [State.read, hm, cells_none]
    simp [State.engineLoad, he, State.load, hr]
  have ha : ∀ x : Word, 2 ^ 63 ≤ x.toNat → engineAddr pages x = x.toNat := by
    intro x h
    have : bits x.toNat 63 60 ≠ 0 := by
      have := x.isLt
      simp only [bits]
      omega
    simp only [engineAddr, this, if_false]
  simp only [State.matRaw, ha _ (hx _), hl _ _ (hx _)]
  simp

/-- The products of the statement's clauses. -/
def products : List MatCmd :=
  [multiply 4 0 true 8, multiply 4 7 true 8, multiply 4 0 false 16, multiply 4 8 true 8, multiply 4 11 false 16, multiply 5 0 true 32,
    multiply 5 8 false 32]

/-- No core is fenced there, and no line is busy. -/
theorem calm (d : MatCmd) (rs : List (Nat × Nat)) :
    (queued d false).portDead rs = false ∧ (queued d false).rangesBusy (coreHive core0.core).die rs = false := by
  constructor
  · have h : ∀ k, ((queued d false).core k).status ≠ .fenced := by
      intro k
      by_cases e : k = core0.core
      · subst e
        exact (by decide : CoreStatus.idle ≠ .fenced)
      · have : (queued d false).core k = { Core.reset with cycles := 256 } := by
          show lookup _ _ [_] = _
          simp only [lookup, if_neg (Ne.symm e)]
          rfl
        rw [this]
        decide
    simp [State.portDead, h]
  · have h : ∀ l, (queued d false).lineBusy (coreHive core0.core).die l = false := fun l => by
      unfold State.lineBusy State.entry
      split <;> rfl
    simp [State.rangesBusy, h]

theorem met_MatrixValues_steps (d : MatCmd) (h : d ∈ products) :
    (queued d false).matMay core0 0 = some d ∧ (queued d false).matTurn core0 = true ∧ d.mcast = 0 ∧ d.fetch = none ∧
    (queued d false).owner core0.core = none := by
  have hc : (queued d false).matCmd core0 0 = some d := by revert d; decide +kernel
  have hd : ∀ d ∈ products, ((queued d false).matGoes core0 && d.fn != 7 && !(queued d false).badStep (coreHive core0.core) d &&
      !(queued d false).badRow (coreHive core0.core) d && (queued d false).matTurn core0 && d.mcast == 0 && d.fetch.isNone &&
      ((queued d false).owner core0.core).isNone) = true := by decide +kernel
  have := hd d h
  simp only [Bool.and_eq_true, beq_iff_eq, Option.isNone_iff_eq_none] at this
  refine ⟨?_, this.1.1.1.2, this.1.1.2, this.1.2, this.2⟩
  simp [State.matMay, hc, calm, this.1.1.1.1]

theorem zeros {d : MatCmd} (h : d ∈ products) (row w j : Nat) :
    (queued d false).matRaw none d.pages d.a row w j = 0 ∧ (queued d false).matRaw none d.pages d.b row w j = 0 := by
  have hb : ∀ d ∈ products, d.a = BitVec.ofNat 64 (2 ^ 63) ∧ d.b = BitVec.ofNat 64 (2 ^ 63) := by decide +kernel
  rw [(hb d h).1, (hb d h).2]
  exact ⟨raw_zero rfl _ _ _ _, raw_zero rfl _ _ _ _⟩

/-- The elements are finite in every type. -/
theorem met_MatrixValues_finite {d : MatCmd} (h : d ∈ products) (f : Fmt) (hf : f ∈ [Fmt.e4m3, .f64]) (row w j : Nat) :
    signedOf f ((queued d false).matRaw none d.pages d.a row w j) (false, 0) ∧
    signedOf f ((queued d false).matRaw none d.pages d.b row w j) (false, 0) := by
  rw [(zeros h row w j).1, (zeros h row w j).2]
  have h0 : signedOf f 0 (false, 0) := by
    simp only [List.mem_cons, List.not_mem_nil, or_false] at hf
    rcases hf with rfl | rfl <;> exact ⟨by decide +kernel, by decide +kernel⟩
  exact ⟨h0, h0⟩

/-- A group's scale and zero point are 0, so that its codes have the value 0. -/
theorem met_MatrixValues_codes :
    desc0.g ∈ [32, 64, 128] ∧ ([multiply 5 0 true 32, multiply 5 8 false 32].all fun d => d.desc == some desc0) = true ∧
    (∃ out, RoundsOdd .pa24 false (real .s20 0 * ((0 : Int) : Rat)) out ∧ signedOf .pa24 out.1 (false, 0)) := by
  refine ⟨by decide, by decide +kernel, (zeroOf .pa24 false, 0), ?_, by decide +kernel, by decide +kernel⟩
  simp [RoundsOdd, Delivers]

/-- Commands that are done: two products, and rows of a load, a store and a drain. -/
theorem met_MatrixValues_ends :
    ([multiply 4 8 true 8, multiply 4 8 false 16, multiply 4 0 false 16].all fun d =>
      let e := { d with step := 2 }
      let s := queued e false
      (s.mat core0).queue == [e] && decide (e.total ≤ e.step) && e.handlers.isEmpty && (s.ctx core0).matTl.fault.isNone && s.matRuns core0) = true ∧
    ([3, 8].all fun fn => (queued (command fn 0) false).matMay core0 0 == some (command fn 0) && (queued (command fn 0) false).matTurn core0) = true ∧
    (command 3 0).mode = 0 ∧ mayLoad 0 .ax36 = true ∧ mayDrain 0 .ax36 = true ∧ Memory.wf (queued (command 8 0) false) = true ∧
    (queued (command 7 0) false).drainAt core0 = some (0, command 7 0) ∧
    (∀ j : Fin 11, j ≠ 0 → (((queued (command 7 0) false).core core0.core).ctxs[j]).live = false) := by decide +kernel

/-- The elements of a row that lie in the local memory apart from each other. -/
theorem met_MatrixValues_store :
    let d := command 8 0
    let s := queued d false
    (List.range 64).all (fun j => s.engineMay none (d.rowAddr d.step j) (elemBytes 0) && !inPort (d.rowAddr d.step j) &&
      d.rowAddr d.step j == 2 ^ 63 + j) = true := by decide +kernel

theorem met_MatrixEvents_multicast :
    let f : Fetch := { since := 0, a := [], b := [], gotA := false, gotB := false }
    let d := { XForm.matCmd (product 16) 4 engine with seq := 1, mcast := 3, msel := 1, fetch := some f }
    let e := { d with fetch := none }
    let h := coreHive core0.core
    (∀ m ∈ ((queued d false).hive h).mats, coreHive m.1.core = h) ∧ (queued d false).hives.map (·.1) = [h] ∧
    ((queued d false).mat core0).queue[0]? = some d ∧ d.selects false = true ∧ f.since + 256 ≤ (queued d false).dieCycle ∧
    (queued e false).matCmd core0 0 = some e ∧ e.fetchReady = false ∧ (queued e false).badStep h e = false ∧
    (queued e false).badRow h e = false ∧ ((queued e false).ctx core0).matTl.fault = none ∧ e.fn ≠ 7 := by decide +kernel

/-- Another context of the hive, with a command of its own, whose turn it is. -/
theorem met_MatrixEvents_notTurn :
    let c1 : CtxId := { core := { core0.core with col := 1 }, num := 0 }
    let s := queued (command 2 0) false
    let t := s.setHive (coreHive core0.core) { s.hive (coreHive core0.core) with
      mats := [(core0, { queue := [command 2 0], desc := none }), (c1, { queue := [command 2 0], desc := none })], matTurn := 1 }
    matIndex c1 = 11 ∧ t.matCmd core0 0 = some (command 2 0) ∧ (t.ctx core0).matTl.fault = none ∧
    t.badStep (coreHive core0.core) (command 2 0) = false ∧ t.badRow (coreHive core0.core) (command 2 0) = false ∧
    (command 2 0).reaches = [] ∧ t.matTurn core0 = false := by decide +kernel

theorem met_MatrixEvents_start :
    let s := held (little id) (.start (xBase 0)) none
    Waits s { core := core0.core, num := 0 } (.start (xBase 0)) ∧ s.rowWaits core0.core = false ∧
    ((s.ctx { core := core0.core, num := 0 }).getS 2).toNat % 4 = 0 ∧ ((s.core core0.core).ctxs[(1 : Fin 11)]).live = false :=
  ⟨⟨by decide +kernel, by decide +kernel, _, rfl, rfl⟩, by decide +kernel, by decide +kernel, by decide +kernel⟩

/-- The same record with both addresses local, queued at the copy context, its source faulty or not; and its load for window 0. -/
def copies (bad : Bool) (done : Nat := 0) : State :=
  let s := copying.setCore core0.core { copying.core core0.core with
    wins := Core.reset.wins.set 0 { Window.reset with record := record1, load := some { pages := [], toucher := core0 } } }
  { s.setHive (coreHive core0.core) { Hive.reset with
      copies := [(core0, [{ seq := 1, kind := .copy, record := record1, pages := [], done := done }])] } with
    poisoned := if bad then [localAddr core0.core 515] else [] }

theorem met_CopyEvents_accept :
    let s := held copying (.cseal (xBase 0)) none
    Waits s core0 (.cseal (xBase 0)) ∧ (s.copyQueue core0).length < 16 ∧ (s.ctx core0).batches.length < 16 ∧
    Memory.wf s = true := ⟨⟨by decide +kernel, by decide +kernel, _, rfl, rfl⟩, by decide +kernel, by decide +kernel, by decide +kernel⟩

theorem met_CopyEvents :
    let d : CopyCmd := { seq := 1, kind := .copy, record := record1, pages := [], done := 0 }
    (copies false).copyAt core0 0 = some d ∧ (copies false).badChunk d = false ∧ d.chunk = [0] ∧
    (copies false).portDead (d.ranges.1 ++ d.ranges.2) = false ∧ (copies false).rangesBusy 0 (d.chunkReads ++ d.chunkWrites) = false ∧
    (copies false).copyTurn core0 = true ∧ (copies false).engineMay ((copies false).owner core0.core) (recWrites d.record d.pages 0) 8 = true ∧
    (copies false).engineMay ((copies false).owner core0.core) (localAddr core0.core 512) 8 = true ∧
    recWrites d.record d.pages 0 + recEs d.record ≤ recWrites d.record d.pages 0 + 8 ∧
    localAddr core0.core 512 + recEs d.record ≤ recWrites d.record d.pages 0 ∧
    (let c1 : CtxId := { core := { core0.core with col := 1 }, num := 0 }
     let s := copies false
     let t := s.setHive (coreHive core0.core) { s.hive (coreHive core0.core) with copies := [(core0, [d]), (c1, [d])], copyTurn := 1 }
     matIndex c1 = 11 ∧ t.copyAt core0 0 = some d ∧ t.copyTurn core0 = false) ∧
    recReads d.record d.pages 0 = some (localAddr core0.core 512) ∧ inPort (localAddr core0.core 512) = false ∧
    inPort (recWrites d.record d.pages 0) = false ∧ (copies true).copyAt core0 0 = some d ∧ (copies true).badChunk d = true ∧
    (copies false 1).copyAt core0 0 = some { d with done := 1 } ∧ ({ d with done := 1 } : CopyCmd).total ≤ ({ d with done := 1 } : CopyCmd).done ∧ Memory.wf (copies true) = true := by decide +kernel

/-- A record that packs one position into groups of two, whose second element is a filler. -/
theorem met_CopyEvents_filler :
    let r : BitVec 1024 := record1 ||| BitVec.ofNat 1024 (2 ^ 386 + 2 ^ 388)
    recTotal r = 2 ∧ recReads r [] 1 = none ∧ recReads r [] 0 = some (localAddr core0.core 512) := by decide +kernel

theorem met_CopyEvents_window :
    let v (b : Bool) := ((copies b).core core0.core).wins[(0 : Fin 8)]
    let r := recAbs core0.core record1
    (v false).load = some { pages := [], toucher := core0 } ∧ (v false).record = record1 ∧
    (copies false).portDead (((List.range (recTotal r)).filterMap fun i => (recReads r [] i).map fun a => (a, 1)) ++
      [(localAddr core0.core 0, 1)]) = false ∧
    (copies false).badSource r [] (List.range (recTotal r)) = none ∧
    (copies true).badSource r [] (List.range (recTotal r)) = some (0, localAddr core0.core 515) := by decide +kernel

/-! ## Waits, barriers and tasks on their own -/

theorem unrecorded_of {s : State} {k : CoreId} (h : s.owner k = none) : Unrecorded s k := by
  intro p hp
  rw [h] at hp
  cases hp

theorem met_WaitsAndTimeouts_wait :
    let s := held (little id) (.wait (waits 0)) (some 0)
    Waits s core0 (.wait (waits 0)) ∧ DeadlinePassed s core0 ∧ Unrecorded s core0.core ∧ (waits 0).mod = 0 :=
  ⟨⟨by decide +kernel, by decide +kernel, _, rfl, rfl⟩, ⟨_, 0, rfl, rfl, by decide, by decide⟩, unrecorded_of (by decide +kernel), rfl⟩

/-- A memory condition that does not hold: 0 differs from 0. -/
theorem met_WaitsAndTimeouts_false :
    let c : WaitCond := { num := 0, kind := 3, qual := 1, x := ownBase 512, y := 0 }
    CondSays (local_ 512) c false :=
  ⟨_, granted_local .load 8 8 (by decide), sound_little _ _ _, by decide +kernel⟩

/-- YIELD with its limit reached. -/
theorem met_WaitsAndTimeouts_yield :
    let s := little fun m => { m with yielding := some { waiting := [1], limit := 0 } }
    (s.ctx core0).yielding = some { waiting := [1], limit := 0 } ∧ 0 ≤ (s.core core0.core).cycles := by decide +kernel

theorem met_WaitsAndTimeouts_bwait :
    let b : Barrier := { bound none with word := (bound none).word + 0x4000000000000000 }
    let s := held (barred b) (.bwait (xBase 0)) (some 0)
    Waits s core0 (.bwait (xBase 0)) ∧ core0.core.big = false ∧ ((s.core core0.core).bgs[barOf (xBase 0)]).state = 2 ∧
    ((s.core core0.core).bgs[barOf (xBase 0)]).broken = false ∧ DeadlinePassed s core0 :=
  ⟨⟨by decide +kernel, by decide +kernel, _, rfl, rfl⟩, rfl, by decide +kernel, by decide +kernel, ⟨_, 0, rfl, rfl, by decide, by decide⟩⟩

theorem met_WaitsAndTimeouts_taskget :
    let s := held (tasked [] 1) (.taskget (xBase 0)) (some 0)
    Waits s core0 (.taskget (xBase 0)) ∧ DeadlinePassed s core0 ∧
    s.stageOf core0.core = some (0, launch0 alloc0 1, 0, ((launch0 alloc0 1).stages[0]'(by simp [launch0]))) ∧
    (launch0 alloc0 1).pool 0 = true ∧ s.shed (s.ctx core0) = false ∧ (s.core core0.core).deque = [] ∧ (s.core core0.core).ovfTop = 0 :=
  ⟨⟨by decide +kernel, by decide +kernel, _, rfl, rfl⟩, ⟨_, 0, rfl, rfl, by decide, by decide⟩, rfl, by decide +kernel, by decide +kernel, by decide +kernel,
    by decide +kernel⟩

theorem met_WaitsAndTimeouts_rgtake :
    let s := held (rung Ring.reset) (.rgtake (xBase 0)) (some 0)
    Waits s core0 (.rgtake (xBase 0)) ∧ DeadlinePassed s core0 ∧
    (actingAs s core0).roleRing true 0 = some (0, { launch0 alloc0 0 with rings := [(0, Ring.reset)] }, Ring.reset) ∧
    Ring.reset.pubf ≤ Ring.reset.take ∧ Ring.reset.closed = false ∧ s.shed (s.ctx core0) = false :=
  ⟨⟨by decide +kernel, by decide +kernel, _, rfl, rfl⟩, ⟨_, 0, rfl, rfl, by decide, by decide⟩, by decide +kernel, by decide, rfl, by decide +kernel⟩

theorem met_WaitsAndTimeouts_recv :
    let s := held (little id) (.recv (xBase 0)) (some 0)
    Waits s core0 (.recv (xBase 0)) ∧ DeadlinePassed s core0 ∧ (s.ctx core0).mailbox = [] :=
  ⟨⟨by decide +kernel, by decide +kernel, _, rfl, rfl⟩, ⟨_, 0, rfl, rfl, by decide, by decide⟩, by decide +kernel⟩

theorem met_WaitsAndTimeouts_spawn :
    let s := { held (tasked (List.replicate 64 rangeTask) 1) (.spawn (xBase 0)) none with refCount := 4096 }
    Waits s core0 (.spawn (xBase 0)) ∧ (∃ b, (s.ctx core0).blocked = some b ∧ b.issued + 4096 ≤ s.now) ∧ Unrecorded s core0.core ∧
    s.stageOf core0.core = some (0, launch0 alloc0 1, 0, ((launch0 alloc0 1).stages[0]'(by simp [launch0]))) ∧
    taskValid (((s.ctx core0).getV 2).extractLsb' 0 256) = true ∧ 64 ≤ (s.core core0.core).deque.length ∧
    (s.core core0.core).spills = false ∧ (s.ctx core0).tinh = false :=
  ⟨⟨by decide +kernel, by decide +kernel, _, rfl, rfl⟩, ⟨_, rfl, by decide +kernel⟩, unrecorded_of (by decide +kernel), rfl, by decide +kernel,
    by decide +kernel, by decide +kernel, by decide +kernel⟩

/-! ### Tokens, releases and wires -/

/-- A token for BG0 of core 0:0:0 and what else may be on the die's wires. -/
def token (rect : BitVec 30) (kind : ArrivalKind) : Token := { rect := rect, gen0 := false, kind := kind }

/-- Something on its way to BG0 of core 0:0:0, due in cycle 0. -/
def flight {α : Type} (x : α) (d : Dir) : Flight α := { dest := core0.core, bg := 0, from_ := d, due := 0, load := x }

/-- The die's wires, over a barrier. -/
def wired (b : Barrier) (rect : BitVec 30) (kind : ArrivalKind) : State :=
  let s := barred b
  let y := Transfer.begin 0 pairRect 0
  let s := s.setCore core0.core { s.core core0.core with transfer := some y }
  s.setDie 0 { s.die 0 with tokens := [flight (token rect kind) .w], releases := [flight (token rect kind, 3) .w], wires := [flight 9 .e] }

/-- What is under way. -/
theorem met_BarrierEvents_flights (b : Barrier) (rect : BitVec 30) (kind : ArrivalKind) :
    ((wired b rect kind).die 0).tokens[0]? = some (flight (token rect kind) .w) ∧
    ((wired b rect kind).die 0).releases[0]? = some (flight (token rect kind, 3) .w) ∧
    ((wired b rect kind).die 0).wires[0]? = some (flight 9 .e) ∧
    ((wired b rect kind).core core0.core).transfer = some (Transfer.begin 0 pairRect 0) := ⟨rfl, rfl, rfl, rfl⟩

theorem met_BarrierEvents :
    let bar (s : State) : Barrier := (s.core core0.core).bgs[(0 : Fin 4)]
    (flight (token pairRect .compute) .w).due ≤ (little id).dieCycle ∧
    (bar (wired Barrier.reset pairRect .compute)).state = 0 ∧
    (bar (wired (bound none) 5 .compute)).state ≠ 0 ∧ (token 5 .compute).gen0 = (bar (wired (bound none) 5 .compute)).gen0 ∧
    (token 5 .compute).rect ≠ (bar (wired (bound none) 5 .compute)).rect ∧
    (bar (wired (bound none) pairRect .compute)).rect = pairRect ∧ (token pairRect .compute).kind ≠ .mixed ∧
    (token pairRect .transfer).kind ≠ .mixed := by decide +kernel

/-- A compute release of a class that is shed, and one of no launch; and a word from a neighbour of the rectangle. -/
theorem met_BarrierEvents_withheld :
    let s := wired (bound none) pairRect .compute
    let t := { s with power := { s.power with active := 0 } }
    (t.core core0.core).status ≠ .fenced ∧ t.shed ((t.core (cornerOf 0 pairRect)).ctxs[(0 : Fin 11)]) = true ∧
    s.shed ((s.core (cornerOf 0 pairRect)).ctxs[(0 : Fin 11)]) = false ∧ ((s.core core0.core).bgs[(0 : Fin 4)]).rect = pairRect ∧
    (neighbour pairRect core0.core .e).isSome = true ∧ s.memberHalted core0.core 0 = false := by decide +kernel

/-- A phase about to start, its member waiting in PHASE. -/
theorem met_BarrierEvents_start :
    let s := barred { bound none with startAt := some 0, startKind := .transfer }
    let u := (s.setCore core0.core { s.core core0.core with status := .running }).setMe
      { s.me with blocked := some { instr := .phase (xBase 0), deadline := none, issued := 0, phase := 1 } }
    let b := (u.core core0.core).bgs[(0 : Fin 4)]
    b.startAt = some 0 ∧ b.fromWest = none ∧ b.fromNorth = none ∧ b.startKind = .transfer ∧ (u.core core0.core).status = .running ∧
    ((u.core core0.core).ctxs[(0 : Fin 11)]).blocked = some { instr := .phase (xBase 0), deadline := none, issued := 0, phase := 1 } ∧
    barOf (xBase 0) = 0 := ⟨rfl, rfl, rfl, rfl, by decide +kernel, rfl, by decide⟩

/-! ### Probes, messages and collectives -/

/-- A second core of the pool stage. -/
def core1 : CoreId := { core0.core with col := 1 }

/-- A core waiting in TASKGET with a probe sent or not, a victim's deque, a message to rank 0, and a task on its way. -/
def thief (probe : Option CoreId) (deque : List (BitVec 256)) : State :=
  let s := held (runs (little id) { launch0 alloc0 1 with ranks := [{ ctx := core0, transit := false, ended := false }] }) (.taskget (xBase 0)) none
  let s := s.setCore core0.core { s.core core0.core with
    probe := probe
    sendBuf := [{ launch := 0, sender := core0, rank := 0, msg := { payload := 5, source := 0, tag := 7 } }] }
  { s.setCore core1 { s.core core1 with deque := deque } with spawns := [{ dest := core1, by_ := core0, record := rangeTask }] }

theorem met_TaskEvents :
    let s := thief none []
    ((s.stageOf core0.core).map (·.1)) = some 0 ∧ (s.core core0.core).steals = true ∧
    ((thief (some core1) [1, 2, 3]).core core0.core).probe = some core1 ∧ core1 ≠ core0.core ∧
    2 ≤ ((thief (some core1) [1, 2, 3]).core core1).deque.length ∧ ((thief (some core1) []).core core1).deque = [] ∧
    s.spawns[0]? = some { dest := core1, by_ := core0, record := rangeTask } ∧ (s.core core1).deque.length < 64 ∧
    (s.core core0.core).sendBuf[0]? = some { launch := 0, sender := core0, rank := 0, msg := { payload := 5, source := 0, tag := 7 } } ∧
    ((s.launch? 0).map fun l => (s.part l.part).rmode) = some 0 ∧
    ((s.launch? 0).bind fun l => l.ranks[0]?) = some { ctx := core0, transit := false, ended := false } ∧
    (s.ctx core0).mailbox.length < 4 ∧ (s.core core0.core).status = .running := by decide +kernel

/-- The thief's stage with two cores that run a context, listed in some order. -/
def probing : State :=
  let s := thief none []
  { s with launches := [(0, { launch0 alloc0 1 with
      stages := [{ alloc := alloc0, units := [], work := 1, running := [core1, core0.core], done := false }] })] }

theorem met_TaskEvents_draws :
    let g : Stage := { alloc := alloc0, units := [], work := 1, running := [core1, core0.core], done := false }
    ((probing.stageOf core0.core).map (·.2.2.2)) = some g ∧ (probing.core core0.core).steals = true ∧
    ([core0.core, core1].Perm g.running) ∧ (∀ v ∈ [core0.core, core1], coreValid v = true) ∧
    [core0.core, core1].Pairwise (AllottedBefore g 0) :=
  ⟨by decide +kernel, by decide +kernel, .swap _ _ _, by decide,
    List.pairwise_cons.mpr ⟨fun v h => by (cases List.mem_singleton.mp h; exact .inr (by decide)), List.pairwise_singleton _ _⟩⟩

/-- A thief and its victim, both of the stage. -/
def robbed (deque : List (BitVec 256)) : State :=
  let s := thief (some core1) deque
  s.setCore core1 { s.core core1 with job := some { launch := 0, stage := 0 } }

theorem met_TaskEvents_steals :
    ((robbed []).core core0.core).probe = some core1 ∧ core1 ≠ core0.core ∧ ((robbed []).core core0.core).status = .running ∧
    ((robbed []).core core1).status = .idle ∧ ((robbed []).core core1).job = ((robbed []).core core0.core).job ∧
    ((thief (some core1) [1]).core core1).job ≠ ((thief (some core1) [1]).core core0.core).job ∧
    ((robbed [1, 2]).core core1).deque.length = 2 ∧ taskRange 1 = false ∧ ((robbed [rangeTask]).core core1).deque = [rangeTask] ∧
    taskRange rangeTask = true ∧ (taskHi rangeTask - taskLo rangeTask + taskGrain rangeTask - 1) / taskGrain rangeTask = 4 ∧
    ((robbed [rangeTask]).stageOf core1).map (·.1) = some 0 := by decide +kernel

/-- A message for a rank whose core belongs to the launch's partition. -/
theorem met_TaskEvents_message :
    let s := (thief none []).setHive (coreHive core0.core) { Hive.reset with owner := some 0 }
    (s.core core0.core).sendBuf[0]? = some { launch := 0, sender := core0, rank := 0, msg := { payload := 5, source := 0, tag := 7 } } ∧
    ((s.launch? 0).bind fun l => l.ranks[0]?) = some { ctx := core0, transit := false, ended := false } ∧
    s.owner core0.core = some 0 ∧ ((s.launch? 0).map (·.part)) = some 0 ∧ (s.part 0).rmode = 0 ∧ (s.ctx core0).mailbox.length < 4 ∧
    (s.core core0.core).status = .running := by decide +kernel

theorem met_TaskEvents_unrecorded (d : List (BitVec 256)) :
    Unrecorded (thief (some core1) d) core1 ∧ Unrecorded (thief none d) core0.core :=
  ⟨fun p h => by (cases h), fun p h => by (cases h)⟩

/-- A part of the acting context, and group 0 with or without it. -/
def part0 : CollPart :=
  { ctx := core0, index := 0, round := 0, seq := 1, mode := 0, value := 5, dst := BitVec.ofNat 64 (localAddr core0.core 512), pages := [] }

/-- The launch with group 0. -/
def collective (mismatch : Bool) (parts : List CollPart) : State :=
  runs (little id) { launch0 alloc0 0 with groups :=
    [(0, { gen := 0, size := 1, members := [(core0, 0)], mismatch := mismatch, parts := parts, frees := [core0] })] }

/-- A part of the control context of the second core, by its rule. -/
def part1 (mode : BitVec 4) : CollPart :=
  { ctx := { core := core1, num := 0 }, index := 1, round := 0, seq := 1, mode := mode, value := 7,
    dst := BitVec.ofNat 64 (localAddr core1 512), pages := [] }

/-- The launch with a group of the two, whose parts have come the other way round. -/
def rounds (mode : BitVec 4) : State :=
  runs (little id) { launch0 alloc0 0 with groups :=
    [(0, { gen := 0, size := 2, members := [(core0, 0), ((part1 mode).ctx, 1)], mismatch := false, parts := [part1 mode, part0], frees := [] })] }

theorem met_TaskEvents_rounds :
    ([0, 4].all fun m =>
      let s := rounds m
      Memory.wf s && (s.launch? 0).isSome && [part0, part1 m].all fun p =>
        (s.core p.ctx.core).status != .fenced && !s.portDead [(engineAddr p.pages p.dst, 64)] &&
          !s.rangesBusy p.ctx.core.die [(engineAddr p.pages p.dst, 64)] && !inPort (engineAddr p.pages p.dst) &&
          s.engineMay (s.owner p.ctx.core) (engineAddr p.pages p.dst) 64 && (s.ctx p.ctx).collTl.fault.isNone) = true ∧
    [part0, part1 0].Perm [part1 0, part0] ∧ part0.index < (part1 0).index ∧ part0.ctx ≠ (part1 0).ctx ∧ part0.round = (part1 0).round ∧
    engineAddr part0.pages part0.dst + 64 ≤ engineAddr (part1 0).pages (part1 0).dst ∧ part0.mode = (part1 0).mode ∧
    part0.mode ≠ (part1 4).mode ∧ (4#4).toNat < 5 :=
  ⟨by decide +kernel, .swap _ _ _, by decide, by decide, rfl, by decide +kernel, rfl, by decide, by decide⟩

theorem met_TaskEvents_groups :
    let g (s : State) : GroupId := ((s.launch? 0).map fun l => lookup GroupId.reset 0 l.groups).getD GroupId.reset
    (g (collective false [part0])).mismatch = false ∧ (g (collective false [part0])).parts = [part0] ∧
    (g (collective false [part0])).size = 1 ∧ inPort (engineAddr part0.pages part0.dst) = false ∧
    (collective false [part0]).rangesBusy 0 [(engineAddr part0.pages part0.dst, 64)] = false ∧
    Memory.wf (collective false [part0]) = true ∧ (g (collective true [part0])).mismatch = true ∧
    ((collective true [part0]).ctx core0).collTl.fault = none ∧ (g (collective false [])).members ≠ [] ∧
    (g (collective false [])).size ≤ 1 ∧ (g (collective false [])).frees.length = 1 ∧ (g (collective false [])).parts = [] ∧
    part0.mode ≠ 1 := by decide +kernel

/-! ## Coherence -/

/-- A line homed on die 1, and line 5, homed on die 0. -/
def farLine : Nat := 2 ^ 29

/-- Die 0's entry of a line, with a core that holds it or none. -/
def shared (line : Nat) (e : DirEntry) (holder : Option CoreId) : State :=
  let s := (little id).setEntry 0 line e
  match holder with
  | some k => s.putLine k { line := line, way := 0, own := false, dirty := false }
  | none => s

/-- A line that no slice serves gets an entry where no other one is in its set. -/
theorem roomy {s : State} {die line : Nat} (hs : s.sliceOf die line = none)
    (h : (s.entriesLike die line).filter (fun x => x.1 != line && x.2.state != .uncached && s.sameSet die line x.1) = []) :
    s.makeEntry die line = s := by
  unfold State.makeEntry
  simp only [h, hs]
  cases homedOn die line <;> simp

/-- Messages in die 0's inbox, from die 1, and one from outside the module's 36 dies. -/
def mailed (src : Nat) (k : XKind) : State :=
  let s := little id
  s.setDie 0 { s.die 0 with inbox := [{ src := src, no := 1, clock := [], kind := k }], unbeaten := [35] }

theorem met_CoherenceEvents_messages :
    ([XKind.beat 7, .localAccess core0.core, .readRequest 5 { core0.core with die := 1 }, .invalidate 5, .write 5, .atomic 5].all fun k =>
      [1, 35].all fun src =>
        ((mailed src k).die 0).inbox[0]? == some { src := src, no := 1, clock := [], kind := k } &&
        (mailed src k).mayApply 0 0 { src := src, no := 1, clock := [], kind := k } &&
        !(mailed src k).messageWaits 0 { src := src, no := 1, clock := [], kind := k }) = true ∧
    (mailed 1 (.write 5)).lineOwner 5 = none ∧ ((mailed 1 (.write 5)).entry 0 5).state ≠ .busy ∧
    35 ≠ 0 ∧ 35 ∈ ((mailed 1 (.beat 7)).die 0).unbeaten := by decide +kernel

theorem met_CoherenceEvents_roomy :
    (mailed 1 (.write 5)).makeEntry 0 5 = mailed 1 (.write 5) ∧ (little id).makeEntry 0 5 = little id ∧
    (little id).makeEntry 0 farLine = little id ∧
    (let s := shared 5 { DirEntry.reset with state := .shared, ptrs := [pointerOf core1] } (some core1); s.makeEntry 0 5 = s) :=
  ⟨roomy (by decide +kernel) (by decide +kernel), roomy (by decide +kernel) (by decide +kernel),
    roomy (by decide +kernel) (by decide +kernel), roomy (by decide +kernel) (by decide +kernel)⟩

theorem met_CoherenceEvents_fence :
    let s := { held (little id) .fencesc none with fence := { ticket := 0, waiting := [{ ctx := core0, msgNo := 0, clock := [] }] } }
    s.fence.waiting = [{ ctx := core0, msgNo := 0, clock := [] }] ∧ s.fenceSeen { ctx := core0, msgNo := 0, clock := [] } = true ∧ (s.ctx core0).blocked ≠ none := by decide +kernel

theorem met_CoherenceEvents_unshared :
    Unshared (little id) 0 5 ∧ Unshared (little id) 0 farLine ∧ homedOn 0 5 = true ∧ homedOn 0 farLine = false := by
  refine ⟨⟨?_, ?_, ?_, ?_, ?_⟩, ⟨?_, ?_, ?_, ?_, ?_⟩, ?_⟩ <;> decide +kernel

theorem met_CoherenceEvents_room : L1Room (little id) core0.core 5 := .inr ⟨0, by decide +kernel, by decide +kernel⟩

theorem met_CoherenceEvents_entries :
    let one (st : DirState) : DirEntry := { DirEntry.reset with state := st, ptrs := [pointerOf core1] }
    let busy : DirEntry := { one .busy with acks := [coreHive core1], waiting := [.own core0.core] }
    let held : L1Line := { line := 5, way := 0, own := false, dirty := false }
    (shared 5 (one .shared) (some core1)).l1Line core1 5 = some held ∧ (one .shared).state ≠ .busy ∧
    ((shared 5 (one .exclusive) none).putLine core1 { held with own := true, dirty := true }).l1Line core1 5 =
      some { held with own := true, dirty := true } ∧
    LineReq.read core0.core ∉ busy.waiting ∧ ((shared 5 busy none).hive (coreHive core1)).replies = [] ∧
    ((shared 5 (one .shared) (some core1)).entry 0 5) = one .shared ∧ pointerOf core1 ≠ pointerOf core0.core ∧ coreValid core1 = true ∧
    ((shared 5 busy none).entry 0 5) = busy ∧ coreHive core1 ∈ busy.acks ∧
    ((hiveCores (coreHive core1)).all fun q => !((shared 5 busy none).holdsLine q 5)) = true ∧
    ((shared 5 (one .exclusive) none).entry 0 5).state = .exclusive ∧ (one .exclusive).state ≠ .busy := by decide +kernel

/-- The far line in core 0:0:0's L1; its hive and slice 0 belong to partition 0, and the slice takes replicas. -/
def replicating : State :=
  let s := (shared farLine DirEntry.reset (some core0.core)).setHive (coreHive core0.core) { Hive.reset with owner := some 0 }
  s.setDie 0 { s.die 0 with sliceOwner := [(0, 0)], l2split := [(0, 0x14)] }

theorem met_CoherenceEvents_replica :
    homedOn 0 farLine = false ∧ replicating.holdsLine core0.core farLine = true ∧ (replicating.entry 0 farLine).replica = none ∧
    replicating.owner core0.core = some 0 ∧ replicating.nearestSlice 0 0 (hiveIndex (coreHive core0.core)) = some 0 :=
  ⟨by decide +kernel, by decide +kernel, by decide +kernel, by decide +kernel, by decide +kernel⟩

theorem met_CoherenceEvents_reply :
    let s := (shared 5 { DirEntry.reset with state := .shared, ptrs := [pointerOf bigCore.core] } none).reply bigCore.core 5
    (bigCore.core, 5) ∈ (s.hive (coreHive bigCore.core)).replies ∧ (s.entry 0 5).covers bigCore.core = true ∧
    s.holdsLine bigCore.core 5 = false ∧ 128 * 5 < 2 ^ 52 := by decide +kernel

theorem met_CoherenceEvents_replyRoom : L1Room (little id) bigCore.core 5 := .inr ⟨0, by decide +kernel, by decide +kernel⟩

/-- The big core's reply comes first of its slice, or behind another one. -/
theorem met_CoherenceEvents_replyNext :
    let s := shared 5 { DirEntry.reset with state := .shared, ptrs := [pointerOf bigCore.core] } none
    (s.reply bigCore.core 5).replyNext bigCore.core 5 = true ∧ s.replyNext bigCore.core 5 = false ∧
    (let t := (s.reply core0.core 6).reply bigCore.core 5; t.sliceOf 0 6 = t.sliceOf 0 5 ∧ t.replyNext bigCore.core 5 = false) := by
  decide +kernel

theorem met_CoherenceEvents_code : 128 * (2 ^ 45 - 1) < 2 ^ 52 ∧ Sound (little id) (128 * (2 ^ 45 - 1)) 128 :=
  ⟨by decide, fun _ h => by cases h⟩

/-! ## Launches -/

/-- The core of `mapped`; partition 0's page tables map the first 32 MiB to themselves. -/
def tabled : State :=
  let s := { mapped id with parts := [(0, { Partition.reset with live := true, ptroot := 0x2000000, fabric := [9] })] }
  ((s.write 0x2000000 8 (2 ^ 62 + 0x2004000)).write 0x2004000 8 (2 ^ 62 + 0x2008000)).write 0x2008000 8 (2 ^ 63 + 2 ^ 10 + 2 ^ 9)

/-- The packet read, where it can be read. -/
def packetRead (r : Except Deny (BitVec 11264)) (p : BitVec 11264) : Bool :=
  match r with
  | .ok q => q == p
  | .error _ => false

theorem packetRead_iff {r : Except Deny (BitVec 11264)} {p : BitVec 11264} (h : packetRead r p = true) : r = .ok p := by
  cases r with
  | ok q => rw [eq_of_beq h]
  | error d => cases h

theorem met_LaunchEvents_submissions :
    tabled.doorbellPart (.pf 0) = some 0 ∧ (tabled.part 0).rmode = 0 ∧ tabled.readPacket 0 (128 / 128 * 128) = .ok 0 ∧
    (lookup [] (bits (0#11264).toNat 23 18) (tabled.part 0).queues).length < 256 ∧ 9 ∈ (tabled.part 0).fabric ∧
    8 ∉ (tabled.part 0).fabric :=
  ⟨rfl, rfl, packetRead_iff (by decide +kernel), by decide +kernel, by decide +kernel, by decide +kernel⟩

/-- Whether checks fail for a reason. -/
def failsFor (r : Except Rej Unit) (n : Nat) : Bool :=
  match r with
  | .error m => m == n
  | .ok _ => false

theorem failsFor_iff {r : Except Rej Unit} {n : Nat} (h : failsFor r n = true) : r = .error n := by
  cases r with
  | ok u => cases h
  | error m => rw [eq_of_beq h]

/-- Partition 0 with a malformed packet at the head of queue 3. -/
def drawing : State :=
  { tabled with parts := [(0, { tabled.part 0 with armed := true, queues := [(3, [{ packet := 0, source := .doorbell }])] })] }

theorem met_LaunchEvents_draw :
    let q := drawing.part 0
    let x1 := q.lottery ^^^ (q.lottery <<< 13)
    let x2 := x1 ^^^ (x1 >>> 7)
    let x := x2 ^^^ (x2 <<< 17)
    let u := drawing.setPart 0 { q with lottery := x, armed := false, freed := false, lastDraw := some drawing.refCount }
    drawing.mayDraw 0 = true ∧ q.rmode = 0 ∧ q.select x = some (3, false) ∧
    lookup [] 3 q.queues = [{ packet := 0, source := .doorbell }] ∧ u.firstChecks 0 0 = .error 1 :=
  ⟨by decide +kernel, by decide +kernel, by decide +kernel, by decide +kernel, failsFor_iff (by decide +kernel)⟩

theorem met_LaunchEvents_forced :
    let s := drawing.setPart 0 { drawing.part 0 with forced := some 3, freed := true }
    (s.part 0).forced = some 3 ∧ (s.part 0).freed = true ∧ s.residents 0 < 64 ∧
    lookup [] 3 (s.part 0).queues = [{ packet := 0, source := .doorbell }] ∧
    (s.setPart 0 { s.part 0 with freed := false }).firstChecks 0 0 = .error 1 :=
  ⟨by decide +kernel, by decide +kernel, by decide +kernel, by decide +kernel, failsFor_iff (by decide +kernel)⟩

/-- Whether the head of a queue passes every check and its images are copied. -/
def passesAll (s : State) (p m : Nat) (h : Machine.Queued) : Bool :=
  match s.firstChecks p h.packet, (s.switchMode p m).allotFor (h.launch p) with
  | .ok _, some (u, alloc) =>
    let l : Launch := { h.launch p with stages := freshStages h.packet alloc }
    match u.lastChecks l with
    | .ok _ => !(({ u with nextLaunch := u.nextLaunch + 1 }.setSplits u.nextLaunch l).copyImages l (stageNums l.packet)).2
    | .error _ => false
  | _, _ => false

theorem admits_of {s : State} {p m : Nat} {h : Machine.Queued} (e : passesAll s p m h = true) : ∃ r, Admits s p m h r := by
  unfold passesAll at e
  split at e
  · next _ _ u alloc h1 h2 =>
    simp only at e
    split at e
    · next h3 =>
      simp only [Bool.not_eq_true'] at e
      exact ⟨_, h1, u, alloc, _, h2, h3, Prod.ext rfl e, rfl⟩
    · cases e
  · cases e

/-- A packet of queue 3 with one stage of one big core. -/
def oneStage : Machine.Queued :=
  { packet := BitVec.ofNat 11264 (1 + 3 * 2 ^ 18 + 2 ^ 1024 * (2 ^ 126 + 2 ^ 123 + 2 ^ 102 + 2 ^ 85 + 2 ^ 160 + 2 ^ 166)), source := .doorbell }

/-- That packet at the head of its queue. -/
def admitting : State :=
  { tabled with parts := [(0, { tabled.part 0 with armed := true, queues := [(3, [oneStage])] })] }

theorem met_LaunchEvents_admitted :
    let q := admitting.part 0
    let x1 := q.lottery ^^^ (q.lottery <<< 13)
    let x2 := x1 ^^^ (x1 >>> 7)
    let x := x2 ^^^ (x2 <<< 17)
    let s := admitting.setPart 0 { q with forced := some 3, freed := true }
    (admitting.mayDraw 0 = true ∧ q.rmode = 0 ∧ q.select x = some (3, false) ∧ lookup [] 3 q.queues = [oneStage] ∧
      (s.part 0).forced = some 3 ∧ (s.part 0).freed = true ∧ s.residents 0 < 64 ∧ lookup [] 3 (s.part 0).queues = [oneStage]) ∧
    (∃ r, Admits (admitting.setPart 0 { q with lottery := x, armed := false, freed := false, lastDraw := some admitting.refCount })
      0 3 oneStage r) ∧
    ∃ r, Admits (s.setPart 0 { s.part 0 with freed := false }) 0 3 oneStage r :=
  ⟨by decide +kernel, admits_of (by decide +kernel), admits_of (by decide +kernel)⟩

/-- A readable header with an RPT, its next line past what the page tables map. -/
def cutOff : State :=
  { tabled.write (32 * 2 ^ 20 - 128 + 48) 8 0x100 with cur := core0 }

/-- The read, where it fails. -/
def unread (r : Except Deny (BitVec 11264)) : Bool :=
  match r with
  | .ok _ => false
  | .error _ => true

theorem unread_iff {r : Except Deny (BitVec 11264)} (h : unread r = true) : ∃ d, r = .error d := by
  cases r with
  | ok q => cases h
  | error d => exact ⟨d, rfl⟩

theorem met_LaunchEvents_unread :
    (∃ d, cutOff.readPacket 0 (32 * 2 ^ 20 - 128) = .error d) ∧
    (match cutOff.rimRead 0 (32 * 2 ^ 20 - 128) 128 with | .ok h => bits (BitVec.ofNat 11264 h).toNat 447 384 | .error _ => 0) = 0x100 :=
  ⟨unread_iff (by decide +kernel), by decide +kernel⟩

/-- A submission whose partition a command is changing, and one whose packet cannot be read at all. -/
theorem met_LaunchEvents_changing :
    let s := { tabled with fw := { tabled.fw with changing := some { tag := 1, part := 0, reserved := false } } }
    s.doorbellPart (.pf 0) = some 0 ∧ (s.part 0).rmode = 0 ∧ s.changes 0 = true ∧ tabled.changes 0 = false ∧
    unread (tabled.readPacket 0 (2 ^ 57)) = true ∧
    (match tabled.rimRead 0 (2 ^ 57) 128 with | .error _ => true | .ok _ => false) = true ∧
    (match cutOff.rimAddr 0 .store 0x100 with | .ok pa => !inPort pa | .error _ => false) = true := by decide +kernel

/-- One rank more than the stage has contexts. -/
def overRanked : Machine.Queued := { oneStage with packet := oneStage.packet ||| (2#11264 <<< 288) }

/-- A head at the front of queue 3, its groups free or all taken, and the state once it is drawn. -/
def offering (h : Machine.Queued) (taken : Bool) : State :=
  { tabled with
    parts := [(0, { tabled.part 0 with armed := true, queues := [(3, [h])] })],
    launches := if taken then [(0, launch0 allocBig 0)] else [] }

/-- That state. -/
def afterDraw (s : State) : State :=
  let q := s.part 0
  let x1 := q.lottery ^^^ (q.lottery <<< 13)
  let x2 := x1 ^^^ (x1 >>> 7)
  s.setPart 0 { q with lottery := x2 ^^^ (x2 <<< 17), armed := false, freed := false, lastDraw := some s.refCount }

/-- Whether checks pass. -/
def checksPass (r : Except Rej Unit) : Bool :=
  match r with
  | .ok _ => true
  | .error _ => false

/-- A drawn head whose stage finds no free group, and one whose last checks fail. -/
theorem met_LaunchEvents_waits :
    let a := offering oneStage true
    let b := offering overRanked false
    (a.mayDraw 0 = true ∧ (a.part 0).rmode = 0 ∧ (a.part 0).recNext = none ∧
      (a.part 0).select (afterDraw a |>.part 0).lottery = some (3, false) ∧ lookup [] 3 (a.part 0).queues = [oneStage] ∧
      checksPass ((afterDraw a).firstChecks 0 oneStage.packet) = true ∧ ((afterDraw a).allotFor (oneStage.launch 0)).isNone = true) ∧
    b.mayDraw 0 = true ∧ (b.part 0).recNext = none ∧ lookup [] 3 (b.part 0).queues = [overRanked] ∧
    checksPass ((afterDraw b).firstChecks 0 overRanked.packet) = true ∧
    (match (afterDraw b).allotFor (overRanked.launch 0) with
      | some (v, alloc) => failsFor (v.lastChecks { overRanked.launch 0 with stages := freshStages overRanked.packet alloc }) 6
      | none => false) = true := by decide +kernel

/-- Two pool stages of big cores with floor 0 and ceiling 1; the first holds the big core of hive 0:0:0. -/
def twoStages : Launch :=
  { launch0 allocBig 0 with
    packet := BitVec.ofNat 11264 (2 ^ 8 + (2 ^ 1024 + 2 ^ 2048) * (2 ^ 127 + 2 ^ 126 + 2 ^ 123 + 2 ^ 85 + 2 ^ 168 + 2 ^ 166 + 2 ^ 128))
    stages := [{ alloc := allocBig, units := [], work := 0, running := [], done := false },
               { alloc := [], units := [], work := 0, running := [], done := false }]
    moves := [(0, 0, 1)] }

/-- Its launch resident. -/
def migrating : State := { runs (little id) twoStages with refCount := 16384 }

theorem met_LaunchEvents_sample :
    migrating.launch? 0 = some twoStages ∧ twoStages.sampled + 16384 ≤ migrating.refCount := by decide +kernel

theorem met_LaunchEvents_move :
    (0, 0, 1) ∈ twoStages.moves ∧ (∀ m ∈ twoStages.moves, m.1 = 0 → m = (0, 0, 1)) ∧ twoStages.mayMove 0 1 = true ∧
    migrating.movableUnits twoStages 0 1 = [allocBig] :=
  ⟨by decide, by decide, by decide +kernel, by decide +kernel⟩

/-- The pool stage is over; the other stage, no pool, is done or not. -/
def finished (done : Bool) : Launch :=
  { launch0 alloc0 0 with stages := [{ alloc := allocBig, units := [], work := 0, running := [], done := false },
                                     { alloc := [], units := [], work := 0, running := [], done := done }] }

theorem met_LaunchEvents_complete (b : Bool) :
    (∀ g, (finished b).stages[0]? = some g → g.done = false ∧ g.running = [] ∧ g.work = 0) ∧
    (∀ h, h ≠ 0 → (finished b).runs h = false) ∧ ((finished b).stages[1]?.map (·.done)) = some b := by
  refine ⟨fun g h => ?_, fun h hn => ?_, rfl⟩
  · cases h
    exact ⟨rfl, rfl, rfl⟩
  · cases h with
    | zero => exact absurd rfl hn
    | succ n =>
      cases n with
      | zero =>
        have p : (finished b).pool 1 = false := by cases b <;> decide +kernel
        simp [Launch.runs, p]
      | succ n => simp [Launch.runs, finished]

/-! ## Pre-emption, shootdowns and fencing -/

/-- Core 0:0:0 of partition 0, its core record as `f` leaves it. -/
def owned (f : Core → Core) : State :=
  let s := (mapped id).setCore core0.core (f ((mapped id).core core0.core))
  { s with refCount := 1000000 }

theorem met_PreemptionEvents_halt :
    let a := owned fun k => { k with requested := true, status := .running }
    let b := owned fun k => { k with status := .halting }
    (a.core core0.core).requested = true ∧ (a.core core0.core).status = .running ∧ (a.core core0.core).parkedSince = none ∧
    (a.core core0.core).transfer = none ∧ (b.core core0.core).status = .halting ∧ (b.core core0.core).transfer = none ∧
    (b.core core0.core).forcedPark = false ∧ b.timedNow core0.core = false := by decide +kernel

theorem met_PreemptionEvents_save :
    let s := owned fun k => { k with status := .halted, saveWanted := true }
    s.owner core0.core = some 0 ∧ (s.core core0.core).saveWanted = true ∧ (s.core core0.core).status = .halted ∧
    s.quiescent core0.core = true := by decide +kernel

/-- A saved core's image in memory, zeros with their check word. -/
def saved : State :=
  let s := owned fun k => { k with status := .saved }
  s.write (s.imageAddr 0 core0.core + 49148) 4 (crc32c (s.readBytes (s.imageAddr 0 core0.core) 49148)).toNat

theorem readBytes_write {s : State} (h : Memory.wf s = true) (b n v : Nat) :
    ∀ m x, x + m ≤ b → (s.write b n v).readBytes x m = s.readBytes x m := by
  intro m
  induction m with
  | zero => intros; rfl
  | succ m ih =>
    intro x hx
    simp only [State.readBytes]
    rw [State.byte_write h, if_neg (by omega), ih (x + 1) (by omega)]

/-- Storing the check word makes the image good. -/
theorem imageGood_write {s : State} (h : Memory.wf s = true) {p : Nat} {k : CoreId}
    (hr : s.inRange p (s.imageAddr p k) imageBytes = true) :
    (s.write (s.imageAddr p k + 49148) 4 (crc32c (s.readBytes (s.imageAddr p k) 49148)).toNat).imageGood p k = true := by
  have hi : ∀ a n v, (s.write a n v).imageAddr p k = s.imageAddr p k := fun _ _ _ => rfl
  have hq : ∀ a n v x m, (s.write a n v).inRange p x m = s.inRange p x m := fun _ _ _ _ _ => rfl
  simp only [State.imageGood, hi, hq, hr, Bool.true_and]
  rw [State.read_write_self h, readBytes_write h _ _ _ _ _ (Nat.le_refl _)]
  generalize crc32c (s.readBytes (s.imageAddr p k) 49148) = c
  have := c.isLt
  simp only [beq_iff_eq]
  exact Nat.mod_eq_of_lt (by omega)

theorem met_PreemptionEvents_move :
    saved.owner core0.core = some 0 ∧ (saved.core core0.core).status = .saved ∧ saved.canTake core0.core core1 = true ∧
    saved.copiesDone core0.core = true ∧ saved.slotsClash core0.core core1 = false ∧ saved.imageGood 0 core0.core = true ∧
    (saved.core core0.core).deque = [] :=
  ⟨by decide +kernel, by decide +kernel, by decide +kernel, by decide +kernel, by decide +kernel,
    imageGood_write (by decide +kernel) (by decide +kernel), by decide +kernel⟩

/-- A request for a page nobody uses. -/
def request1 : Shootdown := { va := 0x8000, npg := 1, all := false, by_ := core0, bad := false }

/-- A context of partition 0 stores a pair to the shootdown port, which its TLB maps at 0x4000. -/
def asking : State :=
  let s := mapped fun m => m.setS 2 0x4000
  let s := s.setCore core0.core { s.core core0.core with
    tlb := [{ page := 0x4000, log := 14, pte := BitVec.ofNat 64 (2 ^ 63 + 2 ^ 10 + 2 ^ 9 + 2 ^ 52) }] }
  held { s with parts := [(0, { Partition.reset with live := true, sdport := 2 ^ 52, requests := [request1] })] } (.stp (mBase 4)) none

theorem met_PreemptionEvents_shootdown :
    (asking.part 0).requests = request1 :: [] ∧ request1.bad = false ∧ asking.usesRange 0 request1 = false ∧
    asking.portWriters 0 = [core0] ∧ (mBase 4).form.active (asking.ctx core0) = true ∧ asking.owner core0.core = some 0 ∧
    (asking.part 0).sdport = 2 ^ 52 ∧ inPort (2 ^ 52) = true ∧ (addrM (mBase 4) 16 (asking.ctx core0)).toNat % 16 = 0 ∧
    (asking.part 0).requests.length < 16 := by decide +kernel

theorem met_PreemptionEvents_shootdown_waits :
    Waits asking core0 (.stp (mBase 4)) ∧ asking.resolve core0.core (asking.ctx core0).sup .store
      (addrM (mBase 4) 16 (asking.ctx core0)).toNat = .ok (2 ^ 52) :=
  ⟨⟨by decide +kernel, by decide +kernel, _, rfl, rfl⟩, resolves (s := asking) (by decide +kernel)⟩

theorem met_PreemptionEvents_heartbeat :
    let s := owned fun k => { k with status := .running, hbMissed := true }
    (s.core core0.core).status = .running ∧ (s.core core0.core).hbMissed = true ∧ core0.core.big = false := by decide +kernel

/-- A fenced core of the pool stage, with a pending register or not, and row 1 of its hive free. -/
def fencing (pending : BitVec 32) : State :=
  let s := owned fun k => { k with
    status := .fenced, fencing := true, holdSince := some 0, job := some { launch := 0, stage := 0 } }
  let t := { s with launches := [(0, { launch0 alloc0 0 with part := 0 })], nextLaunch := 1, parts := [(0, { Partition.reset with live := true })] }
  t.setMe { t.me with pendS := pending }

/-- A core of that row. -/
def core8 : CoreId := littleCore (coreHive core0.core) 8

theorem met_PreemptionEvents_fence :
    ((fencing 2).core core0.core).job = some { launch := 0, stage := 0 } ∧ (fencing 2).launch? 0 = some (launch0 alloc0 0) ∧
    ((fencing 2).core core0.core).holdSince = some 0 ∧ ((fencing 2).core core0.core).fencing = true ∧
    (fencing 2).quiescent core0.core = false ∧ 0 + 1000000 ≤ (fencing 2).refCount ∧ (fencing 0).owner core0.core = some 0 ∧
    (fencing 0).quiescent core0.core = true ∧ (fencing 0).copiesDone core0.core = true ∧ core0.core.big = core8.big ∧
    core0.core ≠ core8 ∧ (fencing 0).slotsClash core0.core core8 = false ∧
    (fencing 0).rescueUnit 0 (launch0 alloc0 0) 0 core8 =
      some [{ big := false, hive := { die := 0, row := 0, col := 0 }, row := 1 }] := by decide +kernel

theorem met_PreemptionEvents_image :
    let s := owned fun k => { k with status := .halted, saveWanted := true }
    coreValid core0.core = true ∧ s.supervised 0 = false ∧
    (let t := { s with parts := [(0, { s.part 0 with imgbase := [] })] }; t.inRange 0 (t.imageAddr 0 core0.core) 49152 = true) ∧
    (∀ b ∈ s.badRegs, b.1.core ≠ core0.core) ∧ (s.core core0.core).job = none ∧
    (∀ i ∈ (s.core core0.core).live, (s.core core0.core).ctxs[i].ras.length ≤ 16 ∧ (s.core core0.core).ctxs[i].batches.length ≤ 16 ∧
      (s.core core0.core).ctxs[i].mailbox.length ≤ 4 ∧ (s.core core0.core).ctxs[i].groups.length ≤ 4 ∧
      (s.core core0.core).ctxs[i].pendingTrap = none) := by decide +kernel

/-- The saved core's image with context 0 live in it. -/
def savedLive : State :=
  let s := owned fun k => { k with status := .saved }
  let s := s.write (s.imageAddr 0 core0.core + 0x988) 8 0x800
  s.write (s.imageAddr 0 core0.core + 49148) 4 (crc32c (s.readBytes (s.imageAddr 0 core0.core) 49148)).toNat

theorem met_PreemptionEvents_moved :
    savedLive.imageGood 0 core0.core = true ∧
    (let s := (owned fun k => { k with status := .saved }).write (savedLive.imageAddr 0 core0.core + 0x988) 8 0x800
     bits (s.read (savedLive.imageAddr 0 core0.core + 0x988) 8) 11 11 = 1) ∧
    (savedLive.core core0.core).transfer = none ∧
    (∀ n : Fin 4, (savedLive.core core0.core).bgs[n].state = 0 ∧ (savedLive.core core0.core).bgs[n].broken = false) ∧
    (savedLive.core core1).requested = false ∧ (savedLive.core core0.core).forcedPark = false ∧ (savedLive.core core0.core).live ≠ [] ∧
    coreValid core1 = true :=
  ⟨imageGood_write (by decide +kernel) (by decide +kernel), by decide +kernel, by decide +kernel, by decide +kernel, by decide +kernel,
    by decide +kernel, by decide +kernel, by decide⟩

theorem met_PreemptionEvents_noStart :
    (owned fun k => { k with status := .halting }).startsNow core0.core = false ∧
    core0.core ∉ coresOf [{ big := false, hive := { die := 0, row := 0, col := 0 }, row := 1 }] ∧
    core8.big = core0.core.big := by decide +kernel

/-! ## Power, errors and what comes from outside -/

/-- The low bits of a concatenation. -/
theorem bits_append (t : BitVec 128) (b : BitVec 192) (hi lo : Nat) (h : hi < 192) : bits (t ++ b).toNat hi lo = bits b.toNat hi lo := by
  have hb := b.isLt
  have hn : (t ++ b).toNat = t.toNat * 2 ^ 192 + b.toNat := by
    rw [BitVec.toNat_append, ← Nat.shiftLeft_add_eq_or_of_lt hb, Nat.shiftLeft_eq]
  apply Nat.eq_of_testBit_eq
  intro i
  simp only [bits, Nat.testBit_mod_two_pow, Nat.testBit_div_two_pow, hn, Nat.mul_comm t.toNat]
  by_cases hi' : i < hi + 1 - lo
  · rw [Nat.testBit_two_pow_mul_add _ hb, if_pos (by omega)]
  · simp [hi']

theorem append_high {m n : Nat} (t : BitVec m) (b : BitVec n) : (t ++ b).extractLsb' n m = t := by
  ext i hi
  simp [BitVec.getElem_extractLsb', BitVec.getLsbD_append, hi]

theorem append_low {m n : Nat} (t : BitVec m) (b : BitVec n) : (t ++ b).extractLsb' 0 n = b := by
  ext i hi
  simp [BitVec.getElem_extractLsb', BitVec.getLsbD_append, hi]

/-- A frame's body: version 1, type 1, sequence number 5. -/
def frameBody : BitVec 192 := 0x05000000000101#192

/-- Power state with a shelf key and a sequence number. -/
def keyed (key : BitVec 256) : Power := { Power.reset with shelfKey := some key, seq := some 4 }

/-- A frame with the key's tag is valid. -/
theorem met_PowerEvents_frame (key : BitVec 256) : (keyed key).frameValid (hmacTag key frameBody ++ frameBody) = true := by
  have hw : seqFollows (keyed key).seq (frameWord (hmacTag key frameBody ++ frameBody) 4) = true := by
    simp only [frameWord, frameByte]
    rw [bits_append, bits_append, bits_append, bits_append]
    · simp only [keyed]
      decide +kernel
    all_goals decide
  have h0 : frameByte (hmacTag key frameBody ++ frameBody) 0 = 1 := by
    rw [frameByte, bits_append _ _ _ _ (by decide)]
    decide +kernel
  have h1 : frameByte (hmacTag key frameBody ++ frameBody) 1 = 1 := by
    rw [frameByte, bits_append _ _ _ _ (by decide)]
    decide +kernel
  have h2 : bits (hmacTag key frameBody ++ frameBody).toNat 31 16 = 0 := by
    rw [bits_append _ _ _ _ (by decide)]
    decide +kernel
  have h3 : bits (hmacTag key frameBody ++ frameBody).toNat 191 128 = 0 := by
    rw [bits_append _ _ _ _ (by decide)]
    decide +kernel
  have ht : (hmacTag key frameBody ++ frameBody).extractLsb' 192 128 = hmacTag key frameBody := by
    exact append_high _ _
  have hb : (hmacTag key frameBody ++ frameBody).extractLsb' 0 192 = frameBody := by
    exact append_low _ _
  simp only [Power.frameValid, h0, h1, h2, h3, hw, ht, hb]
  simp [keyed]

theorem met_PowerEvents_module :
    let w : Power := { Power.reset with active := 7, target := 8 }
    let s := { owned id with refCount := 4000000000, power := w }
    s.replaying = false ∧ w.loss = false ∧ w.lastValid + bits w.time.toNat 63 32 ≤ s.refCount ∧ w.active < w.target ∧
    w.changed + 2000000 ≤ s.refCount ∧ (keyed 0).frameValid 0 = false := by decide +kernel

/-- A class that is shed: no class is active. -/
def dark (s : State) : State := { s with power := { s.power with active := 0 }, refCount := 4000000000 }

theorem met_PowerEvents_shed :
    let s := dark (owned fun k => { k with holdSince := some 0, status := .running })
    (s.core core0.core).holdSince = some 0 ∧ (s.core core0.core).status = .running ∧ (s.core core0.core).parkedSince = none ∧
    (s.core core0.core).transfer = none ∧ (∃ i ∈ (s.core core0.core).live, s.shed (s.core core0.core).ctxs[i] = true) ∧
    0 + bits s.power.time.toNat 31 0 ≤ s.refCount ∧ coreValid core0.core = true ∧
    (∀ m ∈ (groupOf core0.core).cores, (s.core m).status ≠ .halted) :=
  ⟨by decide +kernel, by decide +kernel, by decide +kernel, by decide +kernel, ⟨0, by decide +kernel, by decide +kernel⟩,
    by decide +kernel, by decide, by decide +kernel⟩

theorem met_PowerEvents_off (b : Bool) :
    let s := dark (owned fun k => { k with parkedSince := some 0, status := if b then .saved else .running })
    (s.core core0.core).parkedSince = some 0 ∧ s.owner core0.core = some 0 ∧ 0 + 2000000 ≤ s.refCount ∧
    s.quiescent core0.core = true ∧ core0.core.big = false ∧ (s.core core0.core).deque = [] ∧
    ((s.core core0.core).status = .saved ∨ (s.core core0.core).status = .running) := by
  cases b <;> decide +kernel

/-- A core switched off, its image in memory. -/
def switched : State :=
  let s := owned fun k => { k with status := .off, parkedSince := some 0 }
  s.write (s.imageAddr 0 core0.core + 49148) 4 (crc32c (s.readBytes (s.imageAddr 0 core0.core) 49148)).toNat

theorem met_PowerEvents_on :
    switched.waitsOn core0.core (switched.core core0.core) = true ∧ switched.owner core0.core = some 0 ∧
    ((switched.die 0).switchOns.filter fun t => decide (switched.refCount < t + 1000)).length < 96 ∧
    (∀ e ∈ switched.cores, e.1.die = 0 → placeKey e.1 < placeKey core0.core → switched.waitsOn e.1 e.2 = false) ∧
    switched.imageGood 0 core0.core = true :=
  ⟨by decide +kernel, by decide +kernel, by decide +kernel, by decide +kernel, imageGood_write (by decide +kernel) (by decide +kernel)⟩

/-- The voltage segment of core 0:0:0. -/
def seg0 : SegId := { die := 0, row := 0, seg := 0 }

/-- Its droop detector on, over a core in a transfer phase or not. -/
def drooping (t : Bool) : State :=
  let s := owned fun k => { k with
    status := .running, droop := some 0, cycles := 71, windowTicks := 16000, transfer := if t then some (Transfer.begin 0 0 0) else none }
  s.setDie 0 { s.die 0 with segments := [((0, 0), { ddctl := 0x8000000000000000, level := 80, wakes := [], tripDue := false })] }

theorem met_PowerEvents_segments :
    core0.core.big = false ∧ ((drooping false).core core0.core).status = .running ∧
    ((drooping false).core core0.core).transfer = none ∧
    16000 ≤ ((drooping false).core core0.core).windowTicks ∧
    ((drooping false).segment seg0).ddctl.getLsbD 63 = true ∧
    (∀ m ∈ segCores seg0, ((drooping false).core m).transfer = none) ∧ core0.core ∈ segCores seg0 ∧
    ((drooping true).core core0.core).transfer ≠ none ∧ ((drooping false).core core0.core).droop = some 0 ∧
    0 + 71 ≤ ((drooping false).core core0.core).cycles := by decide +kernel

theorem met_PowerEvents_written :
    let w : Power := { Power.reset with next := some { Power.reset.written with cfg := 2 ^ 63 } }
    w.written.cfg.getLsbD 63 = true ∧ w.cfg.getLsbD 63 = false ∧ (0x88B5 : Nat) ≠ 0x88B6 := by decide +kernel

/-- A segment one core of which waits for its lower level. -/
theorem met_PowerEvents_falls :
    let s := owned fun k => { k with status := .running, divider := 1, dividerNext := some 2 }
    core0.core ∈ segCores seg0 ∧ (s.core core0.core).dividerNext = some 2 ∧
    (match execSegmentVoltageReached seg0 s with | .next t => (t.core core0.core).divider == 2 | _ => false) = true := by decide +kernel

/-! ### Errors -/

/-- A launch of partition 0 that waits on its replay. -/
def replaying : State :=
  let s := fencing 0
  let t := s.setMe { s.me with blocked := some { instr := .recv (xBase 0), deadline := none, issued := 0, phase := 2 } }
  t.setPart 0 { t.part 0 with rmode := 2, lastApplied := 0, replayTo := 1000000 }

theorem met_ErrorsAndReset :
    0 < 2 ^ 6 ∧ 2 ^ 49 - 1 < 2 ^ 49 ∧ (tabled.part 0).live = true ∧ coreValid core0.core = true ∧ Dest.s 1 ≠ .s 0 ∧ Dest.v 0 ≠ .s 0 ∧
    replaying.launch? 0 = some (launch0 alloc0 0) ∧ (replaying.part (launch0 alloc0 0).part).rmode = 2 ∧
    replaying.waitsOnReplay (launch0 alloc0 0).part = true ∧
    (replaying.part (launch0 alloc0 0).part).lastApplied + (replaying.part (launch0 alloc0 0).part).replayTo ≤ replaying.refCount := by
  decide +kernel

/-- Physical places with nothing remapped, and a staged copy. -/
theorem met_ErrorsAndReset_places :
    State.reset.logicPlace (8 * 2 ^ 60 + 5 * 256) = some (8 * 2 ^ 60 + 5 * 256) ∧
    State.reset.logicPlace (10 * 2 ^ 60 + 5 * 256) = some (10 * 2 ^ 60 + 5 * 256) ∧
    State.reset.logicPlace (5 * 256) = some (5 * 256) ∧ State.reset.logicCore core0.core = some core0.core ∧
    ({ Firmware.reset with staged := true }).staged = true ∧
    (let t := replaying.write ((replaying.part 0).rbase) 32 (2 ^ 56)
     let u := t.setPart 0 { t.part 0 with rsize := 64 }
     u.nextEntry 0 isApplied = some (0, 2 ^ 56) ∧ u.waitsOnReplay 0 = true ∧ u.fw.heldEvents = [] ∧ u.fw.room = true) := by decide +kernel

/-! ### Outside accesses -/

/-- Function 5 bound to partition 0, which replays a record whose first entry is a packet arrival. -/
def visited : State :=
  let s := { tabled with fw := { tabled.fw with vf := [(5, 0)] } }
  (s.setPart 0 { s.part 0 with rmode := 2, rbase := 0x10000, rsize := 64 }).write 0x10000 32 (2 ^ 56)

/-- The same partition, whose record begins with an active class count. -/
def changing : State := visited.write 0x10000 32 (11 * 2 ^ 56)

theorem met_OutsideAccesses :
    (little id).fw.heldEvents = [] ∧ (∀ e ∈ visited.fw.vf, e.1 ≠ 6) ∧ (visited.fw.vf.find? fun e => e.1 == 5) = some (5, 0) ∧
    visited.inRange 0 0x4000 2 = true ∧ populated 0x4000 2 = true ∧ Memory.wf visited = true ∧ core0.core.big = false ∧
    (2 ^ 19 - 2) + 2 ≤ 2 ^ 19 ∧ (visited.part 0).rmode = 2 ∧
    visited.nextEntry 0 (fun e => recType e == 11) = none ∧ visited.nextEntry 0 (fun e => recType e == 1) = some (0, 2 ^ 56) ∧
    changing.nextEntry 0 (fun e => recType e == 11) = some (0, 11 * 2 ^ 56) ∧ bits (11 * 2 ^ 56) 255 192 ≤ changing.now ∧
    (changing.part 0).rmode = 2 ∧ ((little id).core core0.core).status ≠ .fenced ∧
    (lookup [] (bits (visited.recordedPacket 0 0).toNat 23 18) (visited.part 0).queues).length < 256 ∧
    (little id).me.tinh = false := by decide +kernel

theorem met_OutsideAccesses_sound : Sound visited 0x4000 2 := fun _ h => by cases h

/-- A line the directory is busy with, and a faulty byte. -/
theorem met_OutsideAccesses_lines :
    (let s := visited.setEntry 0 128 { DirEntry.reset with state := .busy }
     128 ∈ linesOf 0x4000 2 ∧ homeDie (128 * 128) = 0 ∧ (s.entry (homeDie (128 * 128)) 128).state = .busy ∧
       s.inRange 0 0x4000 2 = true ∧ (s.fw.vf.find? fun e => e.1 == 5) = some (5, 0)) ∧
    (∀ l ∈ linesOf 0x4000 2, (visited.entry (homeDie (128 * l)) l).state ≠ .busy) ∧
    ({ visited with poisoned := [0x4001] }.poison 0x4000 2).isSome = true := by decide +kernel

theorem met_OutsideAccesses_unsound : ¬ Sound { visited with poisoned := [0x4001] } 0x4000 2 :=
  fun h => by exact absurd (h 0x4001 (by decide)) (by decide)

/-! ## Commands and sessions -/

/-- A command for partition 0. -/
def cmd : Cmd := { tag := 0x1234, part := 0, reserved := false }

/-- A state with one command waiting. -/
def commanded (s : State) : State := { s with fw := { s.fw with mbcp := 1 } }

theorem met_Commands_ready : Ready (commanded State.reset) cmd ∧ Ready (commanded tabled) cmd := by
  refine ⟨⟨?_, ?_, ?_⟩, ⟨?_, ?_, ?_⟩⟩ <;> decide +kernel

/-- Operands of PART_CREATE at the ends of their ranges. -/
def create0 (nql : Nat) : PartArgs :=
  { ptroot := 2 ^ 57 - 8192, nqbase := 2 ^ 57 - 128, nql := nql, sdport := 2 ^ 52, fpol := true, pdump := 2 ^ 57 - 1 }

theorem met_PartitionCommands :
    (State.reset.part 0).live = false ∧ (create0 4).ptroot % 8192 = 0 ∧ (create0 4).ptroot < 2 ^ 57 ∧ (create0 4).nqbase % 128 = 0 ∧
    (create0 4).nqbase < 2 ^ 57 ∧ 4 ≤ (create0 4).nql ∧ (create0 12).nql ≤ 12 ∧ (create0 4).sdport % 128 = 0 ∧
    2 ^ 52 ≤ (create0 4).sdport ∧ (create0 4).sdport < 2 ^ 57 ∧ (create0 4).pdump < 2 ^ 57 ∧ (tabled.part 0).live = true ∧
    (tabled.part 0).outOfUse = false ∧ tabled.hiveAbsent (hiveOf 35 575) = false ∧ (tabled.hive (hiveOf 35 575)).owner = none ∧
    (tabled.hive (hiveOf 0 0)).owner = some 0 ∧ (∀ k ∈ hiveCores (hiveOf 0 0), (tabled.core k).job = none) ∧
    Memory.wf tabled = true ∧ (∀ e ∈ tabled.fw.vf, e.1 = 64 → e.2 = 0) := by decide +kernel

/-- A partition that owns nothing, and a loaded key slot of it. -/
def bare (slot : Nat) : State :=
  let s := { State.reset with parts := [(0, { Partition.reset with live := true })] }
  s.setDie 35 { s.die 35 with sliceOwner := [(0, 0)], keys := [(slot, { state := .loaded, part := some 0, keyid := 7, key := 9 })] }

/-- A range of the last die's near memory with key slot 63. -/
def range35 : BitVec 128 :=
  BitVec.ofNat 128 (2 ^ 127 + (35 * 2 ^ 15 + 1) * 2 ^ 85 + 63 * 2 ^ 58 + 35 * 2 ^ 15 * 2 ^ 21)

theorem met_PartitionCommands_keys :
    ({ bare 63 with dies := [] }).ownsSome 0 = false ∧ (({ bare 63 with dies := [] }).part 0).live = true ∧
    bits range35.toNat 84 64 = 0 ∧ bits range35.toNat 57 57 = 0 ∧ bits range35.toNat 20 0 = 0 ∧
    (bare 63).breaksRange 0 35 15 range35 = false ∧ (keySlot (bare 63) 35 63).part = some 0 ∧
    (keySlot State.reset 35 63).state = .empty ∧
    (∀ r ∈ ((bare 63).die 35).krange, bits r.2.toNat 127 127 = 1 → bits r.2.toNat 126 121 = 0 → bits r.2.toNat 63 58 ≠ 63) := by
  decide +kernel

theorem met_PartitionCommands_changing :
    let s := commanded tabled
    s.ownsSome 0 = true ∧ (s.part 0).live = true ∧ s.fw.changing = none ∧
    (match exec (.partRelease cmd 0 .hive [0]) s with | .next t => t.fw.changing == some cmd | _ => false) = true := by decide +kernel

/-- Core 0:0:0 of partition 0, halted, and a launch of the partition. -/
def managed : State :=
  { fencing 0 with cores := ((fencing 0).setCore core0.core
      { (fencing 0).core core0.core with status := .halted, fencing := false }).cores }

theorem met_ManagementCommands :
    managed.owner core0.core = some 0 ∧
    (managed.launches.find? fun e => e.2.part == 0 && e.2.hdr 63 32 == bits (launch0 alloc0 0).packet.toNat 63 32) =
      some (0, launch0 alloc0 0) ∧
    (managed.core core0.core).status = .halted ∧ (managed.core core0.core).transfer = none ∧
    (∀ i ∈ (managed.core core0.core).live, managed.shed (managed.core core0.core).ctxs[i] = false) ∧
    bits (480000#64).toNat 31 0 ≤ 480000 ∧ bits (0xFFFE00#64).toNat 15 8 < bits (0xFFFF00#64).toNat 23 16 ∧
    (∀ i : Fin 8, bits ((Vector.replicate 8 0xF000FFFFFFFFFFFF#64)[i]).toNat 59 48 = 0) ∧ (managed.part 0).live = true ∧
    (2#2) ≠ 3 ∧ 2 ^ 57 - 1 < 2 ^ 57 ∧ 2 ^ 32 - 1 < 2 ^ 32 := by decide +kernel

/-- Hive 0 of die 0 already stands at the last physical place, so place 0 is spare. -/
def remapped : State :=
  (mapped id).setDie 0 { (mapped id).die 0 with hremap := [(0, { valid := true, abs := false, phys := 599 })] }

theorem met_ManagementCommands_repair :
    let h := hiveOf 0 1
    (∃ n rest, (remapped.die h.die).spareHives = n :: rest) ∧
    (∀ k ∈ hiveCores h, (remapped.core k).live = [] ∧ (remapped.core k).busy = false ∧ (remapped.core k).status ≠ .fenced) ∧
    remapped.repairReady (hiveCores h) = true ∧ remapped.hiveFaulty h = none ∧
    (let s := { remapped with poisoned := [localAddr (littleCore h 31) (2 ^ 19 - 1)] }
     s.repairReady (hiveCores h) = true ∧ s.hiveFaulty h = some (localAddr (littleCore h 31) (2 ^ 19 - 1)) ∧ Memory.wf s = true) ∧
    (let s := remapped.setCtx { core := littleCore h 0, num := 10 } { Context.reset with pendS := 1 }
     s.repairReady (hiveCores h) = false) := by
  have h : ((remapped.die (hiveOf 0 1).die).spareHives).head? = some 0 := by decide +kernel
  obtain ⟨rest, hr⟩ := List.head?_eq_some_iff.mp h
  exact ⟨⟨_, rest, hr⟩, by decide +kernel, by decide +kernel, by decide +kernel, by decide +kernel, by decide +kernel⟩

theorem met_ManagementCommands_fence :
    let s := owned fun k => { k with status := .fenced }
    (s.core core0.core).status = .fenced ∧ (s.core core0.core).fencing = false := by decide +kernel

theorem met_ManagementCommands_dies : 36 ≤ ({ core0.core with die := 36 } : CoreId).die ∧ 36 ≤ (hiveOf 63 575).die := by decide

/-- Dumps of the module and of partition 0. -/
def dump (p : Option Nat) : Dump := { part := p, cause := 1, time := 0, dies := 1, bytes := [1, 2] }

theorem met_ManagementCommands_dumps :
    let s := { State.reset with fw := { Firmware.reset with mbcp := 1, dumps := [dump none, dump (some 0)] } }
    (s.fw.dumps.find? fun e => e.part == none) = some (dump none) ∧
    (s.fw.dumps.find? fun e => e.part == some 0) = some (dump (some 0)) ∧ Ready s cmd := by
  refine ⟨by decide +kernel, by decide +kernel, ?_, ?_, ?_⟩ <;> decide +kernel

/-- A session, and the key transfer it has opened. -/
def session0 (finished : Bool) (o : Option KeyOpen) : Session := { transcript := 1, finished := finished, updates := 0, opened := o }

/-- A transfer for slot 63 of die 35. -/
def open0 : KeyOpen :=
  { KeyOpen.mk 0 [35] 63 7 9 [] [] with cipher := [] }

/-- Session 0 in a state with partition 0 live. -/
def talking (x : Session) : State :=
  { State.reset with
    fw := { Firmware.reset with sessions := [(0, x)], nextSession := 1 }, parts := [(0, { Partition.reset with live := true })] }

theorem met_SpdmRequests (x : Session) : (talking x).session? 0 = some x ∧ (talking x).session? 1 = none := ⟨rfl, rfl⟩

theorem met_SpdmRequests_clauses :
    (session0 false none).finished = false ∧ (session0 true (some open0)).finished = true ∧
    (session0 true (some open0)).opened = some open0 ∧ open0.dies = [35] ∧ (List.replicate 1568 (0 : Byte)).length = 1568 ∧
    (List.replicate 72 (0 : Byte)).length = 72 ∧ keySlot (talking (session0 true (some open0))) 35 open0.slot = KeySlot.reset ∧
    ((talking (session0 true none)).part 0).live = true ∧ 63 < 64 := by decide +kernel

/-! ## Steps, decoding and memory -/

/-- Whether a word can be fetched and is w. -/
def holdsB (s : State) (va : Word) (w : IWord) : Bool :=
  match s.translate .fetch va with
  | .ok a => !s.codePoison s.cur.core a && decide (∀ j : Fin 4, s.codeByte s.cur.core (a + j.val) = w.extractLsb' (8 * j.val) 8)
  | .error _ => false

theorem holds_of {s : State} {va : Word} {w : IWord} (h : holdsB s va w = true) : HoldsWord s va w := by
  unfold holdsB at h
  cases hr : s.translate .fetch va with
  | error e => rw [hr] at h; cases h
  | ok a =>
    rw [hr] at h
    simp only [Bool.and_eq_true, Bool.not_eq_true', decide_eq_true_eq] at h
    exact ⟨a, hr, h.1, h.2⟩

theorem holdsWords_of {s : State} {ws : List IWord}
    (h : (decide (ws ≠ []) && ws.length == lenWords ((ws.headD 0).extractLsb' 0 2) &&
      (List.range ws.length).all fun j => holdsB s (s.me.pc + BitVec.ofNat 64 (4 * j)) (ws.getD j 0)) = true) : HoldsWords s ws := by
  simp only [Bool.and_eq_true, decide_eq_true_eq, beq_iff_eq, List.all_eq_true, List.mem_range] at h
  exact ⟨h.1.1, h.1.2, fun j hj => holds_of (h.2 j hj)⟩

/-- Core 0:0:0 about to issue the instruction with word w, its low n bits given, and the state it acts in. -/
def about (n w : Nat) : State := State.reset.withFetchWord n w

/-- That state. -/
def acts (n w : Nat) : State := { about n w with agenda := [], cur := core0 }

theorem met_StepRunsDecoded_issues (w : Nat) : Issues (about 32 w) core0 (acts 32 w) := by
  refine ⟨[], rfl, rfl, by decide, ?_, rfl⟩
  rfl

/-- The load of 02's worked encodings. -/
theorem met_StepRunsDecoded :
    HoldsWords (acts 32 0x10084528) [0x10084528#32] ∧
    decode [0x10084528#32] = .ok (.ld { off := 4, scope := 0, ord := 0, sz := 2, a := 2, d := 5, form := .base }) ∧
    hazard (acts 32 0x10084528).me (.ld { off := 4, scope := 0, ord := 0, sz := 2, a := 2, d := 5, form := .base }) = false ∧
    (acts 32 0x10084528).hasSlot (.ld { off := 4, scope := 0, ord := 0, sz := 2, a := 2, d := 5, form := .base }) = true ∧
    (acts 32 0x10084528).linesBusy (.ld { off := 4, scope := 0, ord := 0, sz := 2, a := 2, d := 5, form := .base }) = false ∧
    (acts 32 0x10084528).badRead (.ld { off := 4, scope := 0, ord := 0, sz := 2, a := 2, d := 5, form := .base }) = none ∧
    (acts 32 0x10084528).me.blocked = none :=
  ⟨holdsWords_of (by decide +kernel), rfl, by decide +kernel, by decide +kernel, by decide +kernel, by decide +kernel, rfl⟩

/-- Words that decode to nothing: of one word, and of three. -/
theorem met_StepRunsDecoded_illegal :
    HoldsWords (acts 32 0) [0#32] ∧ (∃ e, decode [0#32] = .error e) ∧
    HoldsWords (acts 32 0x10084529) [0x10084529#32, 0#32, 0#32] ∧ (∃ e, decode [0x10084529#32, 0#32, 0#32] = .error e) :=
  ⟨holdsWords_of (by decide +kernel), ⟨_, rfl⟩, holdsWords_of (by decide +kernel), ⟨_, rfl⟩⟩

/-- A context blocked in RECV. -/
theorem met_StepRunsDecoded_blocked :
    let u := held (little id) (.recv (xBase 0)) none
    Issues { u with agenda := [.issue core0] } core0 { u with agenda := [] } ∧
    u.me.blocked = some { instr := .recv (xBase 0), deadline := none, issued := 0, phase := 0 } ∧
    u.linesBusy (.recv (xBase 0)) = false :=
  ⟨⟨[], rfl, rfl, by decide, by decide +kernel, rfl⟩, rfl, by decide +kernel⟩

theorem met_StepRunsDecoded_hazard :
    let u := (acts 32 0x10084528).setMe { (acts 32 0x10084528).me with pendS := 4 }
    hazard u.me (.ld { off := 4, scope := 0, ord := 0, sz := 2, a := 2, d := 5, form := .base }) = true ∧
    HoldsWords u [0x10084528#32] := ⟨by decide +kernel, holdsWords_of (by decide +kernel)⟩

theorem met_StepRunsDecoded_slots :
    (acts 32 0).slotOpen false = true ∧ (let u := acts 32 0; u.setMe { u.me with nextIssue := 1 }).slotOpen false = false ∧
    (let u := { acts 32 0x10084528 with badRegs := [(core0, .s 2)] }
     u.badRead (.ld { off := 4, scope := 0, ord := 0, sz := 2, a := 2, d := 5, form := .base }) = some (.s 2)) ∧
    (let u := held (little id) (.recv (xBase 0)) none; u.linesBusy (.recv (xBase 0)) = false) := by decide +kernel

theorem met_DecodeEncodeAgree :
    (Instr.endK).payload.isSome = true ∧ (Instr.endK).legal = true ∧
    (Instr.add { mod := 2, b := 31, a := 31, d := 31, form := .extLit { sat := 1, rm := 0, pn := 0, z := 0, pred := 7, c := 0 } 0 5 }).payload.isSome =
      true := by decide +kernel

/-- A store changes memory and keeps its form. -/
theorem met_StepKeepsMemoryCanonical :
    State.reset.Inv ∧ (about 32 0x10084528).Inv ∧ (match step (about 32 0x10084528) with | .next _ => true | _ => false) = true :=
  ⟨(by decide +kernel : Memory.wf State.reset = true), (by decide +kernel : Memory.wf (about 32 0x10084528) = true), by decide +kernel⟩

end Sys2Proof.Tests
end

section
/-! PROOFS. Every step keeps the canonical form of memory (O60; 00 R2). Only `State.write` and `State.clear` change
memory, and both keep its form (`State.wf_write`, `State.wf_clear`). So each function of the model that takes a state to
a state has one rule here, that it keeps `State.Inv`; a rule cites the rules of the functions it calls, and the rules
stand in the order of the model's files. -/

namespace Sys2Proof.Machine

/-- A stopped part of an instruction leaves the invariant: of the state it traps in, or waits in. -/
def Stop.Inv : Stop → Prop
  | .trap _ s => s.Inv
  | .hold s => s.Inv

/-- A part of an instruction keeps the invariant: where it is done its result meets `P`, and where it stops its state
has the invariant. -/
def Run.Inv {α : Type} (P : α → Prop) : Run α → Prop
  | .ok a => P a
  | .error e => e.Inv

/-- The next state, if there is one, has the invariant. -/
def NextInv : Host.Outcome State Fault Refusal → Prop
  | .next t => t.Inv
  | .fault _ => True
  | .refused _ => True

/-- The state, if there is one, has the invariant. -/
def SomeInv : Option State → Prop
  | some t => t.Inv
  | none => True

/-- The state a command leaves, if it is not refused, has the invariant. -/
def CmdInv : Except Nat (State × Nat) → Prop
  | .ok r => r.1.Inv
  | .error _ => True

/-- Something that a context or the machine does keeps the invariant. -/
def Keeps (f : State → Host.Outcome State Fault Refusal) : Prop := ∀ t, t.Inv → NextInv (f t)

/-- What an instruction is executed as when it is looked at again, if it is, keeps the invariant. -/
def SomeKeeps : Option (State → Host.Outcome State Fault Refusal) → Prop
  | some f => Keeps f
  | none => True

section
variable {α β : Type} {c : Prop} [Decidable c]

/-! A choice between two parts keeps what both keep, and a fold what its step keeps. -/

theorem State.Inv.ite {s t : State} (h : s.Inv) (ht : t.Inv) : (if c then s else t).Inv := by
  split
  · exact h
  · exact ht

theorem Run.Inv.ite {P : α → Prop} {r u : Run α} (hr : Run.Inv P r) (hu : Run.Inv P u) :
    Run.Inv P (if c then r else u) := by
  split
  · exact hr
  · exact hu

theorem NextInv.ite {o u : Host.Outcome State Fault Refusal} (ho : NextInv o) (hu : NextInv u) :
    NextInv (if c then o else u) := by
  split
  · exact ho
  · exact hu

theorem SomeInv.ite {o u : Option State} (ho : SomeInv o) (hu : SomeInv u) : SomeInv (if c then o else u) := by
  split
  · exact ho
  · exact hu

theorem CmdInv.ite {r u : Except Nat (State × Nat)} (hr : CmdInv r) (hu : CmdInv u) :
    CmdInv (if c then r else u) := by
  split
  · exact hr
  · exact hu

theorem State.Inv.foldl {f : State → α → State} {s : State} {l : List α} (h : s.Inv)
    (hf : ∀ t a, t.Inv → (f t a).Inv) : (l.foldl f s).Inv := by
  induction l generalizing s with
  | nil => exact h
  | cons a l ih => exact ih (hf s a h)

theorem Run.Inv.bind {P : α → Prop} {Q : β → Prop} {r : Run α} {f : α → Run β} (hr : Run.Inv P r)
    (hf : ∀ a, P a → Run.Inv Q (f a)) : Run.Inv Q (r.bind f) :=
  match r, hr with
  | .ok a, h => hf a h
  | .error _, h => h

theorem Run.Inv.map {P : α → Prop} {Q : β → Prop} {r : Run α} {f : α → β} (hr : Run.Inv P r)
    (hf : ∀ a, P a → Q (f a)) : Run.Inv Q (r.map f) :=
  match r, hr with
  | .ok a, h => hf a h
  | .error _, h => h

theorem Run.Inv.of_trap {P : α → Prop} {r : Run α} {t : Trap} {s : State} (hr : Run.Inv P r)
    (e : r = .error (.trap t s)) : s.Inv := by
  subst e; exact hr

theorem Run.Inv.of_hold {P : α → Prop} {r : Run α} {s : State} (hr : Run.Inv P r) (e : r = .error (.hold s)) :
    s.Inv := by
  subst e; exact hr

theorem SomeInv.of_eq {o : Option State} {s : State} (ho : SomeInv o) (e : o = some s) : s.Inv := by
  subst e; exact ho

theorem SomeKeeps.of_eq {o : Option (State → Host.Outcome State Fault Refusal)}
    {f : State → Host.Outcome State Fault Refusal} (ho : SomeKeeps o) (e : o = some f) : Keeps f := by
  subst e; exact ho

theorem State.Inv.of_fst {x : State × α} {s : State} {a : α} (h : x.1.Inv) (e : x = (s, a)) : s.Inv := by
  subst e; exact h

end

/-- The invariant speaks of memory alone: an update of other fields keeps it. -/
theorem State.Inv.update {s : State} (h : s.Inv) {cores : Assoc CoreId Core} {hives : Assoc HiveId Hive}
    {dies : Assoc Nat Die} {parts : Assoc Nat Partition} {launches : Assoc Nat Launch} {nextLaunch : Nat}
    {spawns : List SpawnPacket} {power : Power} {fw : Firmware} {fence : FenceSeq} {refCount dieCycle : Nat}
    {poisoned : List Nat} {badRegs : List (CtxId × Dest)} {cur : CtxId} {agenda : List Turn} {free : Nat} :
    (State.mk cores hives dies parts launches nextLaunch spawns power fw fence refCount dieCycle s.mem poisoned
      badRegs cur agenda free).Inv :=
  h

/-! ## The rules of Sys2Proof/Machine/State.lean -/

theorem State.Inv.reset : State.reset.Inv := rfl

/-! ## The rules of Sys2Proof/Machine/Memory.lean -/

section
variable {s : State} {a n : Nat}

theorem State.Inv.write {v : Nat} (h : s.Inv) : (s.write a n v).Inv := State.wf_write h a n v

theorem State.Inv.writeBytes {b : List Byte} (h : s.Inv) : (s.writeBytes a b).Inv :=
  State.wf_writeBytes h a

theorem State.Inv.clear (h : s.Inv) : (s.clear a n).Inv := State.wf_clear h a n

theorem State.Inv.copyBytes {src dst : Nat} (h : s.Inv) : (s.copyBytes src dst n).Inv :=
  h.writeBytes

end

/-! ## The rules of Sys2Proof/Machine/Ops.lean -/

section
variable {s : State} {k : CoreId} {c : CtxId} {x : Context} {p kind a n va : Nat} {e : BitVec 256} {t : Trap}
  {len : BitVec 2} {i : Instr} {r : Run State}

theorem State.Inv.setCore {c : Core} (h : s.Inv) : (s.setCore k c).Inv := h.update

theorem State.Inv.setCtx (h : s.Inv) : (s.setCtx c x).Inv := h.setCore

theorem State.Inv.setMe (h : s.Inv) : (s.setMe x).Inv := h.setCtx

theorem State.Inv.setMyCore {k : Core} (h : s.Inv) : (s.setMyCore k).Inv := h.setCore

theorem State.Inv.setHive {h : HiveId} {x : Hive} (hs : s.Inv) : (s.setHive h x).Inv := hs.update

theorem State.Inv.setDie {d : Nat} {x : Die} (h : s.Inv) : (s.setDie d x).Inv := h.update

theorem State.Inv.setPart {x : Partition} (h : s.Inv) : (s.setPart p x).Inv := h.update

theorem State.Inv.setLaunch {l : Nat} {x : Launch} (h : s.Inv) : (s.setLaunch l x).Inv := h.update

theorem State.Inv.fresh (h : s.Inv) : s.fresh.2.Inv := h.update

theorem State.Inv.postEvent {data : Nat} (h : s.Inv) : (s.postEvent kind data).Inv := h.update

theorem State.Inv.uncache (h : s.Inv) : (s.uncache a n).Inv := h.update

theorem State.Inv.physWrite {v : Nat} (h : s.Inv) : (s.physWrite p a n v).Inv :=
  .ite h.write.uncache h

theorem State.Inv.putNotice (h : s.Inv) : (s.putNotice p e).Inv := h.physWrite.physWrite

theorem State.Inv.flushNotices :
    ∀ {es : List (BitVec 256)} {s : State}, s.Inv → (State.flushNotices p es s).Inv
  | [], _, h => h.setPart
  | _ :: _, _, h => .ite h.setPart h.putNotice.flushNotices

theorem State.Inv.postNotice (h : s.Inv) : (s.postNotice p e).Inv :=
  .ite (.ite h.flushNotices h.flushNotices.setPart.physWrite) h.postEvent

theorem State.Inv.notify {cause addr : Nat} (h : s.Inv) : (s.notify c kind cause addr).Inv := by
  unfold State.notify
  split
  · exact h.postNotice
  · exact h

theorem State.Inv.loseEntries (h : s.Inv) : (s.loseEntries p n).Inv := .ite h h.physWrite

theorem State.Inv.record {type stream who payload aux : Nat} (h : s.Inv) :
    (s.record p type stream who payload aux).Inv :=
  .ite h (.ite h.loseEntries (.ite h.setPart (.ite h.physWrite.setPart h.physWrite.setPart)))

theorem State.Inv.dropPage (h : s.Inv) : (s.dropPage k va).Inv := h.setCore.setHive

theorem State.Inv.doubleTrap (h : s.Inv) : (s.doubleTrap t).Inv := h.setMe.notify

protected theorem State.Inv.takeTrap (h : s.Inv) : (takeTrap t len s).Inv :=
  .ite (.doubleTrap (State.Inv.ite h.dropPage h)) (.setMe (State.Inv.ite h.dropPage h))

protected theorem State.Inv.trapAt {α : Type} {P : α → Prop} {c : Cause} {v : Word} (h : s.Inv) :
    Run.Inv P (trapAt s c v) :=
  h

protected theorem State.Inv.engineFault {α : Type} {P : α → Prop} {slot reason : Nat} (h : s.Inv) :
    Run.Inv P (engineFault s slot reason) :=
  h

theorem State.Inv.advance (h : s.Inv) : (s.advance len).Inv := h.setMe

theorem State.Inv.blockIn {deadline : Option Nat} {phase : Nat} (h : s.Inv) :
    (s.blockIn i deadline phase).Inv := by
  unfold State.blockIn
  dsimp only
  split
  · exact h.setMe
  · exact h.setMe

theorem State.Inv.asCtx {f : State → State} (h : s.Inv) (hf : ∀ t, t.Inv → (f t).Inv) : (s.asCtx c f).Inv :=
  .update (hf _ h.update)

protected theorem NextInv.settle (hr : Run.Inv State.Inv r) : NextInv (settle len r) :=
  match r, hr with
  | .ok _, h => h
  | .error (.trap _ _), h => State.Inv.takeTrap h
  | .error (.hold _), h => h

protected theorem NextInv.finish (hr : Run.Inv State.Inv r) : NextInv (finish len r) :=
  .settle (hr.map fun _ h => h.advance)

protected theorem State.Inv.privileged {α : Type} {P : α → Prop} (h : s.Inv) : Run.Inv P (privileged s i) :=
  h

theorem State.Inv.logError {die cls unit pos : Nat} (h : s.Inv) : (s.logError die cls unit pos).Inv :=
  h.setDie

theorem State.Inv.logFound (h : s.Inv) : (s.logFound a).Inv := h.logError

theorem State.Inv.logWalk (h : s.Inv) : (s.logWalk k va).Inv := by
  unfold State.logWalk
  split
  · exact h
  · split
    · exact h
    · split
      · exact h.logFound
      · exact h

protected theorem State.Inv.denyStop {d : Deny} {va : Word} (h : s.Inv) : Stop.Inv (d.stop va s) := by
  unfold Deny.stop
  split
  · exact State.Inv.ite h.logWalk h
  · exact h

theorem State.Inv.translate {acc : Acc} {va : Word} (h : s.Inv) :
    Run.Inv (fun _ => True) (s.translate acc va) := by
  unfold State.translate
  split
  · trivial
  · exact h.denyStop

end

/-! ## The rules of Sys2Proof/Machine/Layout.lean -/

section
variable {s : State} {a n v : Nat} {p : Option Nat} {r : BitVec 1024} {pages : List (Nat × Nat)}

theorem State.Inv.markDirty (h : s.Inv) : (s.markDirty a n).Inv := .ite h.setCore h

theorem State.Inv.put (h : s.Inv) : (s.put a n v).Inv := .ite h h.write.markDirty

theorem State.Inv.enginePut (h : s.Inv) : (s.enginePut p a n v).Inv := .ite h.put h

theorem State.Inv.endWeak {c : CtxId} (h : s.Inv) : (s.endWeak c).Inv := .ite h.setHive h

theorem State.Inv.moveElem {i : Nat} (h : s.Inv) : (s.moveElem p r pages i).Inv := h.enginePut

theorem State.Inv.moveElems {is : List Nat} (h : s.Inv) : (s.moveElems p r pages is).Inv :=
  h.foldl fun _ _ ht => ht.moveElem

end

/-! ## The rules of Sys2Proof/Machine/Access.lean -/

section
variable {s : State} {v n a al : Nat} {w : Fin 8} {va : Word} {acc : Acc}

protected theorem State.Inv.denied {α : Type} {P : α → Prop} {d : Deny} {v : Word} (h : s.Inv) :
    Run.Inv P (denied s d v) :=
  h.denyStop

theorem State.Inv.setWin {x : Window} (h : s.Inv) : (s.setWin w x).Inv := h.setMyCore

theorem State.Inv.firstTouch (h : s.Inv) : Stop.Inv (s.firstTouch w) := by
  unfold State.firstTouch
  dsimp only
  split
  · exact h.denyStop
  · exact h.setWin

theorem State.Inv.touchFrom {off : Nat} (h : s.Inv) :
    ∀ {ws : List (Fin 8)}, Run.Inv State.Inv (s.touchFrom off n ws)
  | [] => h
  | _ :: _ => by
    unfold State.touchFrom
    refine .ite h.touchFrom (.ite h (.ite ?_ h.touchFrom))
    split
    · exact .ite h.setWin h.firstTouch
    · exact h.firstTouch

theorem State.Inv.touch (h : s.Inv) : Run.Inv State.Inv (s.touch a n) := .ite (.ite h h.touchFrom) h

theorem State.Inv.touchAt (h : s.Inv) : Run.Inv (fun _ => True) (s.touchAt va n) := by
  unfold State.touchAt
  split
  · exact h.touch.map fun _ _ => trivial
  · trivial

theorem State.Inv.checkAddress (h : s.Inv) : Run.Inv (fun _ => True) (s.checkAddress acc va al) :=
  .ite h.trapAt h.translate

theorem State.Inv.checkAccess (h : s.Inv) : Run.Inv (fun _ => True) (s.checkAccess acc va n al) :=
  h.touchAt.bind fun _ _ => h.checkAddress

theorem State.Inv.checkData (h : s.Inv) : Run.Inv (fun _ => True) (s.checkData va a n) := by
  unfold State.checkData
  split
  · exact h.logFound.trapAt
  · trivial

theorem State.Inv.requestShootdown {p : Nat} (h : s.Inv) : Run.Inv State.Inv (s.requestShootdown p v) :=
  .ite h.setPart h

theorem State.Inv.storeAt (h : s.Inv) : Run.Inv State.Inv (s.storeAt a n v) := by
  unfold State.storeAt
  split
  · split
    · exact .ite h.requestShootdown h
    · exact h
  · exact h.put.setMe

theorem State.Inv.loadMem (h : s.Inv) : Run.Inv (fun _ => True) (s.loadMem va n al) :=
  h.checkAccess.bind fun _ _ => h.checkData.map fun _ _ => trivial

theorem State.Inv.storeMem (h : s.Inv) : Run.Inv State.Inv (s.storeMem va n al v) :=
  h.checkAccess.bind fun _ _ => h.storeAt

theorem State.Inv.atomicRead (h : s.Inv) : Run.Inv (fun _ => True) (s.atomicRead va n) :=
  h.checkAccess.bind fun _ _ => .ite h.trapAt (h.checkData.map fun _ _ => trivial)

end

/-! ## The rules of Sys2Proof/Machine/Operands.lean -/

protected theorem State.Inv.scalarOp {f : Form} {d : Reg} {g : Context → Word × Flags} {s : State} (h : s.Inv) :
    NextInv (scalarOp f d g s) :=
  .finish h.setMe

/-! ## The rules of Sys2Proof/Machine/LoadStore.lean -/

section
variable {s : State} {d : Reg} {x : MForm} {va mask : Word} {n w : Nat} {addr : Nat → Word}

theorem State.Inv.skipScalar {f : Form} (h : s.Inv) : (s.skipScalar f d).Inv := .ite h.setMe h

protected theorem State.Inv.loadScalar (h : s.Inv) : Run.Inv State.Inv (loadScalar x s) :=
  h.loadMem.map fun _ _ => h.setMe

protected theorem State.Inv.execLd (h : s.Inv) : NextInv (execLd x s) :=
  .finish (.ite h.loadScalar h.skipScalar)

protected theorem State.Inv.loadPair (h : s.Inv) : Run.Inv State.Inv (loadPair x s) :=
  h.loadMem.map fun _ _ => h.setMe

protected theorem State.Inv.execLdp (h : s.Inv) : NextInv (execLdp x s) :=
  .finish (.ite h.loadPair h.skipScalar.skipScalar)

protected theorem State.Inv.execSt (h : s.Inv) : NextInv (execSt x s) := .finish (.ite h.storeMem h)

protected theorem Run.Inv.blockHeld {i : Instr} {r : Run State} (hr : Run.Inv State.Inv r) :
    Run.Inv State.Inv (blockHeld i r) :=
  match r, hr with
  | .ok _, h => h
  | .error (.trap _ _), h => h
  | .error (.hold _), h => State.Inv.blockIn h

protected theorem State.Inv.execStp (h : s.Inv) : NextInv (execStp x s) :=
  .finish (.ite (.blockHeld h.storeMem) h)

theorem State.Inv.speculate (h : s.Inv) : Run.Inv (fun _ => True) (s.speculate va n) := by
  unfold State.speculate
  split
  · trivial
  · split
    · exact h
    · trivial
    · exact .ite trivial trivial

theorem State.Inv.logSpeculate (h : s.Inv) : (s.logSpeculate va n).Inv := by
  unfold State.logSpeculate
  split
  · exact h
  · split
    · exact h.logWalk
    · exact h
    · split
      · exact .ite h h.logFound
      · exact h

protected theorem State.Inv.execLds (h : s.Inv) : NextInv (execLds x s) :=
  .finish (.ite (h.speculate.map fun _ _ => h.logSpeculate.setMe) h.skipScalar)

protected theorem State.Inv.execChkld (h : s.Inv) : NextInv (execChkld x s) :=
  .finish (.ite h.skipScalar (.ite h.setMe (h.loadMem.map fun _ _ => h.setMe)))

theorem State.Inv.loadLanes (h : s.Inv) : ∀ {ls : List (Nat × Word)}, Run.Inv (fun _ => True) (s.loadLanes n ls)
  | [] => trivial
  | _ :: _ => h.loadMem.bind fun _ _ => h.loadLanes.map fun _ _ => trivial

theorem State.Inv.checkLanes (h : s.Inv) :
    ∀ {ls : List (Nat × Word)}, Run.Inv (fun _ => True) (s.checkLanes n ls)
  | [] => trivial
  | _ :: _ => h.checkAccess.bind fun _ _ => h.checkLanes.map fun _ _ => trivial

theorem State.Inv.storeLanes {data : VWord} :
    ∀ {ls : List (Nat × Nat)} {s : State}, s.Inv → Run.Inv State.Inv (s.storeLanes w data ls)
  | [], _, h => h
  | _ :: _, _, h => h.storeAt.bind fun _ ht => ht.storeLanes

protected theorem State.Inv.loadVector {zero : Bool} (h : s.Inv) :
    Run.Inv State.Inv (loadVector w mask zero d addr s) :=
  h.loadLanes.map fun _ _ => h.setMe

protected theorem State.Inv.storeVector (h : s.Inv) : Run.Inv State.Inv (storeVector w mask d addr s) :=
  h.checkLanes.bind fun _ _ => h.storeLanes

protected theorem State.Inv.execVld (h : s.Inv) : NextInv (execVld x s) :=
  .finish (h.loadVector.map fun _ ht => ht.setMe)

theorem State.Inv.loadBlock (h : s.Inv) : ∀ {js : List Nat}, Run.Inv (fun _ => True) (s.loadBlock va js)
  | [] => trivial
  | _ :: _ => h.loadMem.bind fun _ _ => h.loadBlock.map fun _ _ => trivial

protected theorem State.Inv.execVldb {x : VForm} (h : s.Inv) : NextInv (execVldb x s) :=
  .finish (h.loadBlock.map fun _ _ => h.setMe)

theorem State.Inv.beginWeak {pieces values : List Nat} (h : s.Inv) : (s.beginWeak pieces values).Inv :=
  h.endWeak.setHive.update

protected theorem State.Inv.loadBlockWeak {x : VForm} (h : s.Inv) : Run.Inv State.Inv (loadBlockWeak x s) :=
  h.loadBlock.map fun _ _ => .ite h.setMe h.beginWeak.setMe

protected theorem State.Inv.execVldbWeak {x : VForm} (h : s.Inv) : NextInv (execVldbWeak x s) :=
  .finish h.loadBlockWeak

end

/-! ## The rules of Sys2Proof/Machine/Ship.lean -/

section
variable {s : State}

theorem State.Inv.spendCredit (h : s.Inv) : s.spendCredit.Inv :=
  .ite h.setMyCore h.setMyCore.setHive

theorem State.Inv.returnCredit {k : CoreId} {reserved : Bool} (h : s.Inv) : (s.returnCredit k reserved).Inv :=
  .ite h.setCore h.setCore.setHive

theorem State.Inv.ship {i : Instr} {work : ShipWork} {held : Bool} (h : s.Inv) :
    Run.Inv State.Inv (s.ship i work held) :=
  .ite h.setMe (.ite h.spendCredit.setMe.setHive.blockIn h.spendCredit.setMe.setHive)

end

/-! ## The rules of Sys2Proof/Machine/Atomic.lean -/

section
variable {x : AForm} {s : State} {op : Nat} {i : Instr}

protected theorem State.Inv.amoHere {f : AmoFn} (h : s.Inv) : Run.Inv State.Inv (amoHere x f s) := by
  refine h.atomicRead.bind fun _ _ => .map (P := State.Inv) ?_ fun _ ht => ht.setMe
  split
  · exact h.storeAt
  · exact h

protected theorem State.Inv.amofHere (h : s.Inv) : Run.Inv State.Inv (amofHere x op s) := by
  refine h.atomicRead.bind fun _ _ => ?_
  split
  · exact .ite h.trapAt (h.storeAt.map fun _ ht => ht.setMe)

protected theorem State.Inv.shipAtomic (h : s.Inv) : Run.Inv State.Inv (shipAtomic x i op s) :=
  h.checkAccess.bind fun _ _ => .ite h.trapAt h.ship

protected theorem State.Inv.wideAtomicRun {j : WideAtomic} (h : s.Inv) : (j.run s).1.Inv := by
  unfold WideAtomic.run
  split
  · exact h.logFound
  · dsimp only
    split
    · split
      · exact h
      · exact h.put
    · split
      · exact h.put
      · exact h

protected theorem State.Inv.wideAtomic (h : s.Inv) : NextInv (wideAtomic x i op s) :=
  .finish (.ite h.shipAtomic h.amoHere)

protected theorem State.Inv.floatAtomic (h : s.Inv) : NextInv (floatAtomic x i op s) :=
  .finish (.ite h.shipAtomic h.amofHere)

end

/-! ## The rules of Sys2Proof/Machine/Branch.lean -/

section
variable {s : State} {target : Word} {len : BitVec 2}

theorem State.Inv.jump (h : s.Inv) : (s.jump target).Inv := h.setMe

protected theorem State.Inv.branchIf {x : BForm} {taken : Bool} (h : s.Inv) : NextInv (branchIf x taken s) :=
  State.Inv.ite h.jump h.advance

theorem State.Inv.push {ret : Word} (h : s.Inv) : Run.Inv State.Inv (s.push ret) :=
  .ite h.setMe (.ite h.trapAt (h.storeMem.map fun _ ht => ht.setMe))

theorem State.Inv.pop (h : s.Inv) : Run.Inv (fun r => r.2.Inv) s.pop := by
  unfold State.pop
  dsimp only
  split
  · exact h.setMe
  · exact .ite h.trapAt (h.loadMem.map fun _ _ => h.setMe)

protected theorem State.Inv.callTo (h : s.Inv) : NextInv (callTo len target s) :=
  .settle (.ite h.trapAt (h.push.map fun _ ht => ht.jump))

protected theorem State.Inv.retFrom (h : s.Inv) : NextInv (retFrom len s) :=
  .settle (h.pop.bind fun _ hr => .ite h.trapAt hr.jump)

protected theorem State.Inv.execJ {x : JForm} (h : s.Inv) : NextInv (execJ x s) := h.jump

protected theorem State.Inv.execJi {x : RForm} (h : s.Inv) : NextInv (execJi x s) :=
  .settle (.ite h.trapAt h.jump)

end

/-! ## The rules of Sys2Proof/Machine/Record.lean -/

section
variable {s : State} {p : Nat}

theorem State.Inv.applyEntry {i : Nat} (h : s.Inv) : (s.applyEntry p i).Inv := h.setPart

theorem State.Inv.event {type stream who payload aux : Nat} {inStream : Nat → Bool} (h : s.Inv) :
    SomeInv (s.event p type stream who payload aux inStream) := by
  unfold State.event
  split
  · split
    · exact .ite h.applyEntry trivial
    · trivial
  · exact h.record

theorem State.Inv.continueRecord : ∀ {n v : Nat} {s : State}, s.Inv → (s.continueRecord p v n).Inv
  | 0, _, _, h => h
  | _ + 1, _, _, h => .ite h (.ite h.loseEntries (.ite h.record.loseEntries h.physWrite.setPart.continueRecord))

theorem State.Inv.dequeEvent {c : CtxId} {kind moved thief : Nat} (h : s.Inv) :
    SomeInv (s.dequeEvent c kind moved thief) := by
  unfold State.dequeEvent
  split
  · exact h
  · exact h.event

theorem State.Inv.ringEvent {taken : Bool} {ring ticket : Nat} (h : s.Inv) :
    SomeInv (s.ringEvent taken ring ticket) := by
  unfold State.ringEvent
  split
  · exact h
  · exact h.event

theorem State.Inv.timesOut {expired : Bool} (h : s.Inv) : SomeInv (s.timesOut expired) := by
  unfold State.timesOut
  split
  · exact .ite h trivial
  · dsimp only
    split
    · split
      · exact .ite h.applyEntry trivial
      · trivial
    · exact .ite h.record trivial

theorem State.Inv.messageEvent {die src no : Nat} (h : s.Inv) : SomeInv (s.messageEvent p die src no) := by
  unfold State.messageEvent
  dsimp only
  split
  · split
    · exact .ite h.applyEntry trivial
    · trivial
  · exact h.record

end

/-! ## The rules of Sys2Proof/Machine/Coherence.lean -/

section
variable {s : State} {die line a src no n : Nat} {kind : XKind} {k : CoreId} {own dirty : Bool} {r : LineReq}
  {h : HiveId} {rs : List (Nat × Nat)}

theorem State.Inv.setEntry {e : DirEntry} (h : s.Inv) : (s.setEntry die line e).Inv := h.setDie

theorem State.Inv.sendX {b : Nat} (h : s.Inv) : (s.sendX a b kind).Inv := h.setDie.setDie

theorem State.Inv.sendAll {ds : List Nat} (h : s.Inv) : (s.sendAll a kind ds).Inv :=
  h.foldl fun _ _ ht => ht.sendX

theorem State.Inv.dropLine (h : s.Inv) : (s.dropLine k line).Inv := h.setCore

theorem State.Inv.markLine (h : s.Inv) : (s.markLine k line own dirty).Inv := h.setCore

theorem State.Inv.dropOthers {keep : Option CoreId} (h : s.Inv) : (s.dropOthers die line keep).Inv :=
  h.update

theorem State.Inv.dropCopies (h : s.Inv) : (s.dropCopies die line).Inv := h.dropOthers.setEntry

theorem State.Inv.keepReplica {j : Nat} (h : s.Inv) : (s.keepReplica die j line).Inv := by
  unfold State.keepReplica
  extract_lets held t
  have ht : t.Inv := by
    unfold t
    split
    · exact h
    · split
      · exact h
      · exact h.setEntry.update
  exact ht.setEntry

theorem State.Inv.offer (h : s.Inv) : (s.offer k line).Inv := by
  unfold State.offer
  dsimp only
  split
  · exact .ite h h.keepReplica
  · exact h

theorem State.Inv.evict (h : s.Inv) : (s.evict k line).Inv :=
  .ite (.ite h.dropLine.setEntry h.dropLine.setEntry.offer) h

theorem State.Inv.putLine {x : L1Line} (h : s.Inv) : (s.putLine k x).Inv := h.setCore

theorem State.Inv.install (h : s.Inv) : (s.install k line own dirty).Inv := by
  unfold State.install
  split
  · exact h.markLine
  · dsimp only
    split
    · exact h.putLine
    · split
      · exact h
      · exact .putLine (h.update.foldl fun _ _ ht => ht.evict)

theorem State.Inv.evictEntry (h : s.Inv) : (s.evictEntry die line).Inv :=
  .setEntry (State.Inv.ite h.dropOthers.sendAll h.dropOthers)

theorem State.Inv.makeEntry (h : s.Inv) : (s.makeEntry die line).Inv := by
  unfold State.makeEntry
  dsimp only
  refine .ite h ?_
  split
  · exact h
  · exact h.evictEntry.update

theorem State.Inv.reply (h : s.Inv) : (s.reply k line).Inv := h.setHive

theorem State.Inv.recall (h : s.Inv) : (s.recall die line).Inv := by
  unfold State.recall
  dsimp only
  split
  · exact h.markLine.setEntry
  · exact h

theorem State.Inv.serveRead (h : s.Inv) : (s.serveRead die line k).Inv :=
  .ite h.makeEntry.recall.setEntry.reply h.makeEntry.recall.setEntry.sendX

theorem State.Inv.performWrite {k : Option CoreId} (h : s.Inv) : (s.performWrite die line k dirty).Inv := by
  unfold State.performWrite
  dsimp only
  split
  · exact h.setEntry
  · exact .ite h.setEntry.install (.ite h.setEntry h.setEntry)

theorem State.Inv.applied (h : s.Inv) : (s.applied die src no).Inv := h.setDie

theorem State.Inv.finishWrite (h : s.Inv) : (s.finishWrite die line).Inv := by
  unfold State.finishWrite
  dsimp only
  split
  · exact h
  · split
    · exact h.setEntry.performWrite.applied
    · exact .ite h.setEntry.performWrite h.setEntry.performWrite.sendX
    · exact h.setEntry.performWrite

theorem State.Inv.beginWrite (h : s.Inv) : (s.beginWrite die line r).Inv := by
  unfold State.beginWrite
  extract_lets s1 e t s2 s3
  have hs3 : s3.Inv := .ite h.makeEntry.setEntry.sendAll h.makeEntry.setEntry
  exact .ite hs3.finishWrite hs3

theorem State.Inv.serveFarRead (h : s.Inv) : (s.serveFarRead die line src).Inv := h.recall.setEntry

theorem State.Inv.serveFar (h : s.Inv) : (s.serveFar die line src no).Inv := by
  unfold State.serveFar
  split
  · split
    · exact h.serveFarRead.reply.applied
    · exact h.serveFarRead.applied
    · exact h.beginWrite
  · exact h

theorem State.Inv.serve (h : s.Inv) : (s.serve die line r).Inv := by
  unfold State.serve
  split
  · exact h.serveRead
  · exact h.beginWrite
  · exact h.serveFar

theorem State.Inv.serveWaiting :
    ∀ {rs : List LineReq} {s : State}, s.Inv → (State.serveWaiting die line rs s).Inv
  | [], _, h => h
  | _ :: _, _, h => .ite h h.setEntry.serve.serveWaiting

theorem State.Inv.request (h : s.Inv) : (s.request die line r).Inv :=
  .ite (.ite h h.setEntry) h.serve

theorem State.Inv.invalidateHive {except : Option CoreId} (hs : s.Inv) : (s.invalidateHive h line except).Inv :=
  hs.foldl fun _ _ ht => .ite ht ht.dropLine

theorem State.Inv.readLine (h : s.Inv) : (s.readLine k line).Inv := .ite h h.serveRead

theorem State.Inv.writeLine {k : Option CoreId} {msg : XKind} (h : s.Inv) :
    (s.writeLine die line k msg).Inv := by
  unfold State.writeLine
  split
  · cases k with
    | none => exact h
    | some k => exact h.markLine
  · extract_lets home s1 e s2 s3
    have h1 : s1.Inv := h.makeEntry
    have h2 : s2.Inv := .ite h1.setEntry.sendAll h1
    have h3 : s3.Inv := h2.dropOthers.performWrite
    exact .ite h3 h3.sendX

theorem State.Inv.atomicLine {hive : Bool} (h : s.Inv) : (s.atomicLine k hive line).Inv :=
  .ite h.writeLine h.sendX

theorem State.Inv.crossLocal (h : s.Inv) : (s.crossLocal die a).Inv := by
  unfold State.crossLocal
  split
  · exact .ite h h.sendX
  · exact h

theorem State.Inv.engineWrites (h : s.Inv) : (s.engineWrites die rs).Inv :=
  .foldl (h.foldl fun _ _ ht => ht.writeLine) fun _ _ ht => ht.crossLocal

theorem State.Inv.engineReadLine (h : s.Inv) : (s.engineReadLine die line).Inv :=
  .ite h.recall (.ite h h.sendX)

theorem State.Inv.engineReads (h : s.Inv) : (s.engineReads die rs).Inv :=
  .foldl (h.foldl fun _ _ ht => ht.engineReadLine) fun _ _ ht => ht.crossLocal

theorem State.Inv.takeMessage {m : XMsg} (h : s.Inv) : SomeInv (s.takeMessage die m) := by
  unfold State.takeMessage
  split
  · exact h
  · exact h.messageEvent

theorem State.Inv.receiveX (h : s.Inv) : (s.receiveX die n).Inv := by
  unfold State.receiveX
  split
  · exact h
  · split
    · exact h
    · split
      · exact h
      · rename_i hx
        have ht := h.takeMessage.of_eq hx
        split
        · exact ht.request
        · exact ht.applied

protected theorem State.Inv.fenceSc {i : Instr} {len : BitVec 2} (h : s.Inv) : NextInv (fenceSc i len s) :=
  .finish (.ite h.setMe.update h.blockIn.update)

protected theorem State.Inv.execCrossDieMessageApply (h : s.Inv) : NextInv (execCrossDieMessageApply die n s) :=
  h.receiveX

protected theorem State.Inv.execClockBeat {dst : Nat} (h : s.Inv) : NextInv (execClockBeat src dst s) :=
  .ite h.setDie.setDie h

protected theorem State.Inv.execHiveInvalidation (hs : s.Inv) : NextInv (execHiveInvalidation die line h s) :=
  State.Inv.ite hs.invalidateHive hs

protected theorem State.Inv.execInvalidationAck (hs : s.Inv) : NextInv (execInvalidationAck die line h s) :=
  .ite (State.Inv.ite hs.setEntry.finishWrite.serveWaiting hs.setEntry) hs

protected theorem State.Inv.execFenceSequencerTicket (h : s.Inv) :
    NextInv (execFenceSequencerTicket die s) := by
  unfold execFenceSequencerTicket
  split
  · exact h
  · split
    · extract_lets m t
      have ht : t.Inv := by
        unfold t
        split
        · exact h.setCtx
        · exact h
      exact ht.update
    · exact h

theorem State.Inv.fillLine (h : s.Inv) : (s.fillLine k line).Inv :=
  .ite (.ite h.setHive.install h.setHive) h

theorem State.Inv.fillCode (h : s.Inv) : (s.fillCode k a).Inv := by
  unfold State.fillCode
  dsimp only
  split
  · exact h
  · split
    · exact h.logFound
    · exact h.setCore

protected theorem State.Inv.execReadReply {dest : ReplyTo} (h : s.Inv) :
    NextInv (execReadReply k line dest s) := by
  unfold execReadReply
  split
  · exact h
  · exact h.fillCode
  · exact h.fillLine

protected theorem State.Inv.execLocalMemoryPortAccess {off : Nat} {scratch : Bool} {a : PortAccess} (h : s.Inv) :
    NextInv (execLocalMemoryPortAccess k off scratch a s) := by
  unfold execLocalMemoryPortAccess
  split
  · exact h
  · exact .ite h.writeBytes.markDirty h

end

/-! ## The rules of Sys2Proof/Machine/Vector.lean -/

section
variable {x : VForm} {opB : Nat → Nat} {f : LaneFn} {s : State}

protected theorem State.Inv.vint (h : s.Inv) : NextInv (vint x opB f s) := .finish h.setMe

protected theorem State.Inv.vintV (h : s.Inv) : NextInv (vintV x f s) := h.vint

protected theorem State.Inv.vintI (h : s.Inv) : NextInv (vintI x f s) := h.vint

protected theorem State.Inv.vcmp (h : s.Inv) : NextInv (vcmp x opB s) := .finish h.setMe

protected theorem State.Inv.permute {new : Nat → Nat} (h : s.Inv) : NextInv (permute x new s) :=
  .finish h.setMe

end

/-! ## The rules of Sys2Proof/Machine/Float.lean -/

section
variable {j : FpJob} {s : State} {i : Instr} {x : VForm} {op : FpOp}

protected theorem State.Inv.runHere (h : s.Inv) : Run.Inv State.Inv (runHere j s) := by
  unfold runHere
  dsimp only
  split
  · exact h
  · exact h.setMe

protected theorem State.Inv.runOrShip (h : s.Inv) : Run.Inv State.Inv (runOrShip i j s) :=
  .ite h.ship h.runHere

protected theorem State.Inv.floatScalar (h : s.Inv) : NextInv (floatScalar x i op s) :=
  .finish (.ite h.runOrShip h.skipScalar)

protected theorem State.Inv.floatVector (h : s.Inv) : NextInv (floatVector x i op s) :=
  .finish h.runOrShip

protected theorem State.Inv.floatCompare (h : s.Inv) : NextInv (floatCompare x i op s) :=
  .finish h.runOrShip

protected theorem State.Inv.execFpvFcmp (h : s.Inv) : NextInv (execFpvFcmp x s) := h.floatCompare

protected theorem State.Inv.transcendental {scalar : Bool} {op : XfnOp} (h : s.Inv) :
    NextInv (transcendental scalar x i op s) :=
  .ite h.floatScalar h.floatVector

end

/-! ## The rules of Sys2Proof/Machine/Mat.lean -/

section
variable {s : State} {x : XForm} {n : Fin 16} {i : Instr}

theorem State.Inv.setMat {c : CtxId} {x : MatCtx} (h : s.Inv) : (s.setMat c x).Inv := h.setHive

theorem State.Inv.setSlot {h : HiveId} {x : Slot} (hs : s.Inv) : (s.setSlot h n x).Inv := hs.setHive

theorem State.Inv.deliverMat (h : s.Inv) : Run.Inv (fun _ => True) s.deliverMat := by
  unfold State.deliverMat
  split
  · trivial
  · exact .ite h h.setMe.setMat

theorem State.Inv.checkMat (h : s.Inv) : ∀ {os : List MatOperand}, Run.Inv (fun _ => True) (s.checkMat os)
  | [] => trivial
  | _ :: _ => by
    unfold State.checkMat
    refine .ite h.trapAt ?_
    split
    · exact h.denyStop
    · exact h.checkMat.map fun _ _ => trivial

theorem State.Inv.touchAll (h : s.Inv) : ∀ {xs : List RecAccess}, Run.Inv (fun _ => True) (s.touchAll xs)
  | [] => trivial
  | _ :: _ => h.touchAt.bind fun _ _ => h.touchAll

theorem State.Inv.checkSlot {fits : AccKind → Bool} (h : s.Inv) :
    Run.Inv (fun _ => True) (s.checkSlot n fits) :=
  .ite h.engineFault (.ite h.engineFault trivial)

theorem State.Inv.acceptMat {d : Reg} {c : MatCmd} (h : s.Inv) : (s.acceptMat d c).Inv :=
  h.setMe.setMat

protected theorem State.Inv.matAccept {fn : Nat} {checks : MatCmd → Run (List MatOperand)} (h : s.Inv)
    (hchecks : ∀ a, Run.Inv (fun _ => True) (checks a)) : NextInv (matAccept x i fn checks s) :=
  .finish (h.deliverMat.bind fun _ _ => .ite h.blockIn (.bind (P := fun _ => True) (hchecks _) fun _ _ =>
    h.checkMat.bind fun _ _ => h.touchAll.map fun _ _ => h.acceptMat))

protected theorem State.Inv.matQuery {f : State → State} (h : s.Inv) (hf : ∀ t, t.Inv → (f t).Inv) :
    NextInv (matQuery i f s) :=
  .finish (h.deliverMat.bind fun _ _ => .ite (hf _ h) h.blockIn)

protected theorem State.Inv.execTalloc (h : s.Inv) : NextInv (execTalloc x s) := by
  unfold Machine.execTalloc
  refine h.matQuery fun _ ht => ?_
  exact .ite ht.setSlot.setMe ht.setMe

protected theorem State.Inv.execTfree (h : s.Inv) : NextInv (execTfree x s) :=
  h.matAccept fun _ => h.checkSlot.map fun _ _ => trivial

protected theorem State.Inv.execTzero (h : s.Inv) : NextInv (execTzero x s) :=
  h.matAccept fun _ => h.checkSlot.map fun _ _ => trivial

protected theorem State.Inv.execTload (h : s.Inv) : NextInv (execTload x s) :=
  h.matAccept fun _ => h.checkSlot.map fun _ _ => trivial

protected theorem State.Inv.execTmma (h : s.Inv) : NextInv (execTmma x s) :=
  h.matAccept fun _ => h.checkSlot.map fun _ _ => trivial

protected theorem State.Inv.execTmmaq (h : s.Inv) : NextInv (execTmmaq x s) :=
  h.matAccept fun _ => h.checkSlot.bind fun _ _ => .ite trivial h.engineFault

protected theorem State.Inv.execTqdesc (h : s.Inv) : NextInv (execTqdesc x s) :=
  .finish (h.deliverMat.bind fun _ _ => .ite h.blockIn h.acceptMat)

protected theorem State.Inv.execTdrain (h : s.Inv) : NextInv (execTdrain x s) :=
  .finish (h.deliverMat.bind fun _ _ => .ite h.blockIn (h.checkSlot.bind fun _ _ => .ite h.trapAt h.acceptMat))

protected theorem State.Inv.execTstore (h : s.Inv) : NextInv (execTstore x s) :=
  h.matAccept fun _ => h.checkSlot.map fun _ _ => trivial

protected theorem State.Inv.execTstat (h : s.Inv) : NextInv (execTstat x s) :=
  h.matQuery fun _ ht => ht.setMe

end

/-! ## The rules of Sys2Proof/Machine/System.lean -/

section
variable {s : State} {x : RForm} {len : BitVec 2}

theorem State.Inv.sysWrite {n : Nat} {v : Word} (h : s.Inv) : (s.sysWrite n v).Inv :=
  .ite h.setMe (.ite h.setMe (.ite h.setMe (.ite h.setMe (.ite h.setMe (.ite h.setMe (.ite h.setMyCore
    (.ite h.setHive (.ite h.setMe (.ite h.setMe (.ite h.setMe (.ite h.setMyCore (.ite h.setMyCore (.ite
    h.setMe (.ite h h.setMyCore))))))))))))))

protected theorem State.Inv.execTrap (h : s.Inv) : NextInv (execTrap x s) := .finish h.trapAt

protected theorem State.Inv.returnFrom {i : Instr} (h : s.Inv) : NextInv (returnFrom len i s) :=
  .settle (.ite h.privileged (.ite h.trapAt h.setMe))

protected theorem State.Inv.execMfs (h : s.Inv) : NextInv (execMfs x s) :=
  .finish (.ite h.privileged (.ite h h.setMe))

protected theorem State.Inv.execMts (h : s.Inv) : NextInv (execMts x s) :=
  .finish (.ite h.privileged (.ite h h.sysWrite))

protected theorem State.Inv.beat (h : s.Inv) : NextInv (beat len s) := .finish h.setMyCore

end

/-! ## The rules of Sys2Proof/Machine/Regs.lean -/

section
variable {s : State} {c : CtxId}

theorem State.Inv.mend {ds : List Dest} (h : s.Inv) : (s.mend c ds).Inv := h.update

theorem State.Inv.mendAll (h : s.Inv) : (s.mendAll c).Inv := h.update

theorem State.Inv.mendRegs {t u : State} {i : Instr} (h : t.Inv) : (t.mendRegs u i).Inv :=
  .ite h.mend h

end

/-! ## The rules of Sys2Proof/Machine/Park.lean -/

section
variable {s : State} {k : CoreId}

theorem State.Inv.groupParked {g : Group} {cause : Nat} (h : s.Inv) : (s.groupParked g cause).Inv := by
  unfold State.groupParked
  split
  · exact h
  · exact .ite h.notify h

theorem State.Inv.settlePark {forced : Bool} (h : s.Inv) : (s.settlePark k forced).Inv :=
  .ite h.setCore.groupParked h

theorem State.Inv.parkCtx {c : CtxId} (h : s.Inv) : (s.parkCtx c).Inv := h.setCtx.settlePark

theorem State.Inv.settleEmpty (h : s.Inv) : (s.settleEmpty k).Inv := .ite h.groupParked h

theorem State.Inv.afterIssue {wasBlocked : Bool} (h : s.Inv) : (s.afterIssue wasBlocked).Inv := by
  unfold State.afterIssue
  extract_lets k n s1 m
  have hs1 : s1.Inv := .ite h h.setMyCore
  exact .ite (.settleEmpty (.ite hs1.settlePark hs1)) (.ite hs1 (.ite hs1.parkCtx hs1.settlePark))

protected theorem NextInv.onNext {f : State → State} {o : Host.Outcome State Fault Refusal} (ho : NextInv o)
    (hf : ∀ t, t.Inv → (f t).Inv) : NextInv (onNext f o) :=
  match o, ho with
  | .next t, h => hf t h
  | .fault _, _ => trivial
  | .refused _, _ => trivial

theorem State.Inv.releasePoint (h : s.Inv) : Run.Inv (fun _ => True) s.releasePoint :=
  .ite h.parkCtx trivial

end

/-! ## The rules of Sys2Proof/Machine/Caching.lean -/

section
variable {s u t : State} {i : Instr} {c : CtxId}
  {g : Instr → Option (State → Host.Outcome State Fault Refusal)}

theorem State.Inv.useLine {k : CoreId} {u : Use} {line : Nat} (h : s.Inv) : (s.useLine k u line).Inv := by
  unfold State.useLine
  split
  · exact h.readLine
  · exact h.writeLine
  · exact h.atomicLine

theorem State.Inv.cacheUses (h : t.Inv) : (t.cacheUses u i).Inv :=
  .ite (h.foldl fun _ _ ht => .crossLocal (ht.foldl fun _ _ hu => hu.useLine)) h

theorem State.Inv.settled (h : t.Inv) : (t.settled u i).Inv := h.mendRegs.cacheUses

protected theorem State.Inv.retry (h : s.Inv) (hg : ∀ i, SomeKeeps (g i)) : NextInv (retry c g s) := by
  unfold Machine.retry
  extract_lets t
  have ht : t.Inv := h
  split
  · exact h
  · split
    · exact h
    · rename_i hx
      exact .ite (((hg _).of_eq hx t ht).onNext fun _ hu => hu.settled.afterIssue.update) h

protected theorem State.Inv.retryHeld (h : s.Inv) (hg : ∀ i, SomeKeeps (g i)) : NextInv (retryHeld c g s) := by
  unfold Machine.retryHeld
  extract_lets t st
  have ht : t.Inv := h
  refine .ite ?_ (h.retry hg)
  split
  · exact h
  · split
    · exact h
    · rename_i hx
      exact .ite (((hg _).of_eq hx t ht).onNext fun _ hu => hu.settled.setCtx.update) h

end

/-! ## The rules of Sys2Proof/Machine/Tasks.lean -/

section
variable {s : State} {k : CoreId} {r : BitVec 256} {i : Instr} {x : XForm} {n : Nat} {c : CtxId}

theorem State.Inv.mapStage {l st : Nat} {f : Stage → Stage} (h : s.Inv) : (s.mapStage l st f).Inv := by
  unfold State.mapStage
  split
  · exact h
  · exact h.setLaunch

theorem State.Inv.addWork (h : s.Inv) : (s.addWork k).Inv := by
  unfold State.addWork
  split
  · exact h.mapStage
  · exact h

theorem State.Inv.dropWork (h : s.Inv) : (s.dropWork k).Inv := by
  unfold State.dropWork
  split
  · exact h.mapStage
  · exact h

theorem State.Inv.pushDeque (h : s.Inv) : (s.pushDeque k r).Inv := h.setCore

theorem State.Inv.spillWait {a : Word} (h : s.Inv) : Run.Inv State.Inv (s.spillWait i a) := by
  unfold State.spillWait
  dsimp only
  split
  · rename_i hx
    exact (h.timesOut.of_eq hx).trapAt
  · exact h.blockIn

theorem State.Inv.grantPush (h : s.Inv) : Run.Inv State.Inv (s.grantPush i r) := by
  unfold State.grantPush
  split
  · rename_i hx
    exact (h.dequeEvent.of_eq hx).pushDeque.addWork
  · exact h.blockIn

theorem State.Inv.pushTask (h : s.Inv) : Run.Inv State.Inv (s.pushTask i r) :=
  .ite h.grantPush (.ite (h.checkAccess.bind fun _ _ => h.storeAt.bind fun _ ht => ht.setMyCore.grantPush)
    h.spillWait)

protected theorem State.Inv.execSpawn (h : s.Inv) : NextInv (execSpawn x s) :=
  .finish (.ite h.engineFault h.pushTask)

theorem State.Inv.sendTask {big : Bool} {st : Stage} {a : Nat} (h : s.Inv) :
    Run.Inv State.Inv (s.sendTask x big st r a) := by
  unfold State.sendTask
  split
  · exact h.pushTask
  · exact .ite h.addWork.update h.pushTask

protected theorem State.Inv.execSpawnat (h : s.Inv) : NextInv (execSpawnat x s) := by
  refine .finish ?_
  split
  · exact h.engineFault
  · exact .ite h.engineFault (h.translate.bind fun _ _ => .ite h.engineFault h.sendTask)

theorem State.Inv.readOverflow (h : s.Inv) : ∀ {n i : Nat}, Run.Inv (fun _ => True) (s.readOverflow i n)
  | 0, _ => trivial
  | _ + 1, _ => h.loadMem.bind fun _ _ => h.readOverflow.map fun _ _ => trivial

theorem State.Inv.refill (h : s.Inv) : Run.Inv State.Inv s.refill :=
  .ite (h.readOverflow.bind fun _ _ => .ite h.setMyCore h.engineFault) h

theorem State.Inv.take {e : BitVec 256} (h : s.Inv) : (s.take e).1.Inv :=
  State.Inv.setMe (State.Inv.ite h.setMyCore.addWork h.setMyCore)

protected theorem State.Inv.execTaskget (h : s.Inv) : NextInv (execTaskget x s) := by
  refine .finish (.ite h.engineFault (h.releasePoint.bind fun _ _ => h.refill.bind fun _ ht => ?_))
  split
  · split
    · exact ht.blockIn
    · rename_i hx
      exact (ht.dequeEvent.of_eq hx).take.setMe
  · split
    · exact ht.setMe
    · split
      · rename_i hx
        exact (ht.timesOut.of_eq hx).setMe
      · exact ht.blockIn

protected theorem State.Inv.execTaskend (h : s.Inv) : NextInv (execTaskend s) :=
  .finish (.ite h.engineFault h.setMe.dropWork)

theorem State.Inv.setRing {j : Nat} {r : Ring} (h : s.Inv) : (s.setRing j n r).Inv := by
  unfold State.setRing
  split
  · exact h
  · exact h.setLaunch

protected theorem State.Inv.execRgres (h : s.Inv) : NextInv (execRgres x s) := by
  refine .finish ?_
  split
  · exact h.engineFault
  · refine .ite h.blockIn ?_
    split
    · exact h.blockIn
    · rename_i hx
      exact (h.ringEvent.of_eq hx).setRing.setMe

protected theorem State.Inv.execRgpub (h : s.Inv) : NextInv (execRgpub x s) := by
  refine .finish ?_
  split
  · exact h.engineFault
  · exact .ite h.engineFault h.setRing

protected theorem State.Inv.execRgtake (h : s.Inv) : NextInv (execRgtake x s) := by
  refine .finish ?_
  split
  · exact h.engineFault
  · refine h.releasePoint.bind fun _ _ => .ite ?_ ?_
    · split
      · exact h.blockIn
      · rename_i hx
        exact (h.ringEvent.of_eq hx).setRing.setMe
    · refine .ite h.setMe ?_
      split
      · rename_i hx
        exact (h.timesOut.of_eq hx).setMe
      · exact h.blockIn

protected theorem State.Inv.execRgdone (h : s.Inv) : NextInv (execRgdone x s) := by
  refine .finish ?_
  split
  · exact h.engineFault
  · exact .ite h.engineFault h.setRing

protected theorem State.Inv.execSpawnatDelivery (h : s.Inv) : NextInv (execSpawnatDelivery n s) := by
  unfold execSpawnatDelivery
  split
  · exact h
  · split
    · exact h
    · split
      · exact h
      · rename_i hx
        exact (h.dequeEvent.of_eq hx).update.pushDeque

protected theorem State.Inv.execStealProbe (h : s.Inv) : NextInv (execStealProbe k s) := by
  unfold execStealProbe
  dsimp only
  split
  · exact h
  · exact .ite h h.setCore

protected theorem State.Inv.execStealResponse (h : s.Inv) : NextInv (execStealResponse k s) := by
  unfold Machine.execStealResponse
  dsimp only
  split
  · exact h
  · refine .ite h (.ite h.setCore ?_)
    split
    · exact h
    · rename_i hx
      have ht := h.dequeEvent.of_eq hx
      exact State.Inv.ite ht.setCore.setCore.addWork ht.setCore.setCore

protected theorem State.Inv.execSpawnTimeout (h : s.Inv) : NextInv (execSpawnTimeout c s) := by
  refine h.retry fun _ => ?_
  split
  · exact fun _ ht => ht.execSpawn
  · exact fun _ ht => ht.execSpawnat
  · exact trivial

protected theorem State.Inv.execTaskgetTimeout (h : s.Inv) : NextInv (execTaskgetTimeout c s) := by
  refine h.retry fun _ => ?_
  split
  · exact fun _ ht => ht.execTaskget
  · exact trivial

protected theorem State.Inv.execRgtakeTimeout (h : s.Inv) : NextInv (execRgtakeTimeout c s) := by
  refine h.retry fun _ => ?_
  split
  · exact fun _ ht => ht.execRgtake
  · exact trivial

end

/-! ## The rules of Sys2Proof/Machine/Messages.lean -/

section
variable {x : XForm} {s : State} {c : CtxId} {j launch group : Nat} {p : CollPart}

protected theorem State.Inv.execRankOf (h : s.Inv) : NextInv (execRankOf x s) := by
  refine .finish ?_
  split
  · exact h.setMe
  · exact h.engineFault

protected theorem State.Inv.execSend (h : s.Inv) : NextInv (execSend x s) :=
  .finish (.ite h.engineFault (.ite h.blockIn h.setMyCore))

protected theorem State.Inv.execRecv (h : s.Inv) : NextInv (execRecv x s) := by
  refine .finish ?_
  split
  · exact h.setMe
  · split
    · rename_i hx
      exact (h.timesOut.of_eq hx).setMe
    · exact h.blockIn

protected theorem State.Inv.execMessageDelivery {k : CoreId} {n : Nat} (h : s.Inv) :
    NextInv (execMessageDelivery k n s) := by
  unfold execMessageDelivery
  dsimp only
  split
  · split
    · split
      · exact h
      · split
        · rename_i hx
          exact (h.event.of_eq hx).setCore.setCtx
        · exact h
    · exact h
  · exact h

protected theorem State.Inv.execRecvTimeout (h : s.Inv) : NextInv (execRecvTimeout c s) := by
  refine h.retry fun _ => ?_
  split
  · exact fun _ ht => ht.execRecv
  · exact trivial

theorem State.Inv.setGroup {g : Nat} {x : GroupId} (h : s.Inv) : (s.setGroup j g x).Inv := by
  unfold State.setGroup
  split
  · exact h
  · exact h.setLaunch

protected theorem State.Inv.execGrpjoin (h : s.Inv) : NextInv (execGrpjoin x s) := by
  refine .finish ?_
  split
  · exact h.engineFault
  · exact .ite h.engineFault (.ite h.blockIn h.setGroup.setMe)

theorem State.Inv.deliverColl (h : s.Inv) : Run.Inv (fun _ => True) s.deliverColl := by
  unfold State.deliverColl
  split
  · trivial
  · split
    · exact h
    · dsimp only
      split
      · exact h.setMe
      · exact h.setMe.setLaunch

theorem State.Inv.settleColl (h : s.Inv) : (s.settleColl j c).Inv := by
  unfold State.settleColl
  split
  · exact h
  · exact h.setCtx

theorem State.Inv.collNumber (h : s.Inv) : s.collNumber.2.Inv := h.setMe

protected theorem State.Inv.execColl (h : s.Inv) : NextInv (execColl x s) := by
  refine .finish (h.deliverColl.bind fun _ _ => ?_)
  split
  · exact h.checkAccess.map fun _ _ => h.collNumber.setGroup.setMe
  · exact h.engineFault

protected theorem State.Inv.execGrpfree (h : s.Inv) : NextInv (execGrpfree x s) := by
  refine .finish (h.deliverColl.bind fun _ _ => ?_)
  split
  · exact h.engineFault
  · exact .ite h.engineFault h.collNumber.setGroup.setMe.settleColl

theorem State.Inv.stopColl (h : s.Inv) : (s.stopColl p).Inv := by
  unfold State.stopColl
  dsimp only
  split
  · exact h
  · exact h.setCtx

theorem State.Inv.writePart {v : VWord} (h : s.Inv) : (s.writePart v p).Inv :=
  h.enginePut.engineWrites

protected theorem State.Inv.execCollRoundComplete (h : s.Inv) :
    NextInv (execCollRoundComplete launch group s) := by
  unfold execCollRoundComplete
  split
  · exact h
  · have hstop {ps : List CollPart} : (ps.foldl State.stopColl s).Inv := h.foldl fun _ _ ht => ht.stopColl
    exact .ite hstop (.ite h (.ite h (.ite hstop
      (State.Inv.foldl (State.Inv.setGroup (h.foldl fun _ _ ht => ht.writePart)) fun _ _ ht => ht.settleColl))))

protected theorem State.Inv.execGroupGenerationDrain (h : s.Inv) :
    NextInv (execGroupGenerationDrain launch group s) := by
  unfold execGroupGenerationDrain
  split
  · exact h
  · exact .ite h.setGroup h

end

/-! ## The rules of Sys2Proof/Machine/Copy.lean -/

section
variable {s : State} {d : Reg} {r : BitVec 1024} {x : XForm} {w : Fin 8} {i : Instr}

theorem State.Inv.setCopyQueue {c : CtxId} {q : List CopyCmd} (h : s.Inv) : (s.setCopyQueue c q).Inv :=
  h.setHive

theorem State.Inv.deliverCopy (h : s.Inv) : Run.Inv (fun _ => True) s.deliverCopy := by
  unfold State.deliverCopy
  split
  · trivial
  · exact .ite h h.setMe.setCopyQueue

theorem State.Inv.queueCopy {kind : CopyKind} {pages : List (Nat × Nat)} (h : s.Inv) :
    (s.queueCopy d kind r pages).Inv :=
  h.setMe.setCopyQueue

theorem State.Inv.touchRecord {n : Nat} (h : s.Inv) :
    ∀ {xs : List RecAccess}, Run.Inv (fun _ => True) (s.touchRecord n xs)
  | [] => trivial
  | _ :: _ => h.touchAt.bind fun _ _ => h.touchRecord

protected theorem State.Inv.execCopy (h : s.Inv) : NextInv (execCopy x s) := by
  refine .finish (.ite h.blockIn ?_)
  split
  · exact h.denied
  · exact h.touchRecord.map fun _ _ => h.queueCopy

protected theorem State.Inv.execCseal (h : s.Inv) : NextInv (execCseal x s) :=
  .finish (.ite h.blockIn h.queueCopy.setMe)

protected theorem State.Inv.execCwait (h : s.Inv) : NextInv (execCwait x s) :=
  .finish (h.deliverCopy.bind fun _ _ => .ite h.setMe h.blockIn)

protected theorem State.Inv.winset {out : Bool} {binding : Word} (h : s.Inv) :
    Run.Inv State.Inv (winset w out r binding i s) :=
  .ite h.blockIn (.ite h.setWin (.ite h.engineFault (.ite h.engineFault h.setWin)))

protected theorem State.Inv.execWinset (h : s.Inv) : NextInv (execWinset x s) := .finish h.winset

protected theorem State.Inv.writeOut (h : s.Inv) : Run.Inv State.Inv (writeOut w i d s) := by
  unfold writeOut
  dsimp only
  split
  · exact h.blockIn
  · split
    · exact h.denied
    · exact h.queueCopy

theorem State.Inv.lastCopy (h : s.Inv) : (s.lastCopy d).Inv := h.setMe

protected theorem State.Inv.execWinadv (h : s.Inv) : NextInv (execWinadv x s) :=
  .finish (.ite h.engineFault (.ite h.blockIn (.map (P := State.Inv) (.ite h.writeOut h.lastCopy) fun _ ht =>
    ht.setWin)))

protected theorem State.Inv.execWinflush (h : s.Inv) : NextInv (execWinflush x s) :=
  .finish (.ite h.engineFault (.ite h.blockIn (.ite (h.writeOut.map fun _ ht => ht.setWin) h.lastCopy)))

end

/-! ## The rules of Sys2Proof/Machine/Fetch.lean -/

section
variable {s t u : State} {va : Word} {i : Instr}

theorem State.Inv.fetchWord (h : s.Inv) : Run.Inv (fun _ => True) (s.fetchWord va) :=
  h.translate.bind fun _ _ => .ite h.logFound.trapAt trivial

theorem State.Inv.fetchMore (h : s.Inv) : ∀ {n : Nat} {va : Word}, Run.Inv (fun _ => True) (s.fetchMore va n)
  | 0, _ => trivial
  | _ + 1, _ => h.fetchWord.bind fun _ _ => h.fetchMore.map fun _ _ => trivial

theorem State.Inv.fetch (h : s.Inv) : Run.Inv (fun _ => True) s.fetch :=
  h.fetchWord.bind fun _ _ => h.fetchMore.map fun _ _ => trivial

theorem State.Inv.dropCode {k : CoreId} {a : Nat} (h : s.Inv) : (s.dropCode k a).Inv :=
  .ite h h.setCore

theorem State.Inv.pinPhase (h : s.Inv) : (s.pinPhase va).Inv :=
  .setMyCore (h.foldl fun _ _ ht => .ite ht ht.fillCode)

theorem State.Inv.unpin (h : s.Inv) : s.unpin.Inv := h.setMyCore

theorem State.Inv.guestTouch {p : Packet} (h : s.Inv) : Run.Inv State.Inv (s.guestTouch p) := by
  unfold State.guestTouch
  split
  · exact h
  · exact .ite h h.update.touch

theorem State.Inv.countSlot {h : HiveId} {own : Option (Fin 11)} (hs : s.Inv) : (s.countSlot h own).Inv := by
  unfold State.countSlot
  dsimp only
  split
  · exact hs.setHive
  · exact hs.setHive

theorem State.Inv.tries (h : s.Inv) : s.tries.Inv := h.endWeak.setMe

theorem State.Inv.fillSlot {vec : Bool} {gap : Nat} (h : t.Inv) : (t.fillSlot u vec gap).Inv :=
  .ite h.countSlot.setCore h.setCtx.setCore

theorem State.Inv.takeSlot (h : t.Inv) : (t.takeSlot u i).Inv := .ite h h.fillSlot

theorem State.Inv.wakeLanes (h : t.Inv) : (t.wakeLanes u i).Inv := .ite h h.setDie.setCore

end

/-! ## The rules of Sys2Proof/Machine/Wires.lean -/

section
variable {s : State} {k : CoreId} {d : Dir}

theorem State.Inv.sendWire {rect : BitVec 30} {bg : Fin 4} {w : Word} (h : s.Inv) :
    (s.sendWire k rect bg d w).Inv := by
  unfold State.sendWire
  split
  · exact h
  · exact h.setDie

theorem State.Inv.forwardLatch {x : Transfer} (h : s.Inv) : (s.forwardLatch k x d).Inv :=
  .ite (h.foldl fun _ _ ht => ht.sendWire) h

theorem State.Inv.forwardCore (h : s.Inv) : (s.forwardCore k).Inv := by
  unfold State.forwardCore
  split
  · exact h
  · exact .ite h (.setCore (h.foldl fun _ _ ht => ht.forwardLatch))

theorem State.Inv.forwardAll (h : s.Inv) : s.forwardAll.Inv := h.foldl fun _ _ ht => ht.forwardCore

end

/-! ## The rules of Sys2Proof/Machine/Sync.lean -/

section
variable {s : State} {k : CoreId} {n : Fin 4} {c : CtxId} {t : Token × Nat} {north : Bool} {kind : ArrivalKind}
  {x : XForm} {i : Instr} {die : Nat}

theorem State.Inv.setBar {b : Barrier} (h : s.Inv) : (s.setBar k n b).Inv := h.setCore

theorem State.Inv.trapBlocked {t : Trap} (h : s.Inv) : (s.trapBlocked c t).Inv :=
  h.asCtx fun _ ht => ht.takeTrap

theorem State.Inv.breakBar (h : s.Inv) : (s.breakBar k n).Inv :=
  .ite (h.setBar.foldl fun _ _ ht => ht.trapBlocked) h.setBar

theorem State.Inv.sendToken {south : Bool} {t : Token} (h : s.Inv) : (s.sendToken k n south t).Inv :=
  h.setDie

theorem State.Inv.sendRelease (h : s.Inv) : (s.sendRelease k n north t).Inv := h.setDie

theorem State.Inv.forwardRelease (h : s.Inv) : (s.forwardRelease k n t).Inv :=
  .ite (.sendRelease (State.Inv.ite h.sendRelease h)) (State.Inv.ite h.sendRelease h)

theorem State.Inv.lanternDelay (h : s.Inv) : (s.lanternDelay kind).2.Inv := by
  unfold State.lanternDelay
  split
  · exact h.update
  · exact h

theorem State.Inv.parkWaiting (h : s.Inv) : (s.parkWaiting k n).Inv := .ite h.parkCtx h

theorem State.Inv.takeRelease (h : s.Inv) : (s.takeRelease k n t).Inv :=
  .ite h.breakBar (.ite h.setBar.parkWaiting h.setBar)

theorem State.Inv.withholdAt (h : s.Inv) : (s.withholdAt k n).Inv := .ite h.setBar.parkWaiting h

theorem State.Inv.grantWithheld (h : s.Inv) : (s.grantWithheld k n).Inv := .ite h.setBar h

theorem State.Inv.cornerComplete (h : s.Inv) : (s.cornerComplete k n kind).Inv :=
  .ite (h.foldl fun _ _ ht => ht.parkWaiting) h.lanternDelay.setBar.forwardRelease.takeRelease

theorem State.Inv.sweep (h : s.Inv) : (s.sweep k n).Inv := by
  unfold State.sweep
  dsimp only
  split
  · exact h
  · split
    · exact h
    · split
      · exact h
      · split
        · exact h.setBar.sendToken
        · split
          · exact h
          · exact .ite h.setBar.sendToken h.cornerComplete

theorem State.Inv.eachBar {f : State → CoreId → Fin 4 → State} (h : s.Inv)
    (hf : ∀ t k n, t.Inv → (f t k n).Inv) : (s.eachBar f).Inv :=
  h.foldl fun _ _ ht => ht.foldl fun _ _ hu => hf _ _ _ hu

theorem State.Inv.withholdAll (h : s.Inv) : s.withholdAll.Inv :=
  h.eachBar fun _ _ _ ht => ht.withholdAt

theorem State.Inv.sweepAll (h : s.Inv) : s.sweepAll.Inv :=
  h.eachBar fun _ _ _ ht => ht.grantWithheld.sweep

theorem State.Inv.compareHeld {all : Bool} (h : s.Inv) : (s.compareHeld k n all).Inv :=
  .ite h.setBar.breakBar h

theorem State.Inv.takeToken {t : Token} (h : s.Inv) : (s.takeToken k n north t).Inv :=
  .ite h.breakBar h.setBar.sweep

theorem State.Inv.passBarrier (h : s.Inv) : (s.passBarrier c).Inv := h.setCtx

theorem State.Inv.openTransfer {r : Nat} (h : s.Inv) : (s.openTransfer k n r).Inv :=
  .ite h.setCore h.setCore

theorem State.Inv.wakeBarrier (h : s.Inv) : (s.wakeBarrier k n).Inv :=
  .ite (.ite h.passBarrier.parkCtx h.passBarrier) h

theorem State.Inv.phaseStart (h : s.Inv) : (s.phaseStart k n).Inv := by
  unfold State.phaseStart
  dsimp only
  split
  · exact h
  · exact .ite h (.compareHeld (.wakeBarrier (State.Inv.ite h.setBar.openTransfer h.setBar)))

theorem State.Inv.endTransfer (h : s.Inv) : Run.Inv State.Inv s.endTransfer := by
  unfold State.endTransfer
  dsimp only
  split
  · exact h
  · exact .ite h.engineFault h.setMyCore

protected theorem State.Inv.execBgset (h : s.Inv) : NextInv (execBgset x s) :=
  .finish (.ite h.privileged (.ite h.blockIn (.ite h.engineFault h.setBar.compareHeld)))

theorem State.Inv.waitCopies (h : s.Inv) : Run.Inv State.Inv (s.waitCopies i) :=
  h.deliverCopy.bind fun _ _ => .ite h h.blockIn

theorem State.Inv.arrive (h : s.Inv) : (s.arrive n kind).Inv := h.setBar.sweep

protected theorem State.Inv.arriveAt {wait : Bool} (h : s.Inv) :
    Run.Inv State.Inv (arriveAt x i kind wait s) := by
  refine .ite h.privileged (.ite h.engineFault (.ite (.ite h.setMe h) (.ite h.blockIn (.ite h.blockIn (.bind
    (P := State.Inv) (.ite h.waitCopies h) fun _ hs1 => hs1.endTransfer.bind fun _ hs2 => ?_)))))
  extract_lets s3
  have hs3 : s3.Inv := .ite hs2.pinPhase hs2.unpin
  exact .ite hs3.blockIn.arrive hs3.setMe.arrive

protected theorem State.Inv.execBwait (h : s.Inv) : NextInv (execBwait x s) := by
  refine .finish (.ite h.privileged (.ite h.engineFault (.ite h.setMe ?_)))
  split
  · rename_i hx
    exact (h.timesOut.of_eq hx).setMe
  · exact h.blockIn

theorem State.Inv.timed {t : Nat} (h : s.Inv) : Run.Inv (fun _ => True) (s.timed i t) := by
  unfold State.timed
  split
  · exact h.engineFault
  · exact .ite h.engineFault (.ite h.blockIn (.ite trivial h.engineFault))

theorem State.Inv.setTransfer {x : Transfer} (h : s.Inv) : (s.setTransfer x).Inv := h.setMyCore

protected theorem State.Inv.execIsel (h : s.Inv) : NextInv (execIsel x s) :=
  .finish (.ite h.privileged (h.timed.map fun _ _ => h.setTransfer))

protected theorem State.Inv.execXmit (h : s.Inv) : NextInv (execXmit x s) :=
  .finish (.ite h.privileged (h.timed.bind fun _ _ => .ite h.engineFault (.ite h.engineFault h.sendWire)))

protected theorem State.Inv.execXrecv (h : s.Inv) : NextInv (execXrecv x s) :=
  .finish (.ite h.privileged (h.timed.bind fun _ _ => .ite h.blockIn (.ite h.engineFault (.ite h.engineFault
    h.setTransfer.setMe))))

protected theorem State.Inv.execBarrierTokenArrival {n : Nat} (h : s.Inv) :
    NextInv (execBarrierTokenArrival die n s) := by
  unfold execBarrierTokenArrival
  dsimp only
  split
  · exact h
  · exact .ite h (.ite h.setDie h.setDie.takeToken)

protected theorem State.Inv.execBarrierReleaseArrival {n : Nat} (h : s.Inv) :
    NextInv (execBarrierReleaseArrival die n s) := by
  unfold execBarrierReleaseArrival
  dsimp only
  split
  · exact h
  · exact .ite h (.ite h.setDie h.setDie.forwardRelease.takeRelease)

protected theorem State.Inv.execPhaseStart {bg : Fin 4} (h : s.Inv) : NextInv (execPhaseStart k bg s) :=
  State.Inv.ite h h.phaseStart

protected theorem State.Inv.execBwaitTimeout (h : s.Inv) : NextInv (execBwaitTimeout c s) := by
  refine h.retry fun _ => ?_
  split
  · exact fun _ ht => ht.execBwait
  · exact trivial

protected theorem State.Inv.execWireWordArrival {n : Nat} (h : s.Inv) :
    NextInv (execWireWordArrival die n s) := by
  unfold execWireWordArrival
  dsimp only
  split
  · exact h
  · split
    · exact h
    · split
      · exact h.setDie
      · split
        · exact h.setDie
        · exact .ite h.setDie h.setDie.setCore

end

/-! ## The rules of Sys2Proof/Machine/Contexts.lean -/

section
variable {x : XForm} {s : State} {i : Instr} {len : BitVec 2} {c : CtxId}

protected theorem State.Inv.execStart (h : s.Inv) : NextInv (execStart x s) := by
  refine .finish (.ite h.privileged (.ite h.trapAt ?_))
  split
  · exact h.setMyCore.mendAll.setMe
  · exact .ite h.setMe h.blockIn

theorem State.Inv.implicitWait (h : s.Inv) : Run.Inv State.Inv (s.implicitWait i) :=
  h.deliverCopy.bind fun _ _ => h.deliverMat.bind fun _ _ => h.deliverColl.bind fun _ _ => .ite h h.blockIn

theorem State.Inv.freeSlots (h : s.Inv) : s.freeSlots.Inv := h.setHive

theorem State.Inv.dropHandler (h : s.Inv) : s.dropHandler.Inv := h.setHive

theorem State.Inv.endContext (h : s.Inv) : s.endContext.Inv := h.setMe

protected theorem State.Inv.retireFrom (h : s.Inv) : NextInv (retireFrom len i s) :=
  .settle (.ite h.privileged (h.implicitWait.map fun _ ht => ht.freeSlots.dropHandler.endContext))

protected theorem State.Inv.yieldFrom (h : s.Inv) : NextInv (yieldFrom len s) := .finish h.setMe

protected theorem State.Inv.execYieldExpiry (h : s.Inv) : NextInv (execYieldExpiry c s) := by
  unfold execYieldExpiry
  dsimp only
  split
  · exact h
  · exact .ite h h.setCtx

theorem State.Inv.holds {c : WaitCond} (h : s.Inv) : Run.Inv (fun _ => True) (s.holds c) := by
  unfold State.holds
  split
  · trivial
  · exact h.loadMem.map fun _ _ => trivial
  · exact h.loadMem.map fun _ _ => trivial
  · trivial
  · trivial
  · split
    · exact h.engineFault
    · trivial
  · exact .ite h.engineFault trivial

theorem State.Inv.evaluate (h : s.Inv) : ∀ {cs : List WaitCond}, Run.Inv (fun _ => True) (s.evaluate cs)
  | [] => trivial
  | _ :: _ => h.holds.bind fun _ _ => h.evaluate.map fun _ _ => trivial

theorem State.Inv.deliverNamed (h : s.Inv) : ∀ {cs : List WaitCond}, Run.Inv (fun _ => True) (s.deliverNamed cs)
  | [] => trivial
  | _ :: _ =>
    .bind (P := fun _ => True) (.ite (.ite h.deliverCopy (.ite h.deliverMat h.deliverColl)) trivial)
      fun _ _ => h.deliverNamed

theorem State.Inv.checkMemoryConds (h : s.Inv) :
    ∀ {cs : List WaitCond}, Run.Inv (fun _ => True) (State.checkConds.memory s cs)
  | [] => trivial
  | _ :: _ => h.checkAccess.bind fun _ _ => h.checkMemoryConds

theorem State.Inv.checkRingConds (h : s.Inv) :
    ∀ {cs : List WaitCond}, Run.Inv (fun _ => True) (State.checkConds.rings s cs)
  | [] => trivial
  | _ :: _ => .ite h.engineFault h.checkRingConds

theorem State.Inv.checkConds {cs : List WaitCond} (h : s.Inv) : Run.Inv (fun _ => True) (s.checkConds cs) :=
  h.checkMemoryConds.bind fun _ _ => h.checkRingConds

protected theorem State.Inv.execWait (h : s.Inv) : NextInv (execWait x s) := by
  refine .finish (h.checkConds.bind fun _ _ => h.deliverNamed.bind fun _ _ => h.evaluate.bind fun _ _ =>
    .ite h.setMe ?_)
  dsimp only
  split
  · rename_i hx
    exact (h.timesOut.of_eq hx).setMe
  · exact h.blockIn

protected theorem State.Inv.execWaitEvaluate (h : s.Inv) : NextInv (execWaitEvaluate c s) := by
  refine h.retry fun _ => ?_
  split
  · exact fun _ ht => ht.execWait
  · exact trivial

protected theorem State.Inv.execWaitTimeout (h : s.Inv) : NextInv (execWaitTimeout c s) := by
  refine h.retry fun _ => ?_
  split
  · exact fun _ ht => ht.execWait
  · exact trivial

protected theorem State.Inv.execHelperAssign {k : CoreId} (h : s.Inv) : NextInv (execHelperAssign k s) := by
  refine h.retry fun _ => ?_
  split
  · exact fun _ ht => ht.execStart
  · exact trivial

end

/-! ## The rules of Sys2Proof/Machine/Image.lean -/

section
variable {s : State} {p : Nat} {k : CoreId}

theorem State.Inv.writeFields {base : Nat} {fs : List Field} (h : s.Inv) : (s.writeFields p base fs).Inv :=
  h.foldl fun _ _ ht => ht.physWrite

theorem State.Inv.logRegisters (h : s.Inv) : (s.logRegisters k).Inv := by
  refine h.foldl fun _ _ ht => ?_
  dsimp only
  split
  · exact ht.logError
  · exact ht

theorem State.Inv.writeImage (h : s.Inv) : (s.writeImage p k).Inv :=
  h.physWrite.writeFields.physWrite

theorem State.Inv.writeEngine (h : s.Inv) : (s.writeEngine p k).Inv := h.writeFields

theorem State.Inv.restoreCore (h : s.Inv) : (s.restoreCore p k).Inv := h.setCore.update

end

/-! ## The rules of Sys2Proof/Machine/Engine.lean -/

section
variable {s : State} {c : CtxId} {h : HiveId} {n : Nat} {p : Packet} {d : MatCmd} {i : Instr} {k : CoreId}
  {w : Fin 8}

theorem State.Inv.logEngine {slot : Nat} (h : s.Inv) : (s.logEngine c slot).Inv := h.logError

theorem State.Inv.admitPacket (hs : s.Inv) : (s.admitPacket h n p).Inv := hs.setHive

protected theorem State.Inv.execShipPacketArrival (hs : s.Inv) : NextInv (execShipPacketArrival h n s) := by
  unfold execShipPacketArrival
  dsimp only
  split
  · exact hs
  · exact .ite hs.admitPacket hs.setHive

protected theorem State.Inv.packetRun (h : s.Inv) : (p.run s).1.Inv := by
  unfold Packet.run
  split
  · dsimp only
    split
    · exact h
    · exact h
  · dsimp only
    split
    · rename_i hx
      exact .of_fst h.wideAtomicRun hx
    · rename_i hx
      have ht := State.Inv.of_fst h.wideAtomicRun hx
      exact .ite ht.setCtx ht

protected theorem State.Inv.packetCaches (hs : s.Inv) : (p.caches h s).Inv := by
  unfold Packet.caches
  split
  · exact hs
  · exact .crossLocal (hs.foldl fun _ _ ht => ht.atomicLine)

theorem State.Inv.retireGuest {r : Result} (hs : s.Inv) : (s.retireGuest h n p r).Inv :=
  hs.setHive.returnCredit.setHive

theorem State.Inv.runGuest (hs : s.Inv) : (s.runGuest h n p).Inv :=
  hs.countSlot.packetRun.packetCaches.retireGuest

protected theorem State.Inv.execGuestIssue (hs : s.Inv) : NextInv (execGuestIssue h n s) := by
  unfold Machine.execGuestIssue
  split
  · exact hs
  · refine .ite hs ?_
    split
    · rename_i u hx
      have hu : u.Inv := hs.guestTouch.of_hold hx
      exact hu.update
    · refine .ite hs ?_
      split
      · rename_i e u hx
        have hu : u.Inv := hs.guestTouch.of_trap hx
        exact hu.update.countSlot.retireGuest
      · exact hs.runGuest

protected theorem State.Inv.execGuestAgeingExpiry (hs : s.Inv) : NextInv (execGuestAgeingExpiry h n s) := by
  unfold execGuestAgeingExpiry
  dsimp only
  split
  · exact hs
  · exact .ite hs.setHive hs

theorem State.Inv.landTrap {t : Trap} (h : s.Inv) : (s.landTrap c t).Inv :=
  .ite (h.asCtx (fun _ ht => ht.takeTrap)) h.setCtx

protected theorem State.Inv.execShipResultLanding (hs : s.Inv) : NextInv (execShipResultLanding h n s) := by
  unfold execShipResultLanding
  dsimp only
  split
  · exact hs
  · split
    · exact hs.setHive.setCtx.landTrap
    · exact State.Inv.ite (hs.setHive.setCtx.mend.asCtx (fun _ ht => ht.afterIssue)) hs.setHive.setCtx.mend

protected theorem State.Inv.execShipRetransmit (hs : s.Inv) : NextInv (execShipRetransmit h n s) :=
  .ite hs.logError hs

protected theorem State.Inv.execGshareUpdate (hs : s.Inv) : NextInv (execGshareUpdate h s) := by
  unfold execGshareUpdate
  dsimp only
  split
  · exact hs
  · exact .ite hs.setHive hs

theorem State.Inv.storeRow {p : Option Nat} {c : MatCmd} {x : Slot} (h : s.Inv) : (s.storeRow p c x).Inv :=
  h.foldl fun _ _ ht => ht.enginePut

theorem State.Inv.setCmd (h : s.Inv) : (s.setCmd c n d).Inv := h.setMat

theorem State.Inv.matStep (h : s.Inv) : (s.matStep c n d).Inv := by
  unfold State.matStep
  dsimp only
  split
  · exact h.setSlot.setCmd
  · exact h.setSlot.setCmd
  · exact h.setSlot.setCmd
  · exact h.setCmd.setMat
  · exact h.storeRow.setCmd
  · exact h.setSlot.setCmd

theorem State.Inv.mergeFetch {b : Bool} (h : s.Inv) : (s.mergeFetch c n b).Inv := by
  unfold State.mergeFetch
  dsimp only
  split
  · exact h
  · split
    · exact h
    · exact h.foldl fun _ _ ht => ht.setCmd

theorem State.Inv.mergeIf {ok : State → MatCmd → Bool → Bool} (h : s.Inv) : (s.mergeIf c n ok).Inv := by
  refine h.foldl fun _ _ ht => ?_
  split
  · exact .ite ht.mergeFetch ht
  · exact ht

protected theorem State.Inv.matCommand : SomeKeeps (matCommand i) := by
  unfold Machine.matCommand
  split
  · exact fun _ h => h.execTfree
  · exact fun _ h => h.execTzero
  · exact fun _ h => h.execTload
  · exact fun _ h => h.execTmma
  · exact fun _ h => h.execTmmaq
  · exact fun _ h => h.execTqdesc
  · exact fun _ h => h.execTdrain
  · exact fun _ h => h.execTstore
  · trivial

theorem State.Inv.deposit {u : State} (hu : u.Inv) : (s.deposit c u).Inv := by
  unfold State.deposit
  dsimp only
  split
  · split
    · exact hu.writeImage
    · exact hu
  · exact hu

protected theorem State.Inv.execMatCommandAccept (h : s.Inv) : NextInv (execMatCommandAccept c s) :=
  .onNext (h.retryHeld (fun _ => State.Inv.matCommand)) fun _ hu => hu.deposit

theorem State.Inv.passMatTurn (h : s.Inv) : (s.passMatTurn c).Inv := h.setHive

protected theorem State.Inv.execMatStep (hs : s.Inv) : NextInv (execMatStep c n s) := by
  unfold execMatStep
  extract_lets h
  split
  · exact hs
  · exact .ite (State.Inv.ite hs.matStep.engineReads.engineWrites.passMatTurn hs) (.ite hs
      hs.setCmd.mergeIf.engineReads)

protected theorem State.Inv.execMcastWaitExpiry (h : s.Inv) : NextInv (execMcastWaitExpiry c n s) :=
  h.mergeIf

protected theorem State.Inv.execMatCommandComplete (h : s.Inv) : NextInv (execMatCommandComplete c s) := by
  unfold execMatCommandComplete
  dsimp only
  split
  · exact h
  · exact .ite h (State.Inv.setCtx (State.Inv.ite h.setMat.setSlot h.setMat))

protected theorem State.Inv.execMatFault (h : s.Inv) : NextInv (execMatFault c n s) := by
  unfold execMatFault
  dsimp only
  split
  · exact h
  · split
    · exact h
    · exact .ite h (State.Inv.setSlot (.setCtx (State.Inv.ite h.logEngine h)))

theorem State.Inv.startHandler {h : Fin 11} {row : List Nat} {s1 : Nat} (hs : s.Inv) :
    (s.startHandler c h d row s1).Inv :=
  hs.setCore.mendAll

protected theorem State.Inv.execTdrainRowDispatch (h : s.Inv) : NextInv (execTdrainRowDispatch c s) := by
  unfold execTdrainRowDispatch
  dsimp only
  split
  · exact h
  · split
    · exact h
    · split
      · split
        · exact h
        · exact h.startHandler.startHandler.setSlot.setCmd
      · exact h.startHandler.setSlot.setCmd

protected theorem State.Inv.copyCommand : SomeKeeps (copyCommand i) := by
  unfold Machine.copyCommand
  split
  · exact fun _ h => h.execCopy
  · exact fun _ h => h.execCseal
  · exact fun _ h => h.execWinadv
  · exact fun _ h => h.execWinflush
  · trivial

protected theorem State.Inv.execCopyAccept (h : s.Inv) : NextInv (execCopyAccept c s) :=
  .onNext (h.retryHeld (fun _ => State.Inv.copyCommand)) fun _ hu => hu.deposit

protected theorem State.Inv.copyCmdMove {c : CopyCmd} {p : Option Nat} {i : Nat} (h : s.Inv) :
    (c.move p i s).Inv := by
  unfold CopyCmd.move
  split
  · exact h.enginePut
  · exact h.moveElem

theorem State.Inv.passCopyTurn (h : s.Inv) : (s.passCopyTurn c).Inv := h.setHive

protected theorem State.Inv.execCopyChunk (h : s.Inv) : NextInv (execCopyChunk c n s) := by
  unfold execCopyChunk
  split
  · exact h
  · split
    · exact h
    · extract_lets t
      have ht : t.Inv := .passCopyTurn (.engineWrites (.engineReads (h.foldl fun _ _ hu => hu.copyCmdMove)))
      exact ht.setCopyQueue

protected theorem State.Inv.execCopyComplete (h : s.Inv) : NextInv (execCopyComplete c n s) := by
  unfold execCopyComplete
  split
  · exact h
  · exact .ite h h.setCopyQueue.setCtx

protected theorem State.Inv.execCopyFault (h : s.Inv) : NextInv (execCopyFault c n s) := by
  unfold execCopyFault
  split
  · exact h
  · exact .ite h h.logEngine.setCtx

theorem State.Inv.setWinAt {x : Window} (h : s.Inv) : (s.setWinAt k w x).Inv := h.setCore

protected theorem State.Inv.execTileLoadDone (h : s.Inv) : NextInv (execTileLoadDone k w s) := by
  unfold execTileLoadDone
  dsimp only
  split
  · exact h
  · split
    · exact h
    · split
      · exact h.logFound.setWinAt
      · exact .ite h h.moveElems.engineReads.setWinAt

end

/-! ## The rules of Sys2Proof/Machine/Clock.lean -/

section
variable {s : State} {ticks : Nat}

theorem State.Inv.elapse {m : Nat} (h : s.Inv) : (s.elapse m ticks).Inv := h.update

theorem State.Inv.pass {n : Nat} (h : s.Inv) : (s.pass n ticks).Inv :=
  .ite h.elapse h.forwardAll.elapse

end

/-! ## The rules of Sys2Proof/Machine/Start.lean -/

section
variable {s : State} {p va n j st : Nat} {l : Launch} {k : CoreId} {ks : List CoreId} {fresh : Bool}

theorem State.Inv.logRimWalk (h : s.Inv) : (s.logRimWalk p va).Inv := by
  unfold State.logRimWalk
  split
  · exact h
  · split
    · exact h.logFound
    · exact h

theorem State.Inv.logRim (h : s.Inv) : (s.logRim p va n).Inv := by
  unfold State.logRim
  split
  · exact h.logRimWalk
  · split
    · exact h.logFound
    · exact h

theorem State.Inv.logRims {as : List Nat} (h : s.Inv) : (s.logRims p n as).Inv := by
  unfold State.logRims
  split
  · exact h.logRim
  · exact h

theorem State.Inv.rimWrite {v : Nat} (h : s.Inv) : (s.rimWrite p va n v).Inv := by
  unfold State.rimWrite
  split
  · exact h.logRimWalk
  · exact h.put.uncache

theorem State.Inv.writeRank {r : Nat} {e : RankEntry} (h : s.Inv) : (s.writeRank l r e).Inv :=
  h.rimWrite

theorem State.Inv.mapRanks {sel : RankEntry → Bool} {f : RankEntry → RankEntry} (h : s.Inv) :
    (s.mapRanks j sel f).Inv := by
  unfold State.mapRanks
  split
  · exact h
  · refine h.setLaunch.foldl fun _ _ ht => ?_
    split
    · exact .ite ht ht.writeRank
    · exact ht

theorem State.Inv.bindStart (h : s.Inv) : (s.bindStart l st k ks fresh).Inv := by
  refine h.foldl fun _ _ ht => ?_
  dsimp only
  split
  · split
    · exact ht.setBar.setBar.compareHeld
    · exact ht.setBar
  · exact ht.setBar

theorem State.Inv.loadBytes (h : s.Inv) : ∀ {n : Nat} {a : Word}, Run.Inv (fun _ => True) (s.loadBytes a n)
  | 0, _ => trivial
  | _ + 1, _ => h.loadMem.bind fun _ _ => h.loadBytes.map fun _ _ => trivial

protected theorem State.Inv.applyEntries :
    ∀ {es : List Nat} {s : State}, s.Inv → Run.Inv State.Inv (applyEntries es s)
  | [], _, h => h
  | _ :: _, _, h => h.loadBytes.bind fun _ _ => h.winset.bind fun _ ht => ht.applyEntries

theorem State.Inv.startWindows (h : s.Inv) : (s.startWindows l st k).1.Inv := by
  unfold State.startWindows
  extract_lets t u r
  have ht : t.Inv := h.update
  have hu : u.Inv := ht.logRims
  have hr : Run.Inv State.Inv r := by
    unfold r
    split
    · exact ht.applyEntries
    · split
      · exact hu.trapAt
      · exact hu
  match r, hr with
  | .ok _, hv => exact hv.update
  | .error (.trap _ _), hv => exact State.Inv.update hv
  | .error (.hold _), hv => exact State.Inv.update hv

theorem State.Inv.applyWindows (h : s.Inv) : (s.applyWindows l st k).Inv := by
  unfold State.applyWindows
  split
  · rename_i hx
    exact (State.Inv.of_fst h.startWindows hx).setCtx
  · rename_i hx
    exact .of_fst h.startWindows hx

theorem State.Inv.copyImage (h : s.Inv) : (s.copyImage l st k).Inv := by
  refine .ite h (h.foldl fun _ _ ht => ?_)
  split
  · exact ht.write
  · exact ht.logRim

theorem State.Inv.resetMat {c : CtxId} (h : s.Inv) : (s.resetMat c).Inv := h.setMat

theorem State.Inv.resetMats (h : s.Inv) :
    (ctxNums.foldl (fun t i => t.resetMat { core := k, num := i }) s).Inv :=
  h.foldl fun _ _ ht => ht.resetMat

theorem State.Inv.startCore {index : Nat} (h : s.Inv) : (s.startCore j st ks index fresh k).Inv := by
  unfold State.startCore
  split
  · exact h
  · split
    · exact h
    · have hc {t : State} {c : Core} (ht : t.Inv) : (t.setCore k c).Inv := ht.setCore
      have hm {t : State} {c : Core} (ht : t.Inv) :
          (ctxNums.foldl (fun t i => t.resetMat { core := k, num := i }) (t.setCore k c)).Inv :=
        .resetMats (hc ht)
      refine .ite h.setCore (.applyWindows (.ite (hc ?_) ?_))
      all_goals exact .mapStage (.ite (hm (.ite h h.copyImage)) (.bindStart (hm (.ite h h.copyImage))))

theorem State.Inv.startCores :
    ∀ {rest : List CoreId} {s : State}, s.Inv → (State.startCores j st ks fresh rest s).Inv
  | [], _, h => h
  | _ :: _, _, h => h.startCore.startCores

theorem State.Inv.setShares {gs : List Group} (h : s.Inv) : (s.setShares l gs).Inv :=
  .ite h (h.foldl fun _ _ ht => ht.setHive)

theorem State.Inv.endMail (h : s.Inv) : s.endMail.Inv := h.setMyCore

theorem State.Inv.restart {x : Stage} {w : Word} (h : s.Inv) : (s.restart st l x w).Inv := by
  unfold State.restart
  exact .applyWindows (State.Inv.ite (.resetMats h.setMyCore) (.bindStart (.resetMats h.setMyCore)))

theorem State.Inv.endKernel {job : Option (Nat × Nat)} (h : s.Inv) : (s.endKernel job).Inv := by
  unfold State.endKernel
  dsimp only
  split
  · exact h.endContext.setMyCore.mapStage
  · exact h.endContext.setMyCore

protected theorem State.Inv.endFrom {len : BitVec 2} {i : Instr} (h : s.Inv) : NextInv (endFrom len i s) := by
  refine .settle (.ite h.privileged (h.implicitWait.bind fun _ ht => ?_))
  split
  · exact ht.blockIn
  · dsimp only
    split
    · exact ht.freeSlots.endMail.endKernel
    · split
      · exact ht.freeSlots.endMail.restart
      · exact ht.freeSlots.endMail.endKernel

end

/-! ## The rules of Sys2Proof/Machine/Admit.lean -/

section
variable {s : State} {p st j queue : Nat} {k : CoreId} {l : Launch} {e : Rej} {h : Queued} {seeds : List Nat}

theorem State.Inv.report {q : Queued} {event reason : Nat} {gs : List Group} (h : s.Inv) :
    (s.report p q event reason gs).Inv := by
  unfold State.report
  dsimp only
  split
  · exact .ite h h.rimWrite
  · exact h.update

theorem State.Inv.logWindows (h : s.Inv) : ∀ {ks : List CoreId}, (s.logWindows l st ks).Inv
  | [] => h
  | _ :: _ => by
    unfold State.logWindows
    split
    · exact h.logWindows
    · exact h
    · exact h

theorem State.Inv.logAllWindows (h : s.Inv) : ∀ {sts : List Nat}, (s.logAllWindows l sts).Inv
  | [] => h
  | _ :: _ => by
    unfold State.logAllWindows
    split
    · exact h.logAllWindows
    · split
      · exact h.logAllWindows
      · exact h.logWindows

theorem State.Inv.logFirst {part : Nat} {p : BitVec 11264} (h : s.Inv) : (s.logFirst part p e).Inv :=
  .ite h (.ite h.logRims h.logRims)

theorem State.Inv.logLast (h : s.Inv) : (s.logLast l e).Inv := by
  unfold State.logLast
  dsimp only
  split
  · exact h.logAllWindows
  · split
    · split
      · exact h.logRimWalk
      · split
        · exact h.logRimWalk
        · exact h
    · exact h

theorem State.Inv.copyImages : ∀ {sts : List Nat} {s : State}, s.Inv → (s.copyImages l sts).1.Inv
  | [], _, h => h
  | _ :: _, _, h => by
    unfold State.copyImages
    split
    · exact h.copyImages
    · dsimp only
      split
      · refine h.logRim.foldl fun t _ ht => ?_
        split
        · exact ht.write
        · exact ht
      · exact (h.foldl fun _ _ ht => ht.copyImage).copyImages

theorem State.Inv.raiseSplit {n : Nat} {h : HiveId} (hs : s.Inv) : (s.raiseSplit j n h).Inv :=
  .setHive (State.Inv.clear (hs.foldl fun _ _ ht => ht.evict))

theorem State.Inv.dropSplits (h : s.Inv) : (s.dropSplits j).Inv := h.update

theorem State.Inv.setSplits (h : s.Inv) : (s.setSplits j l).Inv :=
  .ite h (h.foldl fun _ _ ht => ht.raiseSplit)

theorem State.Inv.spillSeeds (h : s.Inv) : (s.spillSeeds l st k seeds).Inv :=
  h.foldl fun _ _ ht => ht.rimWrite

theorem State.Inv.holdSeeds (h : s.Inv) : (s.holdSeeds k seeds).Inv := h.setCore

theorem State.Inv.eachShare {f : State → CoreId → List Nat → State} (h : s.Inv)
    (hf : ∀ t k v, t.Inv → (f t k v).Inv) : (s.eachShare l st seeds f).Inv := by
  unfold State.eachShare
  split
  · exact h
  · refine h.foldl fun _ _ ht => ?_
    split
    · exact hf _ _ _ ht
    · exact ht

theorem State.Inv.storeSeeds (h : s.Inv) : (s.storeSeeds l st seeds).Inv :=
  h.eachShare fun _ _ _ ht => ht.spillSeeds

theorem State.Inv.placeSeeds (h : s.Inv) : (s.placeSeeds j l st seeds).Inv :=
  .mapStage (h.eachShare (fun _ _ _ ht => ht.holdSeeds))

theorem State.Inv.recordSeeds {ks new : List CoreId} (h : s.Inv) : (s.recordSeeds l ks new).Inv :=
  h.foldl fun _ _ ht => ht.record

theorem State.Inv.recordAdmission (h : s.Inv) : (s.recordAdmission l).Inv := by
  refine h.record.continueRecord.foldl fun _ _ ht => ?_
  split
  · exact ht
  · exact .ite ht.recordSeeds ht

theorem State.Inv.startStages : ∀ {sts : List Nat} {s : State}, s.Inv → (State.startStages j l sts s).Inv
  | [], _, h => h
  | _ :: _, _, h => by
    unfold State.startStages
    split
    · exact h.startStages
    · exact h.startCores.startStages

theorem State.Inv.switchMode (h : s.Inv) : (s.switchMode p queue).Inv := by
  unfold State.switchMode
  dsimp only
  split
  · exact h
  · split
    · exact h.setPart.record
    · split
      · split
        · exact .ite h.setPart.applyEntry.setPart h.setPart
        · exact h.setPart
      · exact h.setPart

theorem State.Inv.makeResident {seeds : List (List Nat)} (h : s.Inv) : (s.makeResident j l seeds).Inv := by
  unfold State.makeResident
  extract_lets p ranks l1 t t1 t2 t3 t4 t5
  have ht : t.Inv := h.setLaunch.foldl fun _ _ ht1 => ht1.storeSeeds
  have ht1 : t1.Inv := ht.foldl fun _ _ ht2 => by
    split
    · exact ht2.writeRank
    · exact ht2
  have ht4 : t4.Inv := ht1.setShares.startStages.foldl fun _ _ ht5 => ht5.placeSeeds
  exact ht4.recordAdmission.report

theorem State.Inv.allotFor {t : State} {gs : List (List Group)} (h : s.Inv) (e : s.allotFor l = some (t, gs)) :
    t.Inv := by
  unfold State.allotFor at e
  split at e
  · split at e
    · simp at e
    · dsimp only at e
      split at e
      · simp only [Option.some.injEq, Prod.mk.injEq] at e
        exact e.1 ▸ h.applyEntry
      · simp at e
  · simp only [Option.map_eq_some_iff, Prod.mk.injEq] at e
    obtain ⟨_, _, rfl, _⟩ := e
    exact h

theorem State.Inv.dequeue (h : s.Inv) : (s.dequeue p queue).Inv := h.setPart

theorem State.Inv.rejectHead (hs : s.Inv) : (s.rejectHead p queue h e).2.Inv := hs.dequeue.report

theorem State.Inv.prepareLaunch (h : s.Inv) : (s.prepareLaunch l).1.Inv :=
  h.update.setSplits.copyImages

theorem State.Inv.admitHead {was : State} (hwas : was.Inv) (hs : s.Inv) :
    (was.admitHead s p queue h l).2.Inv := by
  unfold State.admitHead
  dsimp only
  split
  · exact hwas.prepareLaunch.dropSplits.rejectHead
  · rename_i hx
    exact (State.Inv.of_fst hs.prepareLaunch hx).dequeue.makeResident

theorem State.Inv.tryAdmit (h : s.Inv) : (s.tryAdmit p queue).2.Inv := by
  unfold State.tryAdmit
  split
  · exact h
  · split
    · exact h.logFirst.rejectHead
    · split
      · exact h
      · rename_i hx
        have ht := h.switchMode.allotFor hx
        dsimp only
        split
        · exact h.logLast.rejectHead
        · exact h.admitHead ht

end

/-! ## The rules of Sys2Proof/Machine/Launch.lean -/

section
variable {s : State} {k : CoreId} {p j part st launch : Nat} {gs : List Group} {ks : List CoreId}

theorem State.Inv.enginesFollow {h : HiveId} (hs : s.Inv) : (s.enginesFollow h).Inv := hs.setHive

theorem State.Inv.releaseCore (h : s.Inv) : (s.releaseCore k).Inv :=
  h.setHive.setCore.setDie.enginesFollow.update

theorem State.Inv.groupsFreed (h : s.Inv) : (s.groupsFreed p).Inv := h.setPart

theorem State.Inv.freeShares (h : s.Inv) : (s.freeShares gs).Inv :=
  h.foldl fun _ _ ht => .ite ht.setHive ht

theorem State.Inv.dropLaunch (h : s.Inv) : (s.dropLaunch j).Inv := by
  unfold State.dropLaunch
  split
  · exact h
  · exact .groupsFreed (.freeShares (State.Inv.update (State.Inv.dropSplits (h.foldl fun _ _ ht =>
      ht.releaseCore))))

theorem State.Inv.abortLaunch (h : s.Inv) : (s.abortLaunch j).Inv := by
  unfold State.abortLaunch
  split
  · exact h
  · exact h.dropLaunch.report

theorem State.Inv.abortPart (h : s.Inv) : (s.abortPart p).Inv :=
  h.foldl fun _ _ ht => ht.abortLaunch

theorem State.Inv.arrivePacket {h : Queued} (hs : s.Inv) : (s.arrivePacket p h).Inv :=
  .ite hs.report hs.setPart.record.continueRecord.report

theorem State.Inv.rejectUnread {a : Nat} (h : s.Inv) : (s.rejectUnread p a).Inv := by
  unfold State.rejectUnread
  split
  · exact h.report
  · exact h

theorem State.Inv.dropSubmission (h : s.Inv) : (s.dropSubmission p).Inv := h.setPart

protected theorem State.Inv.execDbpkt {page : DoorbellPage} {addr : Word} (h : s.Inv) :
    NextInv (execDbpkt page addr s) := by
  unfold execDbpkt
  split
  · exact h
  · split
    · exact h
    · split
      · exact h.dropSubmission
      · split
        · exact h.arrivePacket
        · exact h.logRims.rejectUnread

protected theorem State.Inv.execFabricSubmission {source head : Nat} {packet : BitVec 11264} (h : s.Inv) :
    NextInv (execFabricSubmission source head packet s) :=
  .ite h (.ite h.arrivePacket h.dropSubmission)

theorem State.Inv.drawOf {t : State} {r : Word × Nat × Bool} (h : s.Inv) (e : s.drawOf p = some (t, r)) :
    t.Inv := by
  unfold State.drawOf at e
  dsimp only at e
  split at e
  · simp only [Option.map_eq_some_iff, Prod.mk.injEq] at e
    obtain ⟨_, _, rfl, _⟩ := e
    exact h.applyEntry
  · simp only [Option.map_eq_some_iff, Prod.mk.injEq] at e
    obtain ⟨_, _, rfl, _⟩ := e
    exact h.record

protected theorem State.Inv.execLotteryDraw (h : s.Inv) : NextInv (execLotteryDraw part s) := by
  unfold Machine.execLotteryDraw
  refine .ite h ?_
  split
  · exact h
  · rename_i hx
    exact (h.drawOf hx).setPart.tryAdmit.setPart

protected theorem State.Inv.execForcedHeadRetry (h : s.Inv) : NextInv (execForcedHeadRetry part s) := by
  unfold execForcedHeadRetry
  dsimp only
  split
  · exact h
  · exact .ite h h.setPart.tryAdmit.setPart

theorem State.Inv.joinStage (h : s.Inv) : (s.joinStage j st gs).Inv := by
  unfold State.joinStage
  split
  · exact h
  · dsimp only
    split
    · exact h.mapStage.setShares
    · exact h.mapStage.setShares.startCores.recordSeeds

theorem State.Inv.endRanks (h : s.Inv) : (s.endRanks j ks).Inv := h.mapRanks

theorem State.Inv.leaveStage (h : s.Inv) : (s.leaveStage j st gs).Inv := by
  unfold State.leaveStage
  split
  · exact h
  · exact h.mapStage

theorem State.Inv.endContexts (h : s.Inv) : (s.endContexts k).Inv := h.setCore

protected theorem State.Inv.execGovernorSample (h : s.Inv) : NextInv (execGovernorSample launch s) := by
  unfold execGovernorSample
  split
  · exact h
  · exact .ite h h.setLaunch

theorem State.Inv.inTransit (h : s.Inv) : (s.inTransit j ks).Inv := h.mapRanks

theorem State.Inv.arrived (h : s.Inv) : (s.arrived j ks).Inv := h.mapRanks

protected theorem State.Inv.execGroupMove {ring : Nat} (h : s.Inv) : NextInv (execGroupMove launch ring s) := by
  unfold Machine.execGroupMove
  split
  · exact h
  · split
    · exact h
    · refine .ite h ?_
      split
      · exact h
      · refine State.Inv.arrived (State.Inv.joinStage (State.Inv.inTransit (State.Inv.leaveStage ?_)))
        exact State.Inv.foldl h.fresh.setLaunch fun _ _ ht => ht.endContexts

theorem State.Inv.passGroups (h : s.Inv) : (s.passGroups j st gs).Inv := by
  unfold State.passGroups
  split
  · exact h
  · extract_lets big t give rest t1 t2 t3
    have ht1 : t1.Inv := h.leaveStage.foldl fun _ _ ht => ht.releaseCore
    have ht2 : t2.Inv := .ite ht1 ht1.groupsFreed
    have ht3 : t3.Inv := by
      unfold t3
      split
      · exact .ite ht2 ht2.endRanks.joinStage
      · exact ht2
    exact ht3.freeShares

theorem State.Inv.finishLaunch (h : s.Inv) : (s.finishLaunch j).Inv := by
  unfold State.finishLaunch
  split
  · exact h
  · exact .ite h.dropLaunch.report h

protected theorem State.Inv.execStageComplete {stage : Nat} (h : s.Inv) :
    NextInv (execStageComplete launch stage s) := by
  unfold execStageComplete
  split
  · exact h
  · exact .ite h h.setLaunch.mapStage.passGroups.finishLaunch

end

/-! ## The rules of Sys2Proof/Machine/Preempt.lean -/

section
variable {s : State} {k k' : CoreId} {p part : Nat}

theorem State.Inv.reach (h : s.Inv) : (s.reach k).Inv := .ite h.setCore h

protected theorem State.Inv.execPreemptionRequest (h : s.Inv) : NextInv (execPreemptionRequest k s) :=
  State.Inv.ite h.reach h

theorem State.Inv.haltCore {forced : Bool} (h : s.Inv) : (State.haltCore forced s k).Inv :=
  .ite (.ite h.setCore.groupParked h.setCore) h

protected theorem State.Inv.execCoreHalt (h : s.Inv) : NextInv (execCoreHalt k s) :=
  .ite h (h.foldl fun _ _ ht => ht.haltCore)

theorem State.Inv.setTransit {b : Bool} (h : s.Inv) : (s.setTransit k b).Inv := by
  unfold State.setTransit
  split
  · exact h.mapRanks
  · exact h

theorem State.Inv.saveCore (h : s.Inv) : (s.saveCore p k).Inv := by
  unfold State.saveCore
  exact State.Inv.notify (State.Inv.setCore h.logRegisters.writeImage.writeEngine.setTransit)

protected theorem State.Inv.execCoreSave (h : s.Inv) : NextInv (execCoreSave k s) := by
  unfold execCoreSave
  dsimp only
  split
  · exact h
  · exact .ite h.saveCore h

theorem State.Inv.rejoin (h : s.Inv) : (s.rejoin k).Inv :=
  h.foldl fun _ _ ht => .ite (.wakeBarrier (State.Inv.ite ht.breakBar ht)) (State.Inv.ite ht.breakBar ht)

theorem State.Inv.resumeCore (h : s.Inv) : (s.resumeCore k).Inv :=
  .ite h.setCore.rejoin.setCore h.setCore.rejoin.settlePark

theorem State.Inv.resumeGang (h : s.Inv) : (s.resumeGang k).Inv :=
  .ite (h.foldl fun _ _ ht => ht.resumeCore) h

theorem State.Inv.restoreSaved (h : s.Inv) : (s.restoreSaved p k).Inv :=
  .ite h.setCore.notify h.restoreCore.setTransit.setCore.enginesFollow.notify

theorem State.Inv.withdraw (h : s.Inv) : (s.withdraw p k).Inv :=
  .ite h.setCore.restoreSaved h.setCore

theorem State.Inv.moveEngine (h : s.Inv) : (s.moveEngine k k').Inv := h.setHive.setHive

theorem State.Inv.spillEntries {c : Core} :
    ∀ {es : List (BitVec 256)} {n : Nat} {s : State}, s.Inv → (s.spillEntries p c es n).1.Inv
  | [], _, _, h => h
  | _ :: _, _, _, h => by
    unfold State.spillEntries
    dsimp only
    split
    · exact h
    · split
      · exact h.put.uncache.spillEntries
      · exact h

theorem State.Inv.spillDeque (h : s.Inv) : (s.spillDeque p k).Inv := h.spillEntries.setCore

theorem State.Inv.moveCore (h : s.Inv) : (s.moveCore p k k').Inv := by
  unfold State.moveCore
  extract_lets t old t1 t2 t3 t4 t5
  have ht1 : t1.Inv := .ite h.restoreCore h.restoreCore.copyBytes.clear
  have ht2 : t2.Inv := ht1.moveEngine.foldl fun _ _ ht => ht.endWeak
  split
  · exact ht2.setCore.setCore.enginesFollow.update
  · dsimp only
    split
    · exact ht2.setCore.setCore.enginesFollow.update.mapStage.mapRanks
    · exact ht2.setCore.setCore.enginesFollow.update.mapStage.mapRanks.setLaunch

theorem State.Inv.finishMove (h : s.Inv) : (s.finishMove k').Inv := h.notify.resumeGang

protected theorem State.Inv.execContextMove (h : s.Inv) : NextInv (execContextMove k k' s) := by
  unfold execContextMove
  split
  · exact h
  · exact .ite h (.ite h.notify (.ite h.notify (.ite h.spillDeque h.spillDeque.moveCore.finishMove)))

theorem State.Inv.shoot {r : Shootdown} (h : s.Inv) : (s.shoot p r).Inv := h.update

protected theorem State.Inv.execShootdownComplete (h : s.Inv) : NextInv (execShootdownComplete part s) := by
  unfold execShootdownComplete
  dsimp only
  split
  · exact h
  · exact .ite h.setPart.postNotice (.ite h h.setPart.shoot)

protected theorem State.Inv.execShootdownRequest (h : s.Inv) : NextInv (execShootdownRequest part s) := by
  unfold execShootdownRequest
  split
  · exact h
  · refine h.retry fun _ => ?_
    split
    · exact fun _ ht => ht.execStp
    · exact trivial

theorem State.Inv.faultMessages (h : s.Inv) : (s.faultMessages k).Inv := by
  unfold State.faultMessages
  dsimp only
  split
  · exact h.foldl fun _ _ ht => .ite ht (ht.foldl fun _ _ hu => hu.breakBar)
  · exact .foldl (h.foldl fun _ _ ht => .ite ht (ht.foldl fun _ _ hu => hu.breakBar)) fun _ _ ht => ht.setCore

theorem State.Inv.fenceCore (h : s.Inv) : (s.fenceCore k).Inv :=
  .ite h h.faultMessages.setCore.setTransit.notify.postEvent

theorem State.Inv.fencePolicy (h : s.Inv) : (s.fencePolicy k).Inv := by
  unfold State.fencePolicy
  split
  · exact .ite h.setCore h.abortLaunch
  · exact h

protected theorem State.Inv.execHeartbeatMiss (h : s.Inv) : NextInv (execHeartbeatMiss k s) :=
  .ite (State.Inv.foldl (h.foldl fun _ _ ht => ht.fenceCore) fun _ _ ht => ht.fencePolicy) h

protected theorem State.Inv.execFenceQuiescenceTimeout (h : s.Inv) :
    NextInv (execFenceQuiescenceTimeout k s) := by
  unfold execFenceQuiescenceTimeout
  dsimp only
  split
  · exact .ite h.abortLaunch h
  · exact h

theorem State.Inv.fenceImage (h : s.Inv) : (s.fenceImage p k).Inv :=
  .ite h.logRegisters.writeImage.writeEngine.setCore h

theorem State.Inv.rehome {j : Job} {gs : List Group} (h : s.Inv) : (s.rehome p j gs k k').Inv :=
  h.joinStage.endRanks.endContexts.mapStage.moveCore.setCore.finishMove

protected theorem State.Inv.execFenceRehome (h : s.Inv) : NextInv (execFenceRehome k k' s) := by
  unfold execFenceRehome
  split
  · dsimp only
    split
    · exact h
    · split
      · exact h.fenceImage
      · split
        · exact h.fenceImage.notify
        · split
          · exact h.fenceImage
          · exact h.fenceImage.rehome
  · exact h

end

/-! ## The rules of Sys2Proof/Machine/Power.lean -/

section
variable {s : State} {k : CoreId} {g : SegId}

theorem State.Inv.recordAll {type payload aux : Nat} (h : s.Inv) : (s.recordAll type payload aux).Inv :=
  h.foldl fun _ _ ht => ht.record

theorem State.Inv.holdCore (h : s.Inv) : (s.holdCore k).Inv := .ite h.setCore.settlePark h

theorem State.Inv.freeCore (h : s.Inv) : (s.freeCore k).Inv :=
  .ite h (.ite (.ite h.setCore.resumeGang h.setCore) h.setCore)

theorem State.Inv.setActive {a : Nat} (h : s.Inv) : (s.setActive a).Inv := by
  unfold State.setActive
  refine .ite h (.ite (State.Inv.withholdAll ?_) (State.Inv.sweepAll ?_))
  · exact State.Inv.foldl h.update.recordAll fun _ _ ht => ht.holdCore
  · exact State.Inv.foldl h.update.recordAll fun _ _ ht => ht.freeCore

theorem State.Inv.followTarget (h : s.Inv) : s.followTarget.Inv := .ite h.setActive h

theorem State.Inv.setSegment {x : Segment} (h : s.Inv) : (s.setSegment g x).Inv := h.setDie

theorem State.Inv.settlePower (h : s.Inv) : s.settlePower.Inv := by
  unfold State.settlePower
  split
  · exact h
  · exact h.update.foldl fun _ _ ht => ht.setSegment

theorem State.Inv.allActive (h : s.Inv) : s.allActive.Inv := h.update.setActive

theorem State.Inv.validFrame {p : BitVec 320} (h : s.Inv) : (s.validFrame p).Inv :=
  .ite h.settlePower.update.recordAll.followTarget h.settlePower.update.recordAll.allActive

protected theorem State.Inv.execTelemetryFrame {f : EthFrame} (h : s.Inv) : NextInv (execTelemetryFrame f s) :=
  .ite h (.ite h.validFrame h.update)

protected theorem State.Inv.execTelemetryLoss (h : s.Inv) : NextInv (execTelemetryLoss s) :=
  .ite h h.update.followTarget

protected theorem State.Inv.execActiveCountRise (h : s.Inv) : NextInv (execActiveCountRise s) :=
  .ite h.setActive h

theorem State.Inv.parkHalted (h : s.Inv) : (s.parkHalted k).Inv := h.setCore.groupParked

theorem State.Inv.forceCore (h : s.Inv) : (s.forceCore k).Inv :=
  .ite h (.ite h.parkHalted (.ite h.reach.setCore h.reach))

protected theorem State.Inv.execForcedShed (h : s.Inv) : NextInv (execForcedShed k s) := by
  unfold execForcedShed
  dsimp only
  split
  · exact h
  · exact .ite (h.foldl fun _ _ ht => ht.forceCore) h

theorem State.Inv.switchOff {p : Nat} (h : s.Inv) : (s.switchOff p k).Inv :=
  .ite h (.ite h.spillDeque h.spillDeque.setCore.enginesFollow)

protected theorem State.Inv.execParkedSwitchOff (h : s.Inv) : NextInv (execParkedSwitchOff k s) := by
  unfold execParkedSwitchOff
  dsimp only
  split
  · exact .ite h (.ite h.switchOff (.ite h.setCore.saveCore.switchOff h))
  · exact h

protected theorem State.Inv.execCoreSwitchOn (h : s.Inv) : NextInv (execCoreSwitchOn k s) := by
  unfold execCoreSwitchOn
  dsimp only
  split
  · exact h
  · exact .ite h (.ite h.setDie.restoreSaved.resumeGang.sweepAll h.setDie.restoreSaved)

protected theorem State.Inv.execDividerWindowEnd (h : s.Inv) : NextInv (execDividerWindowEnd k s) :=
  .ite h h.setCore

protected theorem State.Inv.execSegmentVoltageReached (h : s.Inv) :
    NextInv (execSegmentVoltageReached g s) := by
  refine h.setSegment.foldl fun _ _ ht => ?_
  dsimp only
  split
  · exact .ite ht.setCore ht
  · exact ht

protected theorem State.Inv.execDroopTrip (h : s.Inv) : NextInv (execDroopTrip g s) :=
  .ite h (.ite h.setSegment (h.setSegment.foldl fun _ _ ht => ht.setCore))

protected theorem State.Inv.execDroopRecovery (h : s.Inv) : NextInv (execDroopRecovery k s) := by
  unfold execDroopRecovery
  dsimp only
  split
  · exact h
  · exact .ite h.setCore h

end

/-! ## The rules of Sys2Proof/Machine/Errors.lean -/

section
variable {s : State} {d : Dump} {p cause die unit pos : Nat} {dies : List Nat}

theorem State.Inv.keepDump (h : s.Inv) : (s.keepDump d).Inv := h.update.postEvent

theorem State.Inv.storeDump (h : s.Inv) : (s.storeDump p d).Inv := .ite h.writeBytes h

theorem State.Inv.partFatal (h : s.Inv) : (s.partFatal p cause dies).Inv :=
  h.abortPart.setPart.storeDump.keepDump

theorem State.Inv.moduleFatal (h : s.Inv) : (s.moduleFatal cause dies).Inv :=
  .keepDump (h.foldl fun _ _ ht => ht.abortLaunch)

theorem State.Inv.markFaulty (h : s.Inv) : (s.markFaulty die unit pos).Inv := by
  unfold State.markFaulty
  split
  · split
    · exact h.update
    · exact h
  · split
    · dsimp only
      split
      · exact h.setSlot
      · exact h
    · split
      · exact h.update
      · exact h

theorem State.Inv.dropClean (h : s.Inv) : (s.dropClean die unit pos).Inv := by
  unfold State.dropClean
  split
  · split
    · exact h.setHive.foldl fun _ _ ht => ht.setCore
    · exact h
  · exact .ite (h.update.foldl fun _ _ ht => ht.setEntry) h

protected theorem State.Inv.execErrorDetected {cls : ErrClass} {part : Option Nat} (h : s.Inv) :
    NextInv (execErrorDetected die cls unit pos part s) := by
  unfold execErrorDetected
  dsimp only
  split
  · exact h.logError
  · exact h.logError.dropClean
  · exact h.logError.markFaulty
  · exact h.logError.markFaulty
  · split
    · exact State.Inv.ite h.logError.partFatal h.logError
    · exact h.logError
  · exact h.logError.moduleFatal

theorem State.Inv.setLink {d : Nat} {x : Dir} {l : Link} (h : s.Inv) : (s.setLink d x l).Inv :=
  h.setDie

protected theorem State.Inv.execLinkLaneFailure {d : Dir} (h : s.Inv) : NextInv (execLinkLaneFailure die d s) :=
  h.setLink

protected theorem State.Inv.execLinkDown {d : Dir} (h : s.Inv) : NextInv (execLinkDown die d s) :=
  State.Inv.ite h.setLink h.setLink.moduleFatal

protected theorem State.Inv.execReplayDivergence {part launch : Nat} (h : s.Inv) :
    NextInv (execReplayDivergence part launch s) := by
  unfold execReplayDivergence
  dsimp only
  split
  · exact h
  · exact .ite h.abortLaunch.postEvent h

theorem State.Inv.afterReset : s.afterReset.Inv := State.Inv.reset.update

theorem State.Inv.bootFails {stage : Nat} (h : s.Inv) : (s.bootFails stage).Inv := h.update

protected theorem State.Inv.execModuleReset : NextInv (execModuleReset s) := by
  unfold Machine.execModuleReset
  have h : s.afterReset.Inv := State.Inv.afterReset
  generalize s.afterReset = t at h
  refine .ite h.bootFails ?_
  split
  · exact h.bootFails
  · exact .ite h.update.bootFails (.ite h.update.update.bootFails (.ite h.update.update.bootFails h))

end

/-! ## The rules of Sys2Proof/Machine/Fence.lean -/

section
variable {s : State} {x : MForm} {scope line : Nat}

theorem State.Inv.checkLine {acc : Acc} (h : s.Inv) : Run.Inv (fun _ => True) (s.checkLine acc x) :=
  h.translate.bind fun _ _ => .ite h.trapAt trivial

theorem State.Inv.clean (h : s.Inv) : (s.clean scope line).Inv := h.update

protected theorem State.Inv.execCclean (h : s.Inv) : NextInv (execCclean x s) :=
  .finish (h.checkLine.map fun _ _ => .ite h.clean h)

theorem State.Inv.flushOwn {k : CoreId} (h : s.Inv) : (s.flushOwn k line).Inv :=
  .ite h.dropLine.setEntry h

theorem State.Inv.flush (h : s.Inv) : (s.flush scope line).Inv :=
  .ite h.flushOwn (.ite h.dropCopies (h.foldl fun _ _ ht => ht.dropCopies))

protected theorem State.Inv.execCflush (h : s.Inv) : NextInv (execCflush x s) :=
  .finish (h.checkLine.map fun _ _ => .ite h.flush h)

protected theorem State.Inv.execCinv (h : s.Inv) : NextInv (execCinv x s) :=
  .finish (h.checkLine.map fun _ _ => .ite h.setMyCore h)

end

/-! ## The rules of Sys2Proof/Machine/Firmware.lean -/

section
variable {s was : State} {dst data p die n slot : Nat} {c : Cmd} {kind : UnitKind} {units : List Nat}
  {h : HiveId} {cores ks : List CoreId} {k : CoreId} {scope : DumpScope}

theorem State.Inv.send {dst : Option Nat} {bs : List Byte} (h : s.Inv) : (s.send dst bs).Inv :=
  h.update

protected theorem State.Inv.execHostRead {fn bar off : Nat} (h : s.Inv) : NextInv (execHostRead fn bar off s) :=
  h.send

theorem State.Inv.complete {status : Nat} (h : s.Inv) : (s.complete c status data).Inv := h.update

theorem State.Inv.command {r : Except Nat (State × Nat)} (h : s.Inv) (hr : CmdInv r) :
    NextInv (s.command c r) := by
  unfold State.command
  refine .ite h (.ite h.complete ?_)
  match r, hr with
  | .ok (_, _), ht => exact State.Inv.complete ht
  | .error _, _ => exact h.complete

theorem State.Inv.query {always : Bool} (h : s.Inv) : NextInv (s.query c always data) :=
  .ite h (.ite h.complete h.complete)

protected theorem State.Inv.checked {checks : List (Bool × Nat)} {t : State} (h : t.Inv) :
    CmdInv (checked checks t) := by
  unfold Machine.checked
  cases refuseIf checks with
  | error n => trivial
  | ok u => exact h

protected theorem State.Inv.execInfo (h : s.Inv) : NextInv (execInfo c s) := h.query

theorem State.Inv.defaultKey (h : s.Inv) : (State.defaultKey p s die).Inv := by
  unfold State.defaultKey
  dsimp only
  split
  · exact h
  · exact h.setDie.update

protected theorem State.Inv.execPartCreate {a : PartArgs} (h : s.Inv) : NextInv (execPartCreate c a s) :=
  h.command (State.Inv.checked (h.setPart.foldl fun _ _ ht => ht.defaultKey))

theorem State.Inv.flushPart (h : s.Inv) : (s.flushPart p).Inv := h.update

theorem State.Inv.giveUnit (h : s.Inv) : (State.giveUnit p die kind s n).Inv := by
  unfold State.giveUnit
  split
  · exact h.setHive
  · exact h.setDie

protected theorem State.Inv.execPartAssign (h : s.Inv) : NextInv (execPartAssign c die kind units s) :=
  h.command (State.Inv.checked (.groupsFreed (h.foldl fun _ _ ht => ht.giveUnit)))

theorem State.Inv.takeHive (hs : s.Inv) : (s.takeHive h).Inv :=
  .foldl (State.Inv.clear (State.Inv.setHive (hs.foldl fun _ _ ht => ht.setCore))) fun _ _ hu => hu.clear

theorem State.Inv.takeUnit (h : s.Inv) : (State.takeUnit p die kind s n).Inv := by
  unfold State.takeUnit
  split
  · exact h.takeHive
  · exact h.flushPart.setDie

theorem State.Inv.change {run : State → Except Nat (State × Nat)} (h : s.Inv)
    (hrun : ∀ t, t.Inv → CmdInv (run t)) : NextInv (s.change c run) := by
  unfold State.change
  split
  · exact State.Inv.command h.update (hrun _ h.update)
  · split
    · exact .ite (h.command (hrun s h)) h
    · exact h.command trivial

protected theorem State.Inv.execPartRelease (h : s.Inv) : NextInv (execPartRelease c die kind units s) :=
  h.change fun _ ht => State.Inv.checked (ht.foldl fun _ _ hu => hu.takeUnit)

protected theorem State.Inv.execPartDestroy (h : s.Inv) : NextInv (execPartDestroy c s) :=
  h.change fun _ ht => ht.setPart.update.checked

protected theorem State.Inv.execPartSet {a : PartSetArgs} (h : s.Inv) : NextInv (execPartSet c a s) :=
  h.command (State.Inv.checked (h.setPart.foldl fun _ _ ht => ht.setDie))

theorem State.Inv.rekeyLine {line : Nat} (h : s.Inv) : (was.rekeyLine s line).Inv :=
  .ite h h.writeBytes.update

theorem State.Inv.rekeyed (h : s.Inv) : (was.rekeyed s die).Inv :=
  h.foldl fun _ _ ht => ht.rekeyLine

protected theorem State.Inv.execKrangeSet {v : BitVec 128} (h : s.Inv) : NextInv (execKrangeSet c die n v s) :=
  h.command h.setDie.rekeyed.checked

theorem State.Inv.emptyKey (h : s.Inv) : (State.emptyKey slot s die).Inv := h.setDie

protected theorem State.Inv.execKeyZeroise {dies : List Nat} (h : s.Inv) :
    NextInv (execKeyZeroise c dies slot s) :=
  h.command (State.Inv.checked (h.foldl fun _ _ ht => ht.emptyKey))

protected theorem State.Inv.execPreempt {save : Bool} (h : s.Inv) : NextInv (execPreempt c cores save s) :=
  h.command (State.Inv.checked (h.foldl fun _ _ ht => ht.setCore))

protected theorem State.Inv.execAbort {lid : BitVec 32} (h : s.Inv) : NextInv (execAbort c lid s) := by
  refine h.command ?_
  split
  · exact h.abortLaunch
  · exact trivial

protected theorem State.Inv.execRestore (h : s.Inv) : NextInv (execRestore c cores s) := by
  unfold execRestore
  extract_lets t t1
  have ht : t.Inv := h.foldl fun _ _ ht1 => ht1.withdraw
  have ht1 : t1.Inv := ht.foldl fun _ _ hu => .ite hu.resumeGang hu
  exact h.command ht1.checked

protected theorem State.Inv.execPwrQuery (h : s.Inv) : NextInv (execPwrQuery c s) := h.query

protected theorem State.Inv.execRecQuery (h : s.Inv) : NextInv (execRecQuery c s) := h.query

protected theorem State.Inv.execErrlogRead (h : s.Inv) : NextInv (execErrlogRead c die dst s) :=
  h.fresh.command h.fresh.send.checked

theorem State.Inv.unfence (h : s.Inv) : (s.unfence k).Inv := by
  unfold State.unfence
  dsimp only
  split
  · exact h
  · split
    · exact h.setCore.saveCore
    · exact h.setCore

protected theorem State.Inv.execFenceClear (h : s.Inv) : NextInv (execFenceClear c k s) :=
  h.fresh.command h.fresh.unfence.checked

theorem State.Inv.clearLocals (hs : s.Inv) : (s.clearLocals h).Inv :=
  hs.foldl fun _ _ ht => ht.clear

theorem State.Inv.repairSave (h : s.Inv) : (State.repairSave p s ks).Inv :=
  .foldl (h.foldl fun _ _ hu => hu.foldl fun _ _ ht => ht.haltCore) fun _ _ hu => hu.saveCore

theorem State.Inv.repairRestore (h : s.Inv) : (State.repairRestore p was s ks).Inv :=
  .foldl (h.foldl fun _ _ ht => ht.restoreSaved.setCore) fun _ _ ht => ht.resumeGang

protected theorem State.Inv.execRepairHive (hs : s.Inv) : NextInv (execRepairHive c h s) := by
  unfold Machine.execRepairHive
  dsimp only
  generalize hiveCores h = ks
  refine .ite (hs.command trivial) ?_
  split
  · exact hs.command trivial
  · refine .ite hs ?_
    split
    · exact hs.command (State.Inv.clearLocals (hs.logFound.foldl fun _ _ ht => ht.abortLaunch))
    · exact hs.command (hs.repairSave.setDie.repairRestore.foldl fun _ _ ht => ht.unfence)

protected theorem State.Inv.execRepairSlice {j : Nat} (h : s.Inv) : NextInv (execRepairSlice die j s) := by
  unfold execRepairSlice
  dsimp only
  split
  · exact h
  · exact .ite h h.setDie

theorem State.Inv.backInUse (h : s.Inv) : (s.backInUse scope).Inv := by
  unfold State.backInUse
  split
  · exact h
  · exact h.setPart.groupsFreed

protected theorem State.Inv.execDumpRead {len : Nat} (h : s.Inv) :
    NextInv (execDumpRead c scope dst len s) := by
  unfold execDumpRead
  split
  · exact h
  · split
    · exact h.complete
    · split
      · exact h.complete
      · exact h.send.backInUse.complete

protected theorem State.Inv.execDumpDiscard (h : s.Inv) : NextInv (execDumpDiscard c scope s) :=
  h.command h.update.backInUse.checked

protected theorem State.Inv.execHostMemoryRequest {vf addr : Nat} {a : HostAccess} (h : s.Inv) :
    NextInv (execHostMemoryRequest vf addr a s) := by
  unfold execHostMemoryRequest
  dsimp only
  split
  · exact .ite h (.ite h.logFound (.ite (State.Inv.send (h.foldl fun _ _ ht => ht.recall)) h.send))
  · exact .ite h (h.writeBytes.foldl fun _ _ ht => ht.writeLine)

protected theorem State.Inv.execReplayInject {part : Nat} (h : s.Inv) : NextInv (execReplayInject part s) := by
  unfold execReplayInject
  split
  · exact h
  · split
    · exact h.applyEntry.setActive
    · split
      · exact h
      · exact h.applyEntry.arrivePacket

protected theorem State.Inv.execCommandEntry {entry : BitVec 512} (h : s.Inv) :
    NextInv (execCommandEntry entry s) :=
  .ite h.execInfo (.ite h.execPartDestroy (.ite h.execPwrQuery (.ite h.execRecQuery (.ite h (.ite h.complete
    (.ite h.complete h))))))

end

/-! ## The rules of Sys2Proof/Machine/Spdm.lean -/

section
variable {s : State} {request n session : Nat} {cipher wrapped : List Byte}

theorem State.Inv.answer {covers : List Byte} (h : s.Inv) : (s.answer request covers).Inv := h.send

theorem State.Inv.answerWith {bs : List Byte} (h : s.Inv) : (s.answerWith request bs).Inv := h.send

theorem State.Inv.answerError (h : s.Inv) : s.answerError.Inv := h.answer

protected theorem State.Inv.execUnsupportedRequest (h : s.Inv) : NextInv (execUnsupportedRequest s) :=
  h.answerError

protected theorem State.Inv.execGetMeasurements {index : Nat} (h : s.Inv) :
    NextInv (execGetMeasurements index s) := by
  unfold execGetMeasurements
  split
  · exact h.answerWith
  · split
    · exact h.answerWith
    · exact h.answerError

theorem State.Inv.setSession {x : Session} (h : s.Inv) : (s.setSession n x).Inv := h.update

theorem State.Inv.inSession {f : Session → State} (h : s.Inv) (hf : ∀ a, (f a).Inv) :
    NextInv (s.inSession n f) := by
  unfold State.inSession
  split
  · exact State.Inv.ite (hf _) h.answerError
  · exact h.answerError

protected theorem State.Inv.execKeyExchange {exchange : List Byte} (h : s.Inv) :
    NextInv (execKeyExchange exchange s) :=
  h.fresh.update.setSession.answer

protected theorem State.Inv.execFinish {verify : BitVec 256} (h : s.Inv) :
    NextInv (execFinish session verify s) := by
  unfold execFinish
  split
  · exact State.Inv.ite h.setSession.answer h.answerError
  · exact h.answerError

protected theorem State.Inv.execHeartbeat (h : s.Inv) : NextInv (execHeartbeat session s) :=
  h.inSession fun _ => h.answer

protected theorem State.Inv.execKeyUpdate (h : s.Inv) : NextInv (execKeyUpdate session s) :=
  h.inSession fun _ => h.setSession.answer

protected theorem State.Inv.execEndSession (h : s.Inv) : NextInv (execEndSession session s) :=
  h.inSession fun _ => h.update.answer

protected theorem State.Inv.execKeyOpen {part : Nat} {dies : List Nat} {slot : Nat} {keyid : BitVec 32}
    (h : s.Inv) : NextInv (execKeyOpen session part dies slot keyid s) :=
  h.inSession fun _ => .ite h.answerError h.fresh.setSession.send

protected theorem State.Inv.execKeyWrap (h : s.Inv) : NextInv (execKeyWrap session cipher wrapped s) := by
  refine h.inSession fun _ => ?_
  split
  · exact .ite h.setSession.answer h.answerError
  · exact h.answerError

theorem State.Inv.loadKey {o : KeyOpen} {key : BitVec 512} {die : Nat} (h : s.Inv) :
    (State.loadKey o key s die).Inv :=
  h.setDie

protected theorem State.Inv.execKeyLoad (h : s.Inv) : NextInv (execKeyLoad session s) := by
  refine h.inSession fun _ => ?_
  split
  · exact h.answerError
  · dsimp only
    split
    · exact .ite (.answer (h.setSession.foldl fun _ _ ht => ht.loadKey)) h.setSession.answerError
    · exact h.setSession.answerError

protected theorem State.Inv.execShelfKey (h : s.Inv) : NextInv (execShelfKey session cipher wrapped s) := by
  refine h.inSession fun _ => ?_
  split
  · exact h.update.answer
  · exact h.answerError

end

/-! ## The rules of Sys2Proof/Machine/Dispatch.lean -/

section
variable {s : State}

protected theorem State.Inv.exec {i : Instr} (h : s.Inv) : NextInv (exec i s) := by
  unfold Machine.exec
  cases i with
  | trap => exact h.execTrap
  | mfs => exact h.execMfs
  | mts => exact h.execMts
  | time | cycle | myid | fence | vsel | vins | vext | vred | vcmprs | plog | ppopc | pfirst | pset | ilvp
  | ilvu | tlget | rank | rankN =>
    exact .finish h.setMe
  | add | sub | and | or | xor | andn | orn | sll | srl | sra | rol | ror | min | max | minn | maxn | slt
  | sltn | seq | sne | csel | addi | andi | ori | xori | slli | srli | srai | rori | slti | sltni | seqi | li
  | mul | mulh | mulhn | madd | div | divn | rem | remn | clz | ctz | popc | brev | bswap | bfx | bfxn | bfi
  | sext | zext | lea | gaddr | caddr | crel =>
    exact h.scalarOp
  | bcc | bp => exact h.branchIf
  | call | calli => exact h.callTo
  | j => exact h.execJ
  | ji => exact h.execJi
  | start => exact h.execStart
  | wait => exact h.execWait
  | ld => exact h.execLd
  | ldp => exact h.execLdp
  | st => exact h.execSt
  | stp => exact h.execStp
  | lds => exact h.execLds
  | chkld => exact h.execChkld
  | amoSwap | amoAdd | amoAnd | amoOr | amoXor | amoMin | amoMax | amoMinn | amoMaxn | cas =>
    exact .finish h.amoHere
  | amofAdd | amofMin | amofMax => exact h.floatAtomic
  | amo2Swap | amo2Add | amo2And | amo2Or | amo2Xor | cas2 => exact h.wideAtomic
  | pref | prefW | nop | nopX => exact .finish h
  | cclean => exact h.execCclean
  | cflush => exact h.execCflush
  | cinv => exact h.execCinv
  | vld => exact h.execVld
  | vst | vsts | vstx => exact .finish h.storeVector
  | vlds | vldx => exact .finish h.loadVector
  | vldb => exact h.execVldb
  | vldbWeak => exact h.execVldbWeak
  | vadd | vsub | vmul | vmulh | vmadd | vand | vor | vxor | vsll | vsrl | vsra | vmin | vmax | vabs =>
    exact h.vintV
  | vcmp | vcmpi => exact h.vcmp
  | vaddi | vsubi | vmuli | vandi | vori | vxori | vslli | vsrli | vsrai | vmini | vmaxi => exact h.vintI
  | vbcast | vperm | vslide | vscan | viota | vexpnd => exact h.permute
  | fpsFadd | fpsFsub | fpsFmul | fpsFdiv | fpsFsqrt | fpsFmin | fpsFmax | fpsFminm | fpsFmaxm | fpsFabs
  | fpsFneg | fpsFsgnj | fpsFcmp | fpsFclass | fpsFrnd | ffmaScalar | ffmsScalar | fnfmaScalar | fnfmsScalar
  | fcvtScalar | scvt =>
    exact h.floatScalar
  | fpvFadd | fpvFsub | fpvFmul | fpvFdiv | fpvFsqrt | fpvFmin | fpvFmax | fpvFminm | fpvFmaxm | fpvFabs
  | fpvFneg | fpvFsgnj | fpvFclass | fpvFrnd | ffmaVector | ffmsVector | fnfmaVector | fnfmsVector
  | fcvtVector =>
    exact h.floatVector
  | fpvFcmp => exact h.execFpvFcmp
  | fdot2 | freds | qdeq | qquant => exact .finish h.runOrShip
  | fexp2 | fexp | flog2 | fsin | fcos | ftanh | frsq | frcp => exact h.transcendental
  | talloc => exact h.execTalloc
  | tfree => exact h.execTfree
  | tzero => exact h.execTzero
  | tload => exact h.execTload
  | tmma => exact h.execTmma
  | tmmaq => exact h.execTmmaq
  | tqdesc => exact h.execTqdesc
  | tdrain => exact h.execTdrain
  | tstore => exact h.execTstore
  | tstat => exact h.execTstat
  | copy => exact h.execCopy
  | cseal => exact h.execCseal
  | cwait => exact h.execCwait
  | winset => exact h.execWinset
  | winadv => exact h.execWinadv
  | winflush => exact h.execWinflush
  | bgset => exact h.execBgset
  | barr | phase => exact .finish h.arriveAt
  | bwait => exact h.execBwait
  | xmit => exact h.execXmit
  | isel => exact h.execIsel
  | xrecv => exact h.execXrecv
  | spawn => exact h.execSpawn
  | spawnat => exact h.execSpawnat
  | taskget => exact h.execTaskget
  | rgres => exact h.execRgres
  | rgpub => exact h.execRgpub
  | rgtake => exact h.execRgtake
  | rgdone => exact h.execRgdone
  | send => exact h.execSend
  | recv => exact h.execRecv
  | rankOf => exact h.execRankOf
  | coll => exact h.execColl
  | grpjoin => exact h.execGrpjoin
  | grpfree => exact h.execGrpfree
  | eret | eretX => exact h.returnFrom
  | beat | beatX => exact h.beat
  | ret | retX => exact h.retFrom
  | retire | retireX => exact h.retireFrom
  | endK | endX => exact h.endFrom
  | yieldK | yieldX => exact h.yieldFrom
  | fencesc | fencescX | fencescSys | fencescSysX => exact h.fenceSc
  | taskend => exact h.execTaskend
  | tileLoadDone => exact h.execTileLoadDone
  | shipPacketArrival => exact h.execShipPacketArrival
  | guestIssue => exact h.execGuestIssue
  | guestAgeingExpiry => exact h.execGuestAgeingExpiry
  | shipResultLanding => exact h.execShipResultLanding
  | shipRetransmit => exact h.execShipRetransmit
  | gshareUpdate => exact h.execGshareUpdate
  | matCommandAccept => exact h.execMatCommandAccept
  | matStep => exact h.execMatStep
  | matCommandComplete => exact h.execMatCommandComplete
  | matFault => exact h.execMatFault
  | mcastWaitExpiry => exact h.execMcastWaitExpiry
  | tdrainRowDispatch => exact h.execTdrainRowDispatch
  | helperAssign => exact h.execHelperAssign
  | copyAccept => exact h.execCopyAccept
  | copyChunk => exact h.execCopyChunk
  | copyComplete => exact h.execCopyComplete
  | copyFault => exact h.execCopyFault
  | waitEvaluate => exact h.execWaitEvaluate
  | waitTimeout => exact h.execWaitTimeout
  | yieldExpiry => exact h.execYieldExpiry
  | barrierTokenArrival => exact h.execBarrierTokenArrival
  | barrierReleaseArrival => exact h.execBarrierReleaseArrival
  | phaseStart => exact h.execPhaseStart
  | bwaitTimeout => exact h.execBwaitTimeout
  | wireWordArrival => exact h.execWireWordArrival
  | stealProbe => exact h.execStealProbe
  | stealResponse => exact h.execStealResponse
  | spawnatDelivery => exact h.execSpawnatDelivery
  | spawnTimeout => exact h.execSpawnTimeout
  | taskgetTimeout => exact h.execTaskgetTimeout
  | rgtakeTimeout => exact h.execRgtakeTimeout
  | messageDelivery => exact h.execMessageDelivery
  | recvTimeout => exact h.execRecvTimeout
  | collRoundComplete => exact h.execCollRoundComplete
  | groupGenerationDrain => exact h.execGroupGenerationDrain
  | crossDieMessageApply => exact h.execCrossDieMessageApply
  | clockBeat => exact h.execClockBeat
  | fenceSequencerTicket => exact h.execFenceSequencerTicket
  | directoryReadMiss | ownershipRequest | proxyWriteThrough => exact State.Inv.ite h.request h
  | hiveInvalidation => exact h.execHiveInvalidation
  | invalidationAck => exact h.execInvalidationAck
  | cleanEvictionNotice | dirtyWriteBack | replicaOffer => exact State.Inv.ite h.evict h
  | dbpkt => exact h.execDbpkt
  | fabricSubmission => exact h.execFabricSubmission
  | lotteryDraw => exact h.execLotteryDraw
  | forcedHeadRetry => exact h.execForcedHeadRetry
  | governorSample => exact h.execGovernorSample
  | groupMove => exact h.execGroupMove
  | stageComplete => exact h.execStageComplete
  | preemptionRequest => exact h.execPreemptionRequest
  | coreHalt => exact h.execCoreHalt
  | coreSave => exact h.execCoreSave
  | contextMove => exact h.execContextMove
  | shootdownRequest => exact h.execShootdownRequest
  | shootdownComplete => exact h.execShootdownComplete
  | heartbeatMiss => exact h.execHeartbeatMiss
  | fenceQuiescenceTimeout => exact h.execFenceQuiescenceTimeout
  | fenceRehome => exact h.execFenceRehome
  | telemetryFrame => exact h.execTelemetryFrame
  | telemetryLoss => exact h.execTelemetryLoss
  | activeCountRise => exact h.execActiveCountRise
  | forcedShed => exact h.execForcedShed
  | parkedSwitchOff => exact h.execParkedSwitchOff
  | coreSwitchOn => exact h.execCoreSwitchOn
  | dividerWindowEnd => exact h.execDividerWindowEnd
  | segmentVoltageReached => exact h.execSegmentVoltageReached
  | droopTrip => exact h.execDroopTrip
  | droopRecovery => exact h.execDroopRecovery
  | errorDetected => exact h.execErrorDetected
  | thermalTrip | managementWatchdog => exact h.moduleFatal
  | linkLaneFailure => exact h.execLinkLaneFailure
  | linkDown => exact h.execLinkDown
  | replayDivergence => exact h.execReplayDivergence
  | moduleReset => exact State.Inv.execModuleReset
  | mbec | mmioRegisterWrite => exact h.update
  | info => exact h.execInfo
  | partCreate => exact h.execPartCreate
  | partAssign => exact h.execPartAssign
  | partRelease => exact h.execPartRelease
  | partDestroy => exact h.execPartDestroy
  | partSet => exact h.execPartSet
  | vfBind | pwrSet | curveSet | configStage => exact h.command h.update.checked
  | fabricAllow | recSet => exact h.command h.setPart.checked
  | krangeSet => exact h.execKrangeSet
  | keyZeroise => exact h.execKeyZeroise
  | preempt => exact h.execPreempt
  | abort => exact h.execAbort
  | restore => exact h.execRestore
  | pwrQuery => exact h.execPwrQuery
  | recQuery => exact h.execRecQuery
  | errlogRead => exact h.execErrlogRead
  | repairHive => exact h.execRepairHive
  | fenceClear => exact h.execFenceClear
  | dumpRead => exact h.execDumpRead
  | dumpDiscard => exact h.execDumpDiscard
  | getVersion | getCapabilities | negotiateAlgorithms | challenge => exact h.answer
  | getDigests | getCertificate => exact h.answerWith
  | getMeasurements => exact h.execGetMeasurements
  | keyExchange => exact h.execKeyExchange
  | finish => exact h.execFinish
  | heartbeat => exact h.execHeartbeat
  | keyUpdate => exact h.execKeyUpdate
  | endSession => exact h.execEndSession
  | keyOpen => exact h.execKeyOpen
  | keyWrap => exact h.execKeyWrap
  | keyLoad => exact h.execKeyLoad
  | shelfKey => exact h.execShelfKey
  | illegalEncoding | instructionFetchFault => exact h.takeTrap
  | readReply => exact h.execReadReply
  | localMemoryPortAccess => exact h.execLocalMemoryPortAccess
  | hostMemoryRequest => exact h.execHostMemoryRequest
  | replayInject => exact h.execReplayInject

end

/-! ## The rules of Sys2Proof/Machine/Issue.lean -/

section
variable {t u s : State} {i : Instr}

theorem State.Inv.issued (h : t.Inv) : (t.issued u i).Inv := h.settled.takeSlot.wakeLanes.afterIssue

theorem State.Inv.resumed (h : t.Inv) : (t.resumed u i).Inv :=
  .afterIssue (.ite h.settled.takeSlot h.settled)

theorem State.Inv.trapIssued {t : Trap} {len : BitVec 2} {vec : Bool} (hu : u.Inv) :
    (s.trapIssued t len vec u).Inv :=
  hu.takeTrap.fillSlot.afterIssue

protected theorem State.Inv.issueInstr (h : s.Inv) : NextInv (issueInstr i s) := by
  unfold issueInstr
  split
  · exact h
  · split
    · exact h.logError.trapIssued
    · exact .onNext h.tries.exec fun _ ht => ht.issued

protected theorem State.Inv.issueFetched (h : s.Inv) : NextInv (issueFetched s) := by
  unfold Machine.issueFetched
  split
  · rename_i hx
    exact State.Inv.ite (State.Inv.trapIssued (h.fetch.of_trap hx)) h
  · rename_i hx
    exact h.fetch.of_hold hx
  · split
    · exact h.issueInstr
    · exact State.Inv.ite h.trapIssued h

protected theorem State.Inv.issueTurn (h : s.Inv) : NextInv (issueTurn s) := by
  unfold issueTurn
  split
  · exact h
  · split
    · exact h.setMe.takeTrap
    · split
      · exact .ite h (.onNext h.exec (fun _ ht => ht.resumed))
      · exact h.issueFetched

end

/-! ## The rules of Sys2Proof/Machine/Turns.lean -/

section
variable {c : CtxId} {s : State} {k : CoreId} {p : Nat}

protected theorem State.Inv.issueBy (h : s.Inv) : NextInv (issueBy c s) :=
  .ite h.update.issueTurn trivial

theorem State.Inv.fillTlb {hiveLevel : Bool} {va : Nat} (h : s.Inv) : (s.fillTlb k hiveLevel va).Inv := by
  unfold State.fillTlb
  split
  · exact h
  · split
    · exact h
    · exact .ite h.setHive h.setCore

protected theorem State.Inv.runTurn {t : Turn} (h : s.Inv) : NextInv (runTurn t s) := by
  unfold runTurn
  split
  · exact h.issueBy
  · exact .ite h.exec h
  · exact h.pass
  · exact h.fillTlb
  · exact h.fillCode
  · exact h.dropCode
  · exact h.execCommandEntry
  · exact h.execHostRead
  · exact h.execUnsupportedRequest
  · exact h.execRepairSlice

protected theorem State.Inv.deliverHeld (h : s.Inv) : NextInv (deliverHeld p s) :=
  State.Inv.ite h.flushNotices h

/-- The acts listed for a context keep the invariant. -/
theorem keeps_of_mem_ctxTurns : ∀ f ∈ ctxTurns s c, Keeps f := by
  simp only [ctxTurns, List.forall_mem_cons, List.forall_mem_append, List.forall_mem_flatMap, List.not_mem_nil,
    false_imp_iff, implies_true, and_true]
  exact ⟨fun _ h => h.issueBy,
    ⟨⟨fun _ h => h.execWaitEvaluate, fun _ h => h.execWaitTimeout, fun _ h => h.execYieldExpiry,
        fun _ h => h.execBwaitTimeout, fun _ h => h.execSpawnTimeout, fun _ h => h.execTaskgetTimeout,
        fun _ h => h.execRgtakeTimeout, fun _ h => h.execRecvTimeout, fun _ h => h.execMatCommandAccept,
        fun _ h => h.execMatCommandComplete, fun _ h => h.execTdrainRowDispatch, fun _ h => h.execCopyAccept⟩,
      fun _ _ => ⟨fun _ h => h.execMatStep, fun _ h => h.execMatFault, fun _ h => h.execMcastWaitExpiry⟩⟩,
    fun _ _ => ⟨fun _ h => h.execCopyChunk, fun _ h => h.execCopyComplete, fun _ h => h.execCopyFault⟩⟩

/-- The acts listed for a core keep the invariant. -/
theorem keeps_of_mem_coreTurns : ∀ f ∈ coreTurns s k, Keeps f := by
  simp only [coreTurns, List.forall_mem_cons, List.forall_mem_append, List.forall_mem_map, List.not_mem_nil,
    false_imp_iff, implies_true, and_true]
  exact ⟨⟨⟨⟨fun _ h => h.execHelperAssign, fun _ h => h.execStealProbe, fun _ h => h.execStealResponse,
          fun _ h => h.execPreemptionRequest, fun _ h => h.execCoreHalt, fun _ h => h.execCoreSave,
          fun _ h => h.execHeartbeatMiss, fun _ h => h.execFenceQuiescenceTimeout, fun _ h => h.execForcedShed,
          fun _ h => h.execParkedSwitchOff, fun _ h => h.execCoreSwitchOn, fun _ h => h.execDividerWindowEnd,
          fun _ h => h.execDroopRecovery⟩,
        fun _ _ _ h => h.execTileLoadDone⟩,
      fun _ h => h.execPhaseStart, fun _ h => h.execPhaseStart, fun _ h => h.execPhaseStart,
      fun _ h => h.execPhaseStart⟩,
    fun _ _ _ h => h.execMessageDelivery⟩

/-- The acts listed for a hive keep the invariant. -/
theorem keeps_of_mem_hiveTurns {i : HiveId} {x : Hive} : ∀ f ∈ hiveTurns i x, Keeps f := by
  simp only [hiveTurns, List.forall_mem_cons, List.forall_mem_append, List.forall_mem_map, List.not_mem_nil,
    false_imp_iff, implies_true, and_true]
  exact ⟨⟨⟨⟨⟨fun _ _ _ h => h.execShipPacketArrival, fun _ _ _ h => h.execGuestIssue⟩,
          fun _ _ _ h => h.execGuestAgeingExpiry⟩,
        fun _ _ _ h => h.execShipResultLanding⟩,
      fun _ _ _ h => h.execReadReply⟩,
    fun _ h => h.execGshareUpdate⟩

/-- The acts listed for a die keep the invariant. -/
theorem keeps_of_mem_dieTurns {d : Nat} {x : Die} : ∀ f ∈ dieTurns d x, Keeps f := by
  simp only [dieTurns, List.forall_mem_cons, List.forall_mem_append, List.forall_mem_map,
    List.forall_mem_flatMap, List.forall_mem_filterMap, List.not_mem_nil, false_imp_iff, implies_true, and_true]
  refine ⟨⟨⟨⟨⟨⟨⟨fun e _ f hf => ?_, fun _ _ _ h => h.execBarrierTokenArrival⟩,
              fun _ _ _ h => h.execBarrierReleaseArrival⟩,
            fun _ _ _ h => h.execWireWordArrival⟩,
          fun _ _ _ h => h.execCrossDieMessageApply⟩,
        fun _ _ _ h => h.execClockBeat⟩,
      fun _ _ _ _ => ⟨fun _ h => h.execHiveInvalidation, fun _ h => h.execInvalidationAck⟩,
      fun _ _ _ _ => ⟨fun _ h => h.execHiveInvalidation, fun _ h => h.execInvalidationAck⟩⟩,
    fun _ h => h.execFenceSequencerTicket⟩
  obtain rfl := Option.some.inj (Option.ite_none_right_eq_some.mp hf).2
  exact fun _ h => h.execDroopTrip

/-- The acts listed for a partition keep the invariant. -/
theorem keeps_of_mem_partTurns : ∀ f ∈ partTurns p, Keeps f := by
  simp only [partTurns, List.forall_mem_cons, List.not_mem_nil, false_imp_iff, implies_true, and_true]
  exact ⟨fun _ h => h.execLotteryDraw, fun _ h => h.execForcedHeadRetry, fun _ h => h.execShootdownRequest,
    fun _ h => h.execShootdownComplete, fun _ h => h.execReplayInject, fun _ h => h.deliverHeld⟩

/-- The acts listed for a launch keep the invariant. -/
theorem keeps_of_mem_launchTurns {j : Nat} {l : Launch} : ∀ f ∈ launchTurns j l, Keeps f := by
  simp only [launchTurns, List.forall_mem_cons, List.forall_mem_append, List.forall_mem_map,
    List.forall_mem_flatMap, List.not_mem_nil, false_imp_iff, implies_true, and_true]
  exact ⟨⟨⟨⟨fun _ h => h.execGovernorSample, fun _ h => h.execReplayDivergence⟩,
        fun _ _ _ h => h.execGroupMove⟩,
      fun _ _ _ h => h.execStageComplete⟩,
    fun _ _ => ⟨fun _ h => h.execCollRoundComplete, fun _ h => h.execGroupGenerationDrain⟩⟩

/-- Everything the machine may do of its own keeps the invariant. -/
theorem keeps_of_mem_ownTurns : ∀ f ∈ ownTurns s, Keeps f := by
  simp only [ownTurns, List.forall_mem_cons, List.forall_mem_append, List.forall_mem_map,
    List.forall_mem_flatMap, List.not_mem_nil, false_imp_iff, implies_true, and_true]
  exact ⟨⟨⟨⟨⟨⟨fun _ _ => ⟨keeps_of_mem_coreTurns, fun _ _ => keeps_of_mem_ctxTurns⟩,
              fun _ _ => keeps_of_mem_hiveTurns⟩,
            fun _ _ => keeps_of_mem_dieTurns⟩,
          fun _ _ _ h => h.execSpawnatDelivery⟩,
        fun _ _ => keeps_of_mem_partTurns⟩,
      fun _ _ => keeps_of_mem_launchTurns⟩,
    fun _ h => h.execTelemetryLoss, fun _ h => h.execActiveCountRise⟩

protected theorem State.Inv.ownAction (h : s.Inv) : NextInv (ownAction s) := by
  unfold Machine.ownAction
  dsimp only
  split
  · rename_i hx
    exact keeps_of_mem_ownTurns _ (List.mem_of_getElem? hx) _ h.fresh
  · exact h.fresh.pass

end

/-! ## The rules of Sys2Proof/Machine/Step.lean -/

protected theorem State.Inv.step {s : State} (h : s.Inv) : NextInv (step s) := by
  unfold step
  split
  · exact h.update.runTurn
  · exact h.ownAction

end Sys2Proof.Machine

namespace Sys2Proof.Proofs

open Sys2Proof.Machine

/-- Settles O60: the rule of `step`, read at the state that follows. -/
theorem stepKeepsMemoryCanonical : Obligations.StepKeepsMemoryCanonical := by
  unfold Obligations.StepKeepsMemoryCanonical
  intro s t h e
  have ht : NextInv (step s) := h.step
  rw [e] at ht
  exact ht

end Sys2Proof.Proofs
end

section
/-! PROOFS. Decode of encode (O58; 02 R28 to R44), in three parts. What `word0` and the forms put together, the decoder takes
apart again; so `Payload.decode` reads every payload that lies in the format of its major back from its words; and
`Payload.instr`, the minor maps, names the instruction that a legal instruction's payload came from. The spec's worked
encodings (O57) stand at the end. -/

namespace Sys2Proof

open Laws.Encoding (len_word0)

/-! ## Fields of the words -/

/-- A major with a format is assigned (Table 2.8). -/
theorem major_lt_of_format {major : Nat} (h : majorFormat major ≠ .reserved) : major < 32 := by
  refine Nat.lt_of_not_le fun hm => h ?_
  unfold majorFormat
  iterate 11 rw [if_neg (by omega)]

/-- MAJOR stands in bits 7:2 of word 0 (02 R33). -/
theorem major_word0 {f : BitVec 24} {major : Nat} {len : BitVec 2} {fmt : MajorFormat} (h : majorFormat major = fmt)
    (hr : fmt ≠ .reserved) : ((word0 f major len).extractLsb' 2 6).toNat = major := by
  have hm : major < 32 := major_lt_of_format (h ▸ hr)
  rw [word0, BitVec.extractLsb'_append_eq_of_le (Nat.le_refl 2), BitVec.extractLsb'_append_eq_right, BitVec.toNat_ofNat]
  exact Nat.mod_eq_of_lt (by omega)

/-- The fields of the format stand in bits 31:8 of word 0 (02 R33). -/
theorem field_word0 {f : BitVec 24} {major start n : Nat} {len : BitVec 2} (h : 8 ≤ start) :
    (word0 f major len).extractLsb' start n = f.extractLsb' (start - 8) n := by
  rw [word0, BitVec.extractLsb'_append_eq_of_le (by omega), BitVec.extractLsb'_append_eq_of_le (by omega), Nat.sub_sub]

theorem fnR_word0 {m : BitVec 4} {fn : Nat} {b a d : Reg} {major : Nat} {len : BitVec 2} (h : fn < 32) :
    fnR (word0 (m ++ BitVec.ofNat 5 fn ++ b ++ a ++ d) major len) = fn := by
  simp [fnR, field_word0, BitVec.extractLsb'_append_eq_of_le, BitVec.extractLsb'_append_eq_of_add_le, -Nat.reduceAdd,
    Nat.mod_eq_of_lt h]

theorem unpackR_word0 (x : RForm) {fn major : Nat} {len : BitVec 2} :
    unpackR (word0 (x.mod ++ BitVec.ofNat 5 fn ++ x.b ++ x.a ++ x.d) major len) x.form = x := by
  simp [unpackR, field_word0, BitVec.extractLsb'_append_eq_of_le, BitVec.extractLsb'_append_eq_of_add_le, -Nat.reduceAdd]

theorem unpackX_word0 (x : XForm) {fn major : Nat} {len : BitVec 2} :
    unpackX (word0 (x.mod ++ BitVec.ofNat 5 fn ++ x.b ++ x.a ++ x.d) major len) x.e1 x.e2 = x := by
  simp [unpackX, field_word0, BitVec.extractLsb'_append_eq_of_le, BitVec.extractLsb'_append_eq_of_add_le, -Nat.reduceAdd]

theorem unpackM_word0 (x : MForm) {major : Nat} {len : BitVec 2} :
    unpackM (word0 (x.off ++ x.scope ++ x.ord ++ x.sz ++ x.a ++ x.d) major len) x.form = x := by
  simp [unpackM, field_word0, BitVec.extractLsb'_append_eq_of_le, BitVec.extractLsb'_append_eq_of_add_le, -Nat.reduceAdd]

theorem E1.unpack_pack (x : E1) : E1.unpack x.pack = some x := by
  simp [E1.unpack, E1.pack, BitVec.extractLsb'_append_eq_of_le, BitVec.extractLsb'_append_eq_of_add_le, -Nat.reduceAdd]

theorem Form.ofWords_tail (f : Form) : Form.ofWords f.len f.tail = some f := by
  have join (l : Word) : l.extractLsb' 32 32 ++ l.extractLsb' 0 32 = l := BitVec.extractLsb'_append_extractLsb'
  cases f <;> simp [Form.ofWords, Form.len, Form.tail, litWords, E1.unpack_pack, join]

/-! ## Payloads -/

/-- The payload is of the format that Table 2.8 gives its major, and its minor code has the width of that format's field. -/
def Payload.fits : Payload → Bool
  | .r major fn _ => (majorFormat major == .r || (majorFormat major == .ctx && fn != 0 && fn != 5)) && decide (fn < 32)
  | .i major fn _ => majorFormat major == .i && decide (fn < 16)
  | .m major _ => majorFormat major == .m
  | .b _ | .j _ => true
  | .v major fn _ => majorFormat major == .v && decide (fn < 16)
  | .a op _ => decide (op < 64)
  | .own major fn _ => (majorFormat major == .x || (majorFormat major == .ctx && (fn == 0 || fn == 5))) && decide (fn < 32)

/-- The rows of the minor maps lie in the formats of their majors. -/
theorem Instr.payload_fits (i : Instr) : i.payload.all Payload.fits = true := by
  cases i with
  | fexp2 scalar | fexp scalar | flog2 scalar | fsin scalar | fcos scalar | ftanh scalar | frsq scalar
  | frcp scalar => cases scalar <;> rfl
  | _ => rfl

theorem major_lt_of_decode {w : IWord} {rest : List IWord} {p : Payload} (h : Payload.decode w rest = some p) :
    (w.extractLsb' 2 6).toNat < 32 := by
  apply major_lt_of_format
  intro hr
  simp only [Payload.decode, hr, reduceCtorEq] at h

/-- A payload of its major's format is read back from its words: MAJOR chooses the format, and its fields are the payload's. -/
theorem Payload.decode_encode {p : Payload} {w : IWord} {rest : List IWord} (h : p.fits = true)
    (e : p.encode = w :: rest) : Payload.decode w rest = some p := by
  cases p <;> obtain ⟨rfl, rfl⟩ := List.cons.inj e
  case r major fn x =>
    simp only [fits, Bool.and_eq_true, Bool.or_eq_true, beq_iff_eq, bne_iff_ne, decide_eq_true_eq] at h
    obtain ⟨hm | ⟨⟨hm, h0⟩, h5⟩, hf⟩ := h
    · simp only [Payload.decode, len_word0, major_word0 hm nofun, hm, Form.ofWords_tail, fnR_word0 hf, unpackR_word0,
        Option.map_some]
    · simp only [Payload.decode, len_word0, major_word0 hm nofun, hm, Form.ofWords_tail, fnR_word0 hf, unpackR_word0,
        Option.map_some, h0, h5, or_self, if_false]
  case i major fn x =>
    simp only [fits, Bool.and_eq_true, beq_iff_eq, decide_eq_true_eq] at h
    obtain ⟨hm, hf⟩ := h
    simp only [Payload.decode, len_word0, major_word0 hm nofun, hm, Form.ofWords_tail, Option.map_some]
    simp [field_word0, BitVec.extractLsb'_append_eq_of_le, BitVec.extractLsb'_append_eq_of_add_le, -Nat.reduceAdd,
      -BitVec.extractLsb'_toNat, Nat.mod_eq_of_lt hf]
  case m major x =>
    have hm : majorFormat major = .m := beq_iff_eq.mp h
    simp only [Payload.decode, len_word0, major_word0 hm nofun, hm, Form.ofWords_tail, unpackM_word0, Option.map_some]
  case b x =>
    have hm : majorFormat 6 = .b := rfl
    simp only [Payload.decode, len_word0, major_word0 hm nofun, hm, Form.ofWords_tail, Option.map_some]
    simp [field_word0, BitVec.extractLsb'_append_eq_of_le, BitVec.extractLsb'_append_eq_of_add_le, -Nat.reduceAdd]
  case j x =>
    have hm : majorFormat 7 = .j := rfl
    simp only [Payload.decode, len_word0, major_word0 hm nofun, hm, Form.ofWords_tail, Option.map_some]
    simp [field_word0]
  case v major fn x =>
    simp only [fits, Bool.and_eq_true, beq_iff_eq, decide_eq_true_eq] at h
    obtain ⟨hm, hf⟩ := h
    simp only [Payload.decode, len_word0, major_word0 hm nofun, hm, Form.ofWords_tail, Option.map_some]
    simp [field_word0, BitVec.extractLsb'_append_eq_of_le, BitVec.extractLsb'_append_eq_of_add_le, -Nat.reduceAdd,
      -BitVec.extractLsb'_toNat, Nat.mod_eq_of_lt hf]
  case a op x =>
    have ho : op < 64 := of_decide_eq_true h
    have hm : majorFormat 13 = .a := rfl
    simp only [Payload.decode, len_word0, major_word0 hm nofun, hm]
    simp [field_word0, BitVec.extractLsb'_append_eq_of_le, BitVec.extractLsb'_append_eq_of_add_le, -Nat.reduceAdd,
      -BitVec.extractLsb'_toNat, Nat.mod_eq_of_lt ho]
  case own major fn x =>
    simp only [fits, Bool.and_eq_true, Bool.or_eq_true, beq_iff_eq, decide_eq_true_eq] at h
    obtain ⟨hm | ⟨hm, ho⟩, hf⟩ := h
    · simp only [Payload.decode, len_word0, major_word0 hm nofun, hm, fnR_word0 hf]
      simp [unpackX_word0]
    · simp only [Payload.decode, len_word0, major_word0 hm nofun, hm, fnR_word0 hf, ho, if_true]
      simp [unpackX_word0]

/-! ## Minor maps -/

theorem bTable_bcc {cond : BitVec 4} (h : cond.toNat ≤ 5) : bTable cond = some .bcc := by
  have hc : cond.toNat = 0 ∨ cond.toNat = 1 ∨ cond.toNat = 2 ∨ cond.toNat = 3 ∨ cond.toNat = 4 ∨ cond.toNat = 5 := by omega
  rcases hc with hc | hc | hc | hc | hc | hc <;> simp only [bTable, hc]

theorem bTable_bp {cond : BitVec 4} (h : 8 ≤ cond.toNat) (h' : cond.toNat ≤ 11) : bTable cond = some .bp := by
  have hc : cond.toNat = 8 ∨ cond.toNat = 9 ∨ cond.toNat = 10 ∨ cond.toNat = 11 := by omega
  rcases hc with hc | hc | hc | hc <;> simp only [bTable, hc]

theorem Payload.instr_b {x : BForm} {ins : BForm → Instr} (h : bTable x.cond = some ins) :
    Payload.instr (.b x) = some (ins x) := by
  rw [instr, h, Option.map_some]

theorem Payload.instr_m {x : MForm} {major : Nat} {ins : MForm → Instr} (hm : major ≠ 14)
    (h : mTable major x = some ins) : Payload.instr (.m major x) = some (ins x) := by
  rw [instr, if_neg fun e => hm e.1, h, Option.map_some]

/-- An entry of the FENCE and cache major is named by its FOP, which is never FENCESC's. -/
theorem Payload.instr_fence {x : MForm} {fop : Reg} {ords scopes : List Nat} {ins : MForm → Instr}
    (h : x.fenceOk fop ords scopes = true) (hf : fTable fop.toNat = some ins) :
    Payload.instr (.m 14 x) = some (ins x) := by
  simp only [MForm.fenceOk, Bool.and_eq_true, beq_iff_eq] at h
  obtain ⟨⟨⟨⟨hsz, hfop⟩, hord⟩, hscope⟩, hform⟩ := h
  have hd : x.d ≠ 2 := by
    intro e
    rw [← hfop, e] at hf
    cases hf
  rw [instr, if_neg fun e => hd e.2, mTable, hfop, hf, Option.map_some]

/-- An entry of RANK is named by the one MOD it accepts. -/
theorem Payload.instr_rank {x : XForm} {m : Nat} {b a d : Bool} {e1 e2 : Nat → Bool} {ins : XForm → Instr}
    (h : x.ok [m] b a d e1 e2 = true) (hm : rankTable (BitVec.ofNat 4 m) = some ins) :
    Payload.instr (.own 31 2 x) = some (ins x) := by
  simp only [XForm.ok, Bool.and_eq_true, List.contains_cons, List.contains_nil, Bool.or_false, beq_iff_eq] at h
  obtain ⟨⟨⟨⟨⟨hmod, hb⟩, ha⟩, hd⟩, he1⟩, he2⟩ := h
  rw [← hmod, BitVec.ofNat_toNat, BitVec.setWidth_eq] at hm
  rw [instr, if_pos ⟨rfl, rfl⟩, hm, Option.map_some]

/-- The minor maps name the instruction that a legal instruction's payload came from. Where MAJOR and the minor code do
not tell two instructions apart, the field that does (COND, SZ, FOP, MOD) is one that `Instr.legal` fixes. -/
theorem Instr.instr_payload {i : Instr} (h : i.legal = true) : i.payload.bind Payload.instr = i.payload.map fun _ => i := by
  cases i with
  | bcc x =>
    obtain ⟨hok, hc⟩ := Bool.and_eq_true_iff.mp h
    exact Payload.instr_b (bTable_bcc (of_decide_eq_true hc))
  | bp x =>
    change (x.ok && decide (8 ≤ x.cond.toNat) && decide (x.cond.toNat ≤ 11) && predReg x.a && x.b == 0) = true at h
    simp only [Bool.and_eq_true, decide_eq_true_eq] at h
    obtain ⟨⟨⟨⟨hok, hlo⟩, hhi⟩, ha⟩, hb⟩ := h
    exact Payload.instr_b (bTable_bp hlo hhi)
  | call x =>
    change (x.ok && x.cond == 14 && x.a == 0 && x.b == 0) = true at h
    simp only [Bool.and_eq_true, beq_iff_eq] at h
    obtain ⟨⟨⟨hok, hc⟩, ha⟩, hb⟩ := h
    exact Payload.instr_b (hc ▸ rfl)
  | ld x =>
    change (x.sz != 4 && x.ordOk 1 && x.formOk {}) = true at h
    simp only [Bool.and_eq_true, bne_iff_ne] at h
    obtain ⟨⟨hsz, hord⟩, hform⟩ := h
    exact Payload.instr_m (major := 10) (ins := .ld) (by decide) (if_neg hsz)
  | ldp x =>
    change (x.sz == 4 && evenReg x.d && x.ordOk 1 && x.formOk {}) = true at h
    simp only [Bool.and_eq_true, beq_iff_eq] at h
    obtain ⟨⟨⟨hsz, hd⟩, hord⟩, hform⟩ := h
    exact Payload.instr_m (major := 10) (ins := .ldp) (by decide) (if_pos hsz)
  | st x =>
    change (decide (x.sz.toNat ≤ 3) && x.ordOk 2 && x.formOk { z := false }) = true at h
    simp only [Bool.and_eq_true, decide_eq_true_eq] at h
    obtain ⟨⟨hsz, hord⟩, hform⟩ := h
    exact Payload.instr_m (major := 11) (ins := .st) (by decide) (if_neg fun e => absurd (e ▸ hsz) (by decide))
  | stp x =>
    change (x.sz == 4 && evenReg x.d && x.ordOk 2 && x.formOk { z := false }) = true at h
    simp only [Bool.and_eq_true, beq_iff_eq] at h
    obtain ⟨⟨⟨hsz, hd⟩, hord⟩, hform⟩ := h
    exact Payload.instr_m (major := 11) (ins := .stp) (by decide) (if_pos hsz)
  | lds x =>
    change (x.sz != 4 && x.ord == 0 && x.scope == 0 && x.formOk {}) = true at h
    simp only [Bool.and_eq_true, bne_iff_ne] at h
    obtain ⟨⟨⟨hsz, hord⟩, hscope⟩, hform⟩ := h
    exact Payload.instr_m (major := 12) (ins := .lds) (by decide) (if_neg hsz)
  | chkld x =>
    change (x.sz == 4 && x.ord == 0 && x.scope == 0 && x.formOk {}) = true at h
    simp only [Bool.and_eq_true, beq_iff_eq] at h
    obtain ⟨⟨⟨hsz, hord⟩, hscope⟩, hform⟩ := h
    exact Payload.instr_m (major := 12) (ins := .chkld) (by decide) (if_pos hsz)
  | fence x =>
    obtain ⟨hf, hpure⟩ := Bool.and_eq_true_iff.mp h
    exact Payload.instr_fence hf rfl
  | pref x | prefW x | cclean x | cflush x | cinv x => exact Payload.instr_fence h rfl
  | rank x | rankN x | rankOf x => exact Payload.instr_rank h rfl
  | fexp2 scalar | fexp scalar | flog2 scalar | fsin scalar | fcos scalar | ftanh scalar | frsq scalar
  | frcp scalar => cases scalar <;> rfl
  | _ => rfl

/-- Words whose payload names a legal instruction decode to it: a payload has an assigned major (02 R43). -/
theorem decode_of_payload {w : IWord} {rest : List IWord} {p : Payload} {i : Instr}
    (hlen : rest.length + 1 = lenWords (w.extractLsb' 0 2)) (hp : Payload.decode w rest = some p)
    (hi : p.instr = some i) (h : i.legal = true) : decode (w :: rest) = .ok i := by
  have hmajor : ¬32 ≤ (w.extractLsb' 2 6).toNat := Nat.not_le.mpr (major_lt_of_decode hp)
  simp only [decode, hlen, Nat.lt_irrefl, hmajor, hp, Option.bind_some, hi, h, if_true, if_false]

end Sys2Proof

namespace Sys2Proof.Proofs

/-- Settles O58: the words of the payload give the payload back, and the minor maps give the instruction back. -/
theorem decodeEncodeAgree : Obligations.DecodeEncodeAgree := by
  unfold Obligations.DecodeEncodeAgree
  intro i hsome h
  obtain ⟨p, hp⟩ := Option.isSome_iff_exists.mp hsome
  obtain ⟨w, rest, hw, hlen⟩ := Laws.Encoding.payload_length p
  have hfits : p.fits = true := by simpa only [hp, Option.all_some] using i.payload_fits
  have hinstr : p.instr = some i := by simpa only [hp, Option.bind_some, Option.map_some] using Instr.instr_payload h
  have hwords : encode i = w :: rest := by
    rw [encode, hp]
    exact hw
  rw [hwords]
  exact decode_of_payload hlen (Payload.decode_encode hfits hw) hinstr h

/-- Settles O57: each word is evaluated; the literal of the last is free, as LD takes none. -/
theorem decodeWords : Obligations.DecodeWords := by
  unfold Obligations.DecodeWords
  refine ⟨rfl, rfl, rfl, rfl, rfl, rfl, rfl, rfl, rfl, rfl, rfl, ?_, fun lo hi => ⟨_, rfl⟩⟩
  simp only [List.forall_mem_cons, List.not_mem_nil, false_imp_iff, implies_true, and_true]
  exact ⟨⟨_, rfl⟩, ⟨_, rfl⟩, ⟨_, rfl⟩⟩

end Sys2Proof.Proofs
end

section
/-! PROOFS. A step is the effect of the instruction at the program counter (O56; 01 R17, 02 R28 to R32, R45). A fetch gives
the words that stand there; so a context's turn comes down to what `decode` reads from those words, and `issueInstr` says what
becomes of it. -/

namespace Sys2Proof.Machine

open Claims

section
variable {s u : State} {c : CtxId} {va : Word} {w : IWord} {ws : List IWord} {i : Instr}

/-! ## Fetch -/

/-- The four bytes of a word that stands at an address, put together, are the word (02 R28). -/
theorem fetchWord_of_holdsWord (h : HoldsWord s va w) : s.fetchWord va = .ok w := by
  obtain ⟨a, ha, hp, hb⟩ := h
  have bytes : w.extractLsb' 24 8 ++ w.extractLsb' 16 8 ++ w.extractLsb' 8 8 ++ w.extractLsb' 0 8 = w := by
    iterate 3 rw [BitVec.extractLsb'_append_extractLsb'_eq_extractLsb' (by rfl)]
    exact BitVec.extractLsb'_eq_self
  have h0 : s.codeByte s.cur.core (a + 0) = w.extractLsb' 0 8 := hb 0
  have h1 : s.codeByte s.cur.core (a + 1) = w.extractLsb' 8 8 := hb 1
  have h2 : s.codeByte s.cur.core (a + 2) = w.extractLsb' 16 8 := hb 2
  have h3 : s.codeByte s.cur.core (a + 3) = w.extractLsb' 24 8 := hb 3
  simp only [State.fetchWord, ha, Except.bind, hp, Bool.false_eq_true, if_false, h0, h1, h2, h3, bytes]

/-- Words that stand one after another are fetched in that order. -/
theorem fetchMore_of_holdsWord (h : ∀ j, j < ws.length → HoldsWord s (va + BitVec.ofNat 64 (4 * j)) (ws.getD j 0)) :
    s.fetchMore va ws.length = .ok ws := by
  induction ws generalizing va with
  | nil => rfl
  | cons w ws ih =>
    have hw : HoldsWord s va w := by simpa using h 0 (Nat.succ_pos _)
    have hws : s.fetchMore (va + 4) ws.length = .ok ws := ih fun j hj => by
      have hj := h (j + 1) (Nat.succ_lt_succ hj)
      rwa [Nat.mul_succ, Nat.add_comm, BitVec.ofNat_add, ← BitVec.add_assoc] at hj
    simp only [List.length_cons, State.fetchMore, fetchWord_of_holdsWord hw, hws, Except.bind, Except.map]

/-- The fetch takes the words that stand at the program counter, as many as LEN of the first says (02 R29, R30). -/
theorem fetch_of_holdsWords (h : HoldsWords s ws) : s.fetch = .ok ws := by
  obtain ⟨hne, hlen, hw⟩ := h
  cases ws with
  | nil => exact absurd rfl hne
  | cons w ws =>
    have hw0 : HoldsWord s s.me.pc w := by simpa using hw 0 (Nat.succ_pos _)
    have hlen : lenWords (w.extractLsb' 0 2) - 1 = ws.length := Nat.sub_eq_of_eq_add hlen.symm
    have hall := fetchMore_of_holdsWord hw
    simp only [State.fetch, List.length_cons, State.fetchMore, fetchWord_of_holdsWord hw0, Except.bind, hlen] at hall ⊢
    exact hall

/-- LEN 10 and 11 are the extended forms, whose second word is E1 (02 Table 2.1). -/
theorem illegalTval_eq (ws : List IWord) : illegalTval ws =
    (if (ws.headD 0).extractLsb' 0 2 = 2 ∨ (ws.headD 0).extractLsb' 0 2 = 3 then ws.getD 1 0 else 0#32) ++ ws.headD 0 := by
  have hlt : ∀ len : BitVec 2, len.toNat < 2 ↔ ¬(len = 2 ∨ len = 3) := by decide
  have hE1 : ws.tail.headD 0 = ws.getD 1 0 := by rcases ws with _ | ⟨w, _ | ⟨e, ws⟩⟩ <;> rfl
  simp only [illegalTval, hlt, ite_not, hE1]
  split
  · rfl
  · exact BitVec.setWidth_eq_append (by decide)

/-! ## A context's turn -/

theorem step_of_issues (h : Issues s c u) : step s = issueTurn u := by
  obtain ⟨rest, hagenda, rfl, hvalid, hmay, htrap⟩ := h
  simp only [step, hagenda, runTurn, issueBy, hvalid, if_true]

theorem step_of_unblocked (h : Issues s c u) (hb : u.me.blocked = none) : step s = issueFetched u := by
  rw [step_of_issues h]
  obtain ⟨rest, hagenda, hu, hvalid, hmay, htrap⟩ := h
  simp only [issueTurn, hmay, htrap, hb, Bool.not_true, Bool.false_eq_true, if_false]

theorem step_of_blocked {b : Blocked} (h : Issues s c u) (hb : u.me.blocked = some b) :
    step s = if u.linesBusy b.instr then .next u else onNext (fun t => t.resumed u b.instr) (exec b.instr u) := by
  rw [step_of_issues h]
  obtain ⟨rest, hagenda, hu, hvalid, hmay, htrap⟩ := h
  simp only [issueTurn, hmay, htrap, hb, Bool.not_true, Bool.false_eq_true, if_false]

theorem step_of_decodes (h : Issues s c u) (hb : u.me.blocked = none) (hw : HoldsWords u ws) (hd : decode ws = .ok i) :
    step s = issueInstr i u := by
  simp only [step_of_unblocked h hb, issueFetched, fetch_of_holdsWords hw, hd]

theorem step_of_illegal {e : DecodeError} (h : Issues s c u) (hb : u.me.blocked = none) (hw : HoldsWords u ws)
    (hd : decode ws = .error e) :
    step s = .next (if u.slotOpen false then
      u.trapIssued { cause := .illegal, tval := illegalTval ws } ((ws.headD 0).extractLsb' 0 2) false u else u) := by
  simp only [step_of_unblocked h hb, issueFetched, fetch_of_holdsWords hw, hd]

end
end Sys2Proof.Machine

namespace Sys2Proof.Proofs

open Sys2Proof.Machine Sys2Proof.Claims

/-- Settles O56: a turn of an unblocked context is `issueInstr` of the decoded instruction, or the trap of an encoding that
decodes to nothing; a blocked context runs the instruction it is blocked in. -/
theorem stepRunsDecoded : Obligations.StepRunsDecoded := by
  unfold Obligations.StepRunsDecoded
  intro s u c h
  have hcur : u.cur = c := by
    obtain ⟨rest, hagenda, rfl, hissues⟩ := h
    rfl
  refine ⟨fun hb => ⟨?effect, ?waits, ?illegal, ?faulty⟩, fun b hb => ⟨?resumes, ?busy⟩⟩
  case effect =>
    intro ws i hw hd hz hs hl hr
    rw [step_of_decodes h hb hw hd]
    simp only [issueInstr, hz, hs, hl, hr, Bool.not_true, Bool.or_self, Bool.false_eq_true, if_false]
  case waits =>
    intro ws i hw hd hstop
    have hstop : (hazard u.me i || !u.hasSlot i || u.linesBusy i) = true := by
      simpa only [Bool.or_eq_true, Bool.not_eq_true', or_assoc] using hstop
    rw [step_of_decodes h hb hw hd, issueInstr, if_pos hstop]
  case illegal =>
    intro ws e hw hd
    dsimp only
    rw [step_of_illegal h hb hw hd, illegalTval_eq]
    exact ⟨fun ho => by rw [if_pos ho], fun hc => by rw [hc]; rfl⟩
  case faulty =>
    intro ws i d hw hd hz hs hl hr
    rw [step_of_decodes h hb hw hd]
    simp only [issueInstr, hz, hs, hl, hr, hcur, Bool.not_true, Bool.or_self, Bool.false_eq_true, if_false]
  case resumes =>
    intro hl
    rw [step_of_blocked h hb, hl]
    rfl
  case busy =>
    intro hl
    rw [step_of_blocked h hb, if_pos hl]

end Sys2Proof.Proofs
end
